-- ==== Sys2Proof/Word.lean ====
section
/-! DEFINITION. The plainest numbers of the part: bytes, register words, engine seconds, and rounding up. -/

namespace Sys2Proof

/-- A byte of host memory, flash or a probe bus. -/
abbrev Byte := BitVec 8

/-- A 32-bit register of the window (R141). -/
abbrev Word32 := BitVec 32

/-- A container ID: a 64-bit value (00_scope.md 1.5.2). -/
abbrev ContainerId := BitVec 64

/-- A host memory address (R141: the base has 64 bits). -/
abbrev HostAddr := BitVec 64

/-- ⌈a / b⌉ in exact arithmetic (R13: both divisions round up). -/
def ceilDiv (a b : Nat) : Nat := (a + (b - 1)) / b

end Sys2Proof
end

