-- ==== Sys2Proof/Config.lean ====
section
/-! DEFINITION. The figures the spec fixes for the part. -/

namespace Sys2Proof.Config

/-- "None" in a due or time field (00_scope.md 1.5.2). -/
def timeNone : Nat := 4294967295

/-- The last second the counter counts, and the cap of a due (R13, R168). -/
def lastSecond : Nat := 4294967294

/-- Exposure ticks in one minute of allowance: 60 × 256 (00_scope.md 1.5.2). -/
def ticksPerMinute : Nat := 15360

/-- Places of the staging queue (R163). -/
def stagingPlaces : Nat := 96

/-- Places docket-caused entries may hold at once (R163). -/
def docketPlaces : Nat := 64

/-- The entries of resync and compaction are staged below this many (R163). -/
def jncPlaces : Nat := 32

/-- At this free count or less, staging is held for compaction (R163). -/
def holdFree : Nat := 4

/-- Compaction runs below this free count (R167). -/
def compactBelow : Nat := 16

/-- Free sectors after FORMAT (R160). -/
def freeAfterFormat : Nat := 1022

/-- Seconds between TIME_MARK entries in RUNNING (R162). -/
def timeMarkSeconds : Nat := 60

/-- The measure request byte (R80). -/
def measureRequest : Byte := 0x6E#8

/-- Milliseconds of a probe bus retry gap (R82). -/
def retryGapMs : Nat := 100

/-- Milliseconds a probe bus line may be held low by another party (R80). -/
def busHeldMs : Nat := 25

/-- Milliseconds a page program, and an erase suspend, may stay busy (R159). -/
def programMs : Nat := 5

/-- Milliseconds a sector erase may stay busy, and the bound of busy after a failure (R159). -/
def eraseMs : Nat := 500

end Sys2Proof.Config
end

