-- ==== Sys2Proof/Syntax.lean ====
section
/-! DEFINITION. The commands of the part: one constructor for each row of spec/opcode_table.json, with the
operands the outside supplies at that event. -/

namespace Sys2Proof

/-- The two probe buses (R73). -/
inductive Bus where
  | busA
  | busB
  deriving DecidableEq, Repr

/-- The registers a REGISTER_WRITE names: those without a command of their own (R141). ENGSTAT and ETIME are
read-only. -/
inductive WindowReg where
  | engstat
  | exbaseL
  | exbaseH
  | excfg
  | etime
  deriving DecidableEq, Repr

/-- The host's own stores into its memory, in order, since the part last read it. -/
abbrev Stores := List (HostAddr × Byte)

/-- How many members of a condition change the CTU reaches before the next command comes (R66); `none`: all. -/
abbrev Reach := Option Nat

/-- Where a board group is cut: after `done` of its writes; `last`: it is the last group of a turn-off (R143). -/
structure GroupCut where
  last : Bool
  done : Nat
  deriving DecidableEq, Repr

/-- What brings a sweep to its next slot (R146). -/
inductive SweepOrigin where
  /-- a sweep request, or the answer of the docket in hand -/
  | asked
  /-- RESTORE leaves RESTORING, a sweep having been asked for there; `idReply` is the identification it reads first -/
  | restored (idReply : Byte)
  /-- ENTER_RUNNING leaves RESTORING, a sweep having been asked for there -/
  | entered
  deriving DecidableEq, Repr

/-- Which access to host memory fails on the bus (R156), and how far the part had come. -/
inductive FailedAccess where
  /-- the read of the slot at the cursor in a sweep -/
  | slotRead (origin : SweepOrigin)
  /-- the write of TAKEN -/
  | takenWrite (origin : SweepOrigin)
  /-- a read made for the docket in hand: a movement entry or a cell table block; `notDone` is how many of the
  NOT_DONE writes that follow a failed entry read succeed (R116) -/
  | docketRead (notDone : Nat)
  /-- a write made for the docket in hand: a report, or a movement entry's outcome -/
  | docketWrite
  /-- the write of the answer fields (R149 step 3) -/
  | answerFields
  /-- the write of ANSWERED (R149 step 4) -/
  | answerOwner
  /-- a write of a board group -/
  | groupWrite (cut : GroupCut)
  /-- the engine time write -/
  | engineTime
  deriving DecidableEq, Repr

/-- What the flash shows at the end of a page program (R158, R159). -/
inductive ProgramReply where
  /-- the latch was set and the bytes were programmed -/
  | done
  /-- the write-enable latch was found clear; nothing was programmed -/
  | latchClear
  /-- the bytes found in the flash after the program -/
  | altered (readback : List Byte)
  deriving DecidableEq, Repr

/-- An access that fails, and the host's own stores before it. -/
structure AccessFailure where
  access : FailedAccess
  stores : Stores
  deriving DecidableEq, Repr

/-- What RESTORE reads from outside: the first byte of the flash's identification, which comes before any other
operation (R158), and the host's own stores. -/
structure RestoreInput where
  idReply : Byte
  stores : Stores
  deriving DecidableEq, Repr

/-- What the flash shows at the end of a sector erase (R158, R159). -/
inductive EraseReply where
  | done
  | latchClear
  deriving DecidableEq, Repr

/-- The flash operations that can outlast their timer (R159). -/
inductive TimedFlashOp where
  | program
  | erase
  | suspend
  deriving DecidableEq, Repr

/-- What a probe bus shows when an attempt begins (R80 steps 1 and 2). -/
inductive AttemptReply where
  /-- a line is held low by another party: the attempt waits -/
  | linesHeld
  /-- both lines are high, and the probe acknowledges its address and the request byte -/
  | acknowledged
  /-- both lines are high, and the probe fails to acknowledge -/
  | notAcknowledged
  deriving DecidableEq, Repr

/-- The six response bytes in the order they arrive (R80, 11.9). -/
structure ProbeBytes where
  status : Byte
  tempHigh : Byte
  tempLow : Byte
  rhHigh : Byte
  rhLow : Byte
  count : Byte
  deriving DecidableEq, Repr

/-- The commands, in the order of spec/opcode_table.json. -/
inductive Instr where
  /-- `idReply`: the first byte of the identification that the flash powers up with (R158), which RESTORE reads;
  `backup`: whether the backup supply input is up (R168) -/
  | mainPowerOn (idReply : Byte) (backup : Bool)
  | restore (input : RestoreInput)
  | restoreDoorSample (line : Fin 16)
  | enterRunning (stores : Stores)
  /-- `cut`: when a board group was being written, where the reset cut it (R157) -/
  | busReset (cut : Option GroupCut)
  | powerFailWarning
  | powerRecovery
  | backupSupplyFail
  | softReset
  | intakeSet
  | intakeClear
  | intakeOffComplete
  | nudge (value : Word32) (stores : Stores)
  | intcauseWrite (value : Word32)
  | intmaskWrite (value : Word32)
  | registerWrite (reg : WindowReg) (value : Word32)
  | sweepTimerExpiry (stores : Stores)
  | answerDocket (stores : Stores)
  | enroll
  | split
  | retire
  | quarantine
  | release
  | query
  | moveList
  | moveEntry (stores : Stores)
  | setClass
  | setEngine
  | setZone
  | setConditions (stores : Stores)
  | setProbe
  | setGroup
  | queryProbe
  | setDoor
  | setOutput
  | setTime
  /-- `idReply`: the identification the JNC reads afresh (R173) -/
  | format (idReply : Byte)
  | secondTick
  | engineTimeWrite
  | pendingPassStart
  | warnDue
  | expireDue
  | bakeDue
  | staleTimeReached (probe : Fin 32) (reach : Reach)
  | doorAjarLimit (zone : Fin 64)
  | timeMarkInterval
  | pollTimerExpiry (probe : Fin 32)
  | groupReadyPoint (group : Fin 4)
  | pollAttemptStart (bus : Bus) (reply : AttemptReply) (reach : Reach)
  /-- `ack`: whether the probe acknowledges its read address (R80 step 4) -/
  | conversionTimeExpiry (bus : Bus) (ack : Bool) (reach : Reach)
  | probeResponse (bus : Bus) (bytes : ProbeBytes) (reach : Reach)
  | busHeld (bus : Bus) (reach : Reach)
  /-- `dataLow`: when the data line is still held low, the clock pulses after which it would be released (R82) -/
  | retryGapExpiry (bus : Bus) (dataLow : Option Nat)
  /-- `high`: the new input level of the line -/
  | doorInputChange (line : Fin 16) (high : Bool)
  | doorFilterExpiry (line : Fin 16) (reach : Reach)
  | lampStepExpiry (lamp : Fin 8)
  | waitingTriggerTaken (zone : Fin 64) (reach : Reach)
  | boardGroupWrite
  | hostAccessFailure (failure : AccessFailure)
  | docketStagingResume
  | programComplete (reply : ProgramReply)
  | eraseSuspend
  | flashTimeout (op : TimedFlashOp)
  | resyncStage
  | compactionImages
  | compactionTimeMark
  | compactionErase
  | eraseComplete (reply : EraseReply)
  /-- `left`: the bytes that the operation in progress leaves at its target, then those of a suspended erase -/
  | mainPowerLoss (left : List Byte)
  /-- `ack`: whether the probe, now addressed, acknowledges its address and the request byte -/
  | probeBusFree (bus : Bus) (ack : Bool) (reach : Reach)
  | busyOutlastsBound
  deriving DecidableEq, Repr

end Sys2Proof
end

