-- ==== Sys2Proof/WellFormed.lean ====
section
/-! DEFINITION. Which operands an event can carry. The meanings are total; these are the operands the outside
can really supply. -/

namespace Sys2Proof

/-- A group is cut among its writes: at most one for each board entry, the header and the two generation writes
(R153). -/
def GroupCut.wellFormed (c : GroupCut) : Bool := decide (c.done ≤ 64 + 2048 + 3)

/-- A failed access lies inside what the part was doing: at most 256 NOT_DONE writes (R102), and a group's writes. -/
def FailedAccess.wellFormed : FailedAccess → Bool
  | .docketRead n => decide (n ≤ 256)
  | .groupWrite c => c.wellFormed
  | _ => true

/-- A program writes at most the 63 bytes of an entry before its commit mark (R161). -/
def ProgramReply.wellFormed : ProgramReply → Bool
  | .altered bytes => decide (bytes.length ≤ 63)
  | _ => true

/-- The operand checks of each command. -/
def Instr.wellFormed : Instr → Bool
  | .busReset (some c) => c.wellFormed
  | .hostAccessFailure a => a.access.wellFormed
  | .programComplete r => r.wellFormed
  | .mainPowerLoss left => decide (left.length ≤ 4096 + 63)
  | _ => true

end Sys2Proof
end

