-- ==== Sys2Proof/Machine/State.lean ====
section
/-! DEFINITION. The state of the part, as plain data: one structure for each of the eight blocks of
00_scope.md 1.3, the serial flash, the host's memory as the part sees it, and the queue of commands. -/

namespace Sys2Proof.Machine

/-! ## Why a step could stop -/

/-- Faults. There is none: no command stops the part. A docket's error is its result code, an access failure and a
flash failure are commands of their own. -/
inductive Fault where
  deriving DecidableEq, Repr

/-- Refusals. `notModelled` is raised by `exec` alone, for a command without a meaning; every command has one, so no
step answers it. Safe. -/
inductive Refusal where
  | notModelled (mnemonic : String)
  deriving DecidableEq, Repr

/-! ## Memory -/

/-- Sparse memory: cells with strictly rising addresses, none equal to the blank of that memory. -/
abbrev Memory := List Host.Cell

/-! ## Timebase Unit (R168, R174) -/

structure Tbu where
  mainPower : Bool
  backupSupply : Bool
  /-- the engine time -/
  counter : Nat
  timeValid : Bool
  /-- the supply monitor's warning stands (R174) -/
  powerFail : Bool
  deriving DecidableEq, Repr

/-! ## Containers and classes -/

/-- R22, section 2.3. -/
inductive Custody where
  | sealed
  | opened
  | baking
  | expired
  | quarantined
  deriving DecidableEq, Repr

/-- R8: the mode with the rate it holds. -/
inductive Mode where
  | hold
  | accrue (m : Nat)
  | credit (c : Nat)
  | bakeRun
  | bakePause
  deriving DecidableEq, Repr

/-- R22: why a container is quarantined. -/
inductive QuarantineCause where
  | host
  | overheat
  | bakeLimit
  deriving DecidableEq, Repr

/-- The alert levels, lowest first (R136). -/
inductive AlertLevel where
  | none
  | warn
  | expired
  | quarantined
  deriving DecidableEq, Repr

/-- A container record (R22, R23). -/
structure Container where
  id : ContainerId
  cls : Fin 16
  custody : Custody
  zone : Fin 64
  mode : Mode
  /-- E, in ticks -/
  exposure : Nat
  /-- the settle time S -/
  settled : Nat
  zoneEntry : Nat
  lastMove : Option (Fin 64 × Nat)
  warned : Bool
  bakeCount : Nat
  bakedThisStay : Bool
  bakeProgress : Option Nat
  bakeRunStart : Option Nat
  quarantineCause : Option QuarantineCause
  parent : Option ContainerId
  enrolled : Nat
  warnDue : Option Nat
  expireDue : Option Nat
  dirty : Bool
  deriving DecidableEq, Repr

/-- The fields of a defined class, and the two figures the CTU derives from them (R2). -/
structure ClassDef where
  allowance : Nat
  warnMargin : Nat
  ceiling : Nat
  bakeTemp : Nat
  bakeMax : Nat
  bakeDuration : Nat
  maxBakes : Nat
  warnTicks : Nat
  creditLimit : Nat
  deriving DecidableEq, Repr

structure ClassRecord where
  defn : Option ClassDef
  useCount : Nat
  deriving DecidableEq, Repr

/-- The list record of a MOVE_LIST in progress (R102). -/
structure ListRecord where
  addr : HostAddr
  count : Nat
  next : Nat
  handled : Nat
  applied : Nat
  clamped : Nat
  touched : List (Fin 2048)
  deriving DecidableEq, Repr

/-- Container Table Unit. The ID index is the search of the slots by ID (R24). -/
structure Ctu where
  slots : Vector (Option Container) 2048
  classes : Vector ClassRecord 16
  list : Option ListRecord
  deriving DecidableEq, Repr

/-! ## Zones -/

inductive ZoneKind where
  | unused
  | floor
  | line
  | dry
  | oven
  deriving DecidableEq, Repr

/-- Temperature in tenths of a °C and RH in tenths of a percent. -/
structure Reading where
  temp : Int
  rh : Nat
  deriving DecidableEq, Repr

/-- R48: the condition with the rate it carries. -/
inductive Condition where
  | exposing (m : Nat)
  | drying (c : Nat)
  | dryFailed (m : Nat)
  | ovenReady
  | ovenPaused
  deriving DecidableEq, Repr

/-- The configuration part of a zone record (R47). A field its kind does not hold is none or 0. -/
structure ZoneConfig where
  kind : ZoneKind
  probe : Option (Fin 32)
  fixed : Option Reading
  reference : Option (Fin 64)
  dryThreshold : Nat
  creditRate : Nat
  lineOutput : Option (Fin 8)
  deriving DecidableEq, Repr

/-- A change in progress (R65, R66): the condition left, the condition time and the members not yet reached. -/
structure Change where
  old : Option Condition
  time : Nat
  remaining : List (Fin 2048)
  deriving DecidableEq, Repr

/-- The source of a trigger (R64). -/
inductive TriggerSource where
  | reading
  | door
  | configuration
  deriving DecidableEq, Repr

/-- A waiting trigger (R67); `own`: it is the trigger of the zone's own SET_ZONE, whose evaluation is journaled by
the ZONE_IMAGE (R69). -/
structure Trigger where
  time : Nat
  own : Bool
  deriving DecidableEq, Repr

/-- A zone record (R47, R48). The member count is the length of the member list (R40), and m and c stand in the
condition. `walked` is the walked cell; none is the ceiling for a zone that walks. -/
structure Zone where
  config : ZoneConfig
  held : Option Reading
  bands : Option (Fin 6 × Fin 8)
  basis : Bool
  walked : Option (Fin 6 × Fin 8)
  condition : Option Condition
  conditionTime : Nat
  doorOpen : Bool
  ajar : Bool
  stale : Bool
  ceilingUsed : Bool
  members : List (Fin 2048)
  blocking : Nat
  warnedCount : Nat
  dirty : Bool
  change : Option Change
  waitReading : Option Trigger
  waitDoor : Option Trigger
  waitConfig : Option Trigger
  deriving DecidableEq, Repr

/-- A cell of the derating table (R54). -/
structure Cell where
  mult : Nat
  enabled : Bool
  deriving DecidableEq, Repr

/-- The engine settings record (R5). -/
structure Settings where
  ceiling : Nat
  outage : Nat
  backdate : Nat
  repeatWindow : Nat
  tempHyst : Nat
  rhHyst : Nat
  deriving DecidableEq, Repr

/-- Zone Unit. -/
structure Znu where
  zones : Vector Zone 64
  cells : Vector Cell 48
  tempEdges : Vector Int 5
  rhEdges : Vector Nat 7
  settings : Settings
  deriving DecidableEq, Repr

/-! ## Probes -/

inductive ProbeState where
  | off
  | fresh
  | doubtful
  | stale
  deriving DecidableEq, Repr

/-- R74, R80, R81. -/
inductive ProbeFailure where
  | noAckRequest
  | noAckRead
  | busHeld
  | notReady
  | sensorFault
  | sameCount
  deriving DecidableEq, Repr

structure ProbeConfig where
  bus : Bus
  address : Nat
  group : Option (Fin 4)
  interval : Nat
  conversion : Nat
  deriving DecidableEq, Repr

/-- A probe record (R74); its configuration is absent while it is OFF. -/
structure Probe where
  config : Option ProbeConfig
  state : ProbeState
  held : Option Reading
  lastCount : Option Byte
  failures : Nat
  readingTime : Option Nat
  staleTime : Nat
  pollTimer : Nat
  lastFailure : Option ProbeFailure
  late : Nat
  staleReported : Bool
  deriving DecidableEq, Repr

/-- Where a bus stands in the poll of its head (R79, R80, R82). -/
inductive BusPhase where
  | idle
  /-- the head waits for its group's ready point (R87) -/
  | awaitGroup
  /-- an attempt is due to begin -/
  | start
  /-- the attempt waits for the lines; milliseconds they have been held (R80 step 1) -/
  | awaitFree (ms : Nat)
  /-- milliseconds left of the conversion time (R80 step 3) -/
  | converting (ms : Nat)
  /-- the probe has acknowledged its read address; six bytes are coming (R80 step 4) -/
  | reading
  /-- milliseconds left of the retry gap (R82) -/
  | retryGap (ms : Nat)
  deriving DecidableEq, Repr

/-- The poll a bus is serving: what it needs of the probe's configuration as the poll began, whether this is the
retry, and whether its outcome is to be discarded (R77, R79). -/
structure Poll where
  probe : Fin 32
  address : Nat
  conversion : Nat
  group : Option (Fin 4)
  second : Bool
  discarded : Bool
  deriving DecidableEq, Repr

/-- A probe bus (R73). `sent` is the model's record of the bytes the PRC put on the bus in the present attempt and
`pulses` of the clock pulses of its last line recovery. -/
structure ProbeBus where
  fast : Bool
  attemptFast : Bool
  queue : List (Fin 32)
  phase : BusPhase
  poll : Option Poll
  sent : List Byte
  pulses : Nat
  deriving DecidableEq, Repr

/-- A power group (R86); `ready` is the milliseconds left to its ready point, 0 while its output is OFF (DESIGN CHOICE,
log 91). -/
structure PowerGroup where
  cycled : Bool
  lead : Nat
  on : Bool
  ready : Nat
  deriving DecidableEq, Repr

/-- Probe Controller. -/
structure Prc where
  probes : Vector Probe 32
  busA : ProbeBus
  busB : ProbeBus
  groups : Vector PowerGroup 4
  deriving DecidableEq, Repr

/-! ## Doors and outputs -/

/-- A door line (R89); `high` is its input pin and `sample` the milliseconds left to its restore sample (R95). -/
structure DoorLine where
  zone : Option (Fin 64)
  openLow : Bool
  filterTime : Nat
  openLimit : Nat
  filteredOpen : Bool
  timer : Option Nat
  pendingOpen : Bool
  high : Bool
  sample : Option Nat
  deriving DecidableEq, Repr

/-- The DOU's door record of a zone (R89). -/
structure DoorRecord where
  isOpen : Bool
  since : Option Nat
  ajar : Bool
  deriving DecidableEq, Repr

inductive Override where
  | auto
  | forceOn
  | forceOff
  deriving DecidableEq, Repr

/-- A line-hold output (R96). -/
structure LineHold where
  override : Override
  zone : Option (Fin 64)
  asserted : Bool
  deriving DecidableEq, Repr

inductive PatternName where
  | calm
  | warn
  | hold
  deriving DecidableEq, Repr

/-- A pattern: its length and 16 steps, bit k ON for step k (R98, 11.5). -/
structure Pattern where
  length : Nat
  steps : BitVec 16
  deriving DecidableEq, Repr

structure Lamp where
  zone : Option (Fin 64)
  shown : Option PatternName
  position : Nat
  timer : Option Nat
  deriving DecidableEq, Repr

/-- Door and Output Unit. -/
structure Dou where
  lines : Vector DoorLine 16
  doors : Vector DoorRecord 64
  holds : Vector LineHold 8
  lamps : Vector Lamp 8
  calm : Pattern
  warn : Pattern
  hold : Pattern
  stepPeriod : Nat
  deriving DecidableEq, Repr

/-! ## Deadlines -/

inductive DueKind where
  | warnDue
  | expireDue
  | bakeDue
  deriving DecidableEq, Repr

/-- An entry of the deadline list (R129). -/
structure Due where
  due : Nat
  slot : Fin 2048
  kind : DueKind
  deriving DecidableEq, Repr

/-- A firing pass (R131): its time, the due and slot it has come to, and the slots placed or moved since it began. -/
structure Pass where
  time : Nat
  reached : Option (Nat × Nat)
  moved : List (Fin 2048)
  deriving DecidableEq, Repr

/-- Deadline Unit, with the alert logic's counts (R138). -/
structure Dlu where
  entries : List Due
  pass : Option Pass
  pendingPass : Option Nat
  warnCount : Nat
  expiredCount : Nat
  quarantinedCount : Nat
  deriving DecidableEq, Repr

/-! ## Dockets -/

/-- The result codes of a docket (R150, 11.4). -/
inductive ResultCode where
  | ok
  | badKind
  | badArg
  | unknownId
  | duplicateId
  | duplicate
  | tableFull
  | wrongState
  | badClass
  | badZone
  | classInUse
  | zoneInUse
  | notNow
  | busError
  | partialDone
  deriving DecidableEq, Repr

/-- What a docket is answered with (R145), less NOT_DURABLE, which follows from the journal (R149). -/
structure Answer where
  result : ResultCode
  first : Nat
  second : Nat
  value : Nat
  deriving DecidableEq, Repr

structure EnrollArgs where
  id : ContainerId
  cls : Nat
  zone : Nat
  custody : Nat
  minutes : Nat
  deriving DecidableEq, Repr

structure SplitArgs where
  parent : ContainerId
  count : Nat
  retireParent : Bool
  children : List ContainerId
  deriving DecidableEq, Repr

structure ReleaseArgs where
  id : ContainerId
  resume : Nat
  deriving DecidableEq, Repr

structure QueryArgs where
  id : ContainerId
  reply : HostAddr
  deriving DecidableEq, Repr

structure MoveListArgs where
  addr : HostAddr
  count : Nat
  deriving DecidableEq, Repr

structure ClassArgs where
  cls : Nat
  defined : Nat
  allowance : Nat
  warnMargin : Nat
  ceiling : Nat
  maxBakes : Nat
  bakeTemp : Nat
  bakeMax : Nat
  bakeDuration : Nat
  deriving DecidableEq, Repr

structure EngineArgs where
  mask : BitVec 8
  ceiling : Nat
  outage : Nat
  backdate : Nat
  repeatWindow : Nat
  tempHyst : Nat
  rhHyst : Nat
  deriving DecidableEq, Repr

structure ZoneArgs where
  zone : Nat
  kind : Nat
  probe : Nat
  reference : Nat
  lineOutput : Nat
  creditRate : Nat
  dryThreshold : Nat
  fixedTemp : Int
  fixedRh : Nat
  deriving DecidableEq, Repr

structure ProbeArgs where
  probe : Nat
  enable : Nat
  bus : Nat
  address : Nat
  group : Nat
  interval : Nat
  conversion : Nat
  deriving DecidableEq, Repr

structure GroupArgs where
  mask : BitVec 8
  modes : Vector Nat 4
  leads : Vector Nat 4
  speedA : Nat
  speedB : Nat
  deriving DecidableEq, Repr

structure QueryProbeArgs where
  probe : Nat
  clearLate : Bool
  reply : HostAddr
  deriving DecidableEq, Repr

structure DoorArgs where
  line : Nat
  zone : Nat
  polarity : Nat
  filterTime : Nat
  openLimit : Nat
  deriving DecidableEq, Repr

structure OutputArgs where
  mask : BitVec 32
  overrides : Vector Nat 8
  lampZones : Vector Nat 8
  stepPeriod : Nat
  calm : Pattern
  warn : Pattern
  hold : Pattern
  deriving DecidableEq, Repr

/-- A docket's request, as read from its 64 bytes by 11.5. -/
inductive Request where
  | enroll (a : EnrollArgs)
  | split (a : SplitArgs)
  | retire (id : ContainerId)
  | quarantine (id : ContainerId)
  | release (a : ReleaseArgs)
  | query (a : QueryArgs)
  | moveList (a : MoveListArgs)
  | setClass (a : ClassArgs)
  | setEngine (a : EngineArgs)
  | setZone (a : ZoneArgs)
  | setConditions (block : HostAddr)
  | setProbe (a : ProbeArgs)
  | setGroup (a : GroupArgs)
  | queryProbe (a : QueryProbeArgs)
  | setDoor (a : DoorArgs)
  | setOutput (a : OutputArgs)
  | setTime (t : Nat)
  | format
  /-- a kind code outside the table (R147 step 1) -/
  | badKind
  deriving DecidableEq, Repr

/-- How far the docket in hand has come: handed to its owner, being worked on over several commands, or finished and
waiting for its commits. -/
inductive DocketStage where
  | handed
  | working
  | finished (a : Answer)
  deriving DecidableEq, Repr

/-- The docket in hand (R147): the EXI's copy of it, whether it was given up at a bus reset (R157), the zones whose
waiting configuration trigger holds its answer (R67), whether its answer waits for RUNNING (R172), and whether it had
finished with every entry of it committed when the journal became FAILED, so that NOT_DURABLE stays clear (R149). -/
structure InHand where
  slot : Nat
  notify : Bool
  request : Request
  stage : DocketStage
  givenUp : Bool
  triggers : List (Fin 64)
  awaitRunning : Bool
  durable : Bool
  deriving DecidableEq, Repr

/-! ## Exchange Interface -/

inductive IntakeState where
  | off
  | on
  | accessFault
  deriving DecidableEq, Repr

/-- The interrupt causes; their bits are 0 to 3 in this order (R155, 11.2). -/
inductive IrqCause where
  | docket
  | alert
  | engine
  | access
  deriving DecidableEq, Repr

/-- Exchange Interface. `rise` is set while a handed rise or gain waits for its group (R152), `faultAfter` while an
access fault waits for the docket in hand (R156), `messages` is the model's record of interrupt messages sent. -/
structure Exi where
  exbaseL : Word32
  exbaseH : Word32
  docketCode : BitVec 3
  periodCode : BitVec 8
  cause : BitVec 4
  mask : BitVec 4
  softResetBit : Bool
  configError : Bool
  intake : IntakeState
  turnOff : Bool
  faultAfter : Bool
  sweeping : Bool
  cursor : Nat
  extraPass : Bool
  sweepTimer : Option Nat
  inHand : Option InHand
  generation : Word32
  headerMark : Bool
  zoneMarks : List (Fin 64)
  slotMarks : List (Fin 2048)
  rise : Bool
  timeWrite : Option Nat
  messages : List IrqCause
  deriving DecidableEq, Repr

/-! ## Journal Controller -/

inductive EngineState where
  | restoring
  | blank
  | awaitTime
  | running
  deriving DecidableEq, Repr

inductive JournalState where
  | ok
  | resync
  | failed
  deriving DecidableEq, Repr

/-- The setting parts of the journal (R162). -/
inductive SettingPart where
  | derating
  | engine
  | probe (n : Fin 32)
  | groups
  | door (n : Fin 16)
  | outputs
  deriving DecidableEq, Repr

/-- The objects the newest-entry record names (R160). -/
inductive JournalObject where
  | slot (n : Fin 2048)
  | zone (n : Fin 64)
  | cls (n : Fin 16)
  | part (p : SettingPart)
  deriving DecidableEq, Repr

/-- The record a container image carries (R41). -/
structure ContainerImage where
  slot : Fin 2048
  id : ContainerId
  cls : Fin 16
  custody : Custody
  zone : Fin 64
  exposure : Nat
  settled : Nat
  zoneEntry : Nat
  lastMoveZone : Option (Fin 64)
  warned : Bool
  bakedThisStay : Bool
  bakeCount : Nat
  quarantineCause : Option QuarantineCause
  parent : Option ContainerId
  enrolled : Nat
  deriving DecidableEq, Repr

/-- What a ZONE_IMAGE carries beside the zone number (R69); an UNUSED zone has no condition time. -/
structure ZoneImage where
  config : ZoneConfig
  condition : Option Condition
  conditionTime : Option Nat
  held : Option Reading
  bands : Option (Fin 6 × Fin 8)
  walked : Option (Fin 6 × Fin 8)
  doorOpen : Bool
  deriving DecidableEq, Repr

/-- What a ZONE_CONDITION carries beside the zone number (R69). -/
structure ZoneConditionImage where
  time : Nat
  condition : Option Condition
  held : Option Reading
  bands : Option (Fin 6 × Fin 8)
  walked : Option (Fin 6 × Fin 8)
  deriving DecidableEq, Repr

/-- The seven fields of a class image (11.9). -/
structure ClassImage where
  allowance : Nat
  warnMargin : Nat
  ceiling : Nat
  maxBakes : Nat
  bakeTemp : Nat
  bakeMax : Nat
  bakeDuration : Nat
  deriving DecidableEq, Repr

/-- The groups-and-speeds part (11.9). -/
structure GroupsImage where
  modes : Vector Bool 4
  leads : Vector Nat 4
  fastA : Bool
  fastB : Bool
  deriving DecidableEq, Repr

structure DoorImage where
  zone : Option (Fin 64)
  openLow : Bool
  filterTime : Nat
  openLimit : Nat
  deriving DecidableEq, Repr

structure OutputsImage where
  overrides : Vector Override 8
  lampZones : Vector (Option (Fin 64)) 8
  stepPeriod : Nat
  calm : Pattern
  warn : Pattern
  hold : Pattern
  deriving DecidableEq, Repr

/-- The payload of a journal entry (R162, 11.9). The derating image is carried in three entries. -/
inductive Payload where
  | sectorHead (serial firstSeq : Nat)
  | timeMark (retiring : Option Nat)
  | containerImage (i : ContainerImage)
  | retireEntry (slot : Fin 2048) (id : ContainerId)
  | zoneImage (zone : Fin 64) (i : ZoneImage)
  | zoneCondition (zone : Fin 64) (i : ZoneConditionImage)
  | classImage (cls : Fin 16) (i : Option ClassImage)
  /-- `upper`: the cells of t-bands 3..5, part number 1 -/
  | cellsImage (upper : Bool) (cells : Vector Cell 24)
  | edgesImage (temp : Vector Int 5) (rh : Vector Nat 7)
  | engineImage (s : Settings)
  | probeImage (n : Fin 32) (c : Option ProbeConfig)
  | groupsImage (g : GroupsImage)
  | doorImage (n : Fin 16) (d : DoorImage)
  | outputsImage (o : OutputsImage)
  | dropMark (time : Nat)
  | resyncEnd
  | formatEntry (serial : Nat)
  deriving DecidableEq, Repr

/-- Who caused an entry (R163). -/
inductive StagedBy where
  | docket
  | internal
  | resync
  | compaction
  deriving DecidableEq, Repr

/-- An entry in the staging queue; its entry time is the engine second of staging (R162). -/
structure Staged where
  payload : Payload
  time : Nat
  owner : StagedBy
  deriving DecidableEq, Repr

/-- An entry offered but not yet staged. An image is built when it is staged (R41), but for a ZONE_IMAGE, which carries
the zone as its own evaluation left it (R51). -/
inductive Offer where
  | image (slot : Fin 2048)
  | retire (slot : Fin 2048) (id : ContainerId)
  | zone (n : Fin 64) (i : ZoneImage)
  | cls (n : Fin 16)
  | part (p : SettingPart)
  | timeMark
  deriving DecidableEq, Repr

/-- What a page program writes (R160, R161, R173): the 63 bytes of an entry or its commit mark. -/
inductive ProgramStep where
  | entryBody
  | entryMark
  | headBody
  | headMark
  | formatBody
  | formatMark
  deriving DecidableEq, Repr

/-- Why a sector is erased (R160, R167, R173). -/
inductive ErasePurpose where
  | opening (sector : Nat)
  | compaction (sector : Nat)
  | format (sector : Nat)
  deriving DecidableEq, Repr

/-- The operation the flash port holds (R158). -/
inductive FlashJob where
  | program (step : ProgramStep)
  | erase (purpose : ErasePurpose)
  deriving DecidableEq, Repr

/-- The port: the running job with its milliseconds, whether it has failed on its timer and is being waited out
(R159), and an erase suspended beneath it. -/
structure FlashPort where
  job : Option FlashJob
  /-- the engine second at which the job began -/
  since : Nat
  elapsed : Nat
  timedOut : Bool
  suspended : Option ErasePurpose
  suspendedMs : Nat
  deriving DecidableEq, Repr

/-- The stage of a compaction (R167). -/
inductive Compaction where
  | idle
  /-- step 1: the objects of the tail sector not yet imaged, and whether its DROP_MARK is still to be staged again -/
  | imaging (todo : List JournalObject) (mark : Option Nat)
  /-- step 3: the TIME_MARK naming the tail has been staged -/
  | marked
  /-- step 4: the tail is being erased -/
  | erasing
  deriving DecidableEq, Repr

/-- Staging closed by a power-fail warning or a soft reset (R174, R175): whether the part then acts as at main
power-on, and whether the last TIME_MARK has been staged. -/
structure Closing where
  recover : Bool
  marked : Bool
  deriving DecidableEq, Repr

/-- R173: step 1 before the queue has been committed, with staging still open; staging stopped, and an erase of a
compaction waited out; step 3; step 4. -/
inductive FormatStage where
  | drain
  | stopped
  | erasing
  | entry
  deriving DecidableEq, Repr

/-- A FORMAT in progress (R173). -/
structure FormatRecord where
  stage : FormatStage
  serial : Nat
  time : Nat
  deriving DecidableEq, Repr

/-- What replay leaves for reconciliation (R170, R171). -/
structure RestoreRecord where
  tLast : Nat
  /-- the drop time of a last DROP_MARK that no RESYNC_END follows -/
  openDrop : Option Nat
  /-- slots with an image applied after the last DROP_MARK -/
  imagedAfter : List (Fin 2048)
  reconciled : Bool
  deriving DecidableEq, Repr

/-- Journal Controller. -/
structure Jnc where
  engine : EngineState
  journal : JournalState
  port : FlashPort
  failures : Nat
  queue : List Staged
  waiting : List Offer
  headSector : Nat
  headPos : Nat
  sectorOpen : Bool
  sectorCounted : Bool
  tail : Nat
  nextSeq : Word32
  freeCount : Nat
  serial : Word32
  /-- journal sectors not known to be erased (R160) -/
  notErased : List Nat
  newest : List (JournalObject × Nat)
  dropTime : Option Nat
  markStaged : Bool
  /-- the sector holding the DROP_MARK of the resync not yet ended, and its drop time (R167 step 1) -/
  dropMarkAt : Option (Nat × Nat)
  endStaged : Bool
  compaction : Compaction
  sinceMark : Nat
  closing : Option Closing
  format : Option FormatRecord
  /-- a soft reset that began during a FORMAT waits until it has ended (R175) -/
  resetWaits : Bool
  restore : Option RestoreRecord
  outage : Nat
  deriving DecidableEq, Repr

/-- The serial flash: its contents (blank 0xFF) and the first byte of its identification (R158, R160). -/
structure Flash where
  cells : Memory
  idByte : Byte
  deriving DecidableEq, Repr

/-! ## The part and the state -/

structure Part where
  tbu : Tbu
  jnc : Jnc
  exi : Exi
  ctu : Ctu
  znu : Znu
  prc : Prc
  dou : Dou
  dlu : Dlu
  flash : Flash
  /-- host memory as the part finds it (blank 0x00) -/
  host : Memory
  deriving DecidableEq, Repr

/-- The part and the queue of commands waiting, first in first out. -/
structure State where
  part : Part
  pending : List Instr
  deriving DecidableEq, Repr

/-! ## Reset values -/

def Settings.reset : Settings :=
  { ceiling := 1023, outage := 512, backdate := 900, repeatWindow := 5, tempHyst := 5, rhHyst := 10 }

def ZoneConfig.unused : ZoneConfig :=
  { kind := .unused, probe := none, fixed := none, reference := none, dryThreshold := 0, creditRate := 0
    lineOutput := none }

def Zone.unused : Zone :=
  { config := .unused, held := none, bands := none, basis := false, walked := none, condition := none
    conditionTime := 0, doorOpen := false, ajar := false, stale := false, ceilingUsed := false, members := []
    blocking := 0, warnedCount := 0, dirty := false, change := none, waitReading := none, waitDoor := none
    waitConfig := none }

def Probe.off : Probe :=
  { config := none, state := .off, held := none, lastCount := none, failures := 0, readingTime := none
    staleTime := 0, pollTimer := 0, lastFailure := none, late := 0, staleReported := true }

def ProbeBus.reset : ProbeBus :=
  { fast := false, attemptFast := false, queue := [], phase := .idle, poll := none, sent := [], pulses := 0 }

/-- R86. A group that has not been switched on has no ready point; 0 ms stand in its place (DESIGN CHOICE, log 91). -/
def PowerGroup.reset : PowerGroup := { cycled := false, lead := 0, on := false, ready := 0 }

def DoorLine.reset : DoorLine :=
  { zone := none, openLow := false, filterTime := 50, openLimit := 0, filteredOpen := false, timer := none
    pendingOpen := false, high := false, sample := none }

def DoorRecord.reset : DoorRecord := { isOpen := false, since := none, ajar := false }

def LineHold.reset : LineHold := { override := .auto, zone := none, asserted := false }

def Lamp.reset : Lamp := { zone := none, shown := none, position := 0, timer := none }

def Ctu.reset : Ctu :=
  { slots := Vector.replicate 2048 none, classes := Vector.replicate 16 { defn := none, useCount := 0 }
    list := none }

def Znu.reset : Znu :=
  { zones := Vector.replicate 64 .unused, cells := Vector.replicate 48 { mult := 256, enabled := true }
    tempEdges := #v[150, 200, 250, 300, 350], rhEdges := #v[100, 200, 300, 400, 500, 600, 700]
    settings := .reset }

def Prc.reset : Prc :=
  { probes := Vector.replicate 32 .off, busA := .reset, busB := .reset, groups := Vector.replicate 4 .reset }

def Dou.reset : Dou :=
  { lines := Vector.replicate 16 .reset, doors := Vector.replicate 64 .reset, holds := Vector.replicate 8 .reset
    lamps := Vector.replicate 8 .reset, calm := { length := 2, steps := 3#16 }
    warn := { length := 4, steps := 3#16 }, hold := { length := 2, steps := 1#16 }, stepPeriod := 250 }

def Dlu.reset : Dlu :=
  { entries := [], pass := none, pendingPass := none, warnCount := 0, expiredCount := 0, quarantinedCount := 0 }

def Exi.reset : Exi :=
  { exbaseL := 0, exbaseH := 0, docketCode := 0, periodCode := 10, cause := 0, mask := 0, softResetBit := false
    configError := false, intake := .off, turnOff := false, faultAfter := false, sweeping := false, cursor := 0
    extraPass := false, sweepTimer := none, inHand := none, generation := 0, headerMark := false, zoneMarks := []
    slotMarks := [], rise := false, timeWrite := none, messages := [] }

def FlashPort.reset : FlashPort :=
  { job := none, since := 0, elapsed := 0, timedOut := false, suspended := none, suspendedMs := 0 }

def Jnc.reset : Jnc :=
  { engine := .restoring, journal := .ok, port := .reset, failures := 0, queue := [], waiting := []
    headSector := 1, headPos := 0, sectorOpen := false, sectorCounted := true, tail := 1, nextSeq := 1
    freeCount := Config.freeAfterFormat, serial := 0, notErased := List.range' 1 1023, newest := []
    dropTime := none, markStaged := false, dropMarkAt := none, endStaged := false, compaction := .idle
    sinceMark := 0, closing := none, format := none, resetWaits := false, restore := none, outage := 0 }

def Tbu.reset : Tbu :=
  { mainPower := true, backupSupply := true, counter := 0, timeValid := false, powerFail := false }

/-- The part right after its first main power-on, its flash new (12.1). -/
def Part.reset : Part :=
  { tbu := .reset, jnc := .reset, exi := .reset, ctu := .reset, znu := .reset, prc := .reset, dou := .reset
    dlu := .reset, flash := { cells := [], idByte := 0x20#8 }, host := [] }

/-- The machine right after reset: main power is on, the engine is RESTORING, and no command waits. -/
def State.reset : State := { part := .reset, pending := [] }

end Sys2Proof.Machine
end

