-- ==== Sys2Proof/Machine/Ops.lean ====
section
/-! DEFINITION. The named operations over bytes, memory, the state vectors, the board posts and interrupt causes,
the deadline list and the docket in hand. -/

namespace Sys2Proof.Machine

/-! ## Bytes (R176: least significant byte first) -/

/-- `n` as `k` bytes, least significant first. -/
def leBytes : Nat → Nat → List Byte
  | 0, _ => []
  | k + 1, n => BitVec.ofNat 8 n :: leBytes k (n / 256)

/-- The unsigned value of bytes, least significant first. -/
def leNat : List Byte → Nat
  | [] => 0
  | b :: bs => b.toNat + 256 * leNat bs

/-- The 16-bit two's complement code of a temperature (R176). -/
def signed16 (i : Int) : Nat := (i % 65536).toNat

/-- The temperature a 16-bit code stands for (R176). -/
def ofSigned16 (n : Nat) : Int := if n < 32768 then (n : Int) else (n : Int) - 65536

/-- The field of `len` bytes at offset `off` of a record. -/
def fieldAt (bs : List Byte) (off len : Nat) : Nat := leNat ((bs.drop off).take len)

/-- A record padded with spare bytes, written 0, to `n` bytes (R176). -/
def padTo (n : Nat) (bs : List Byte) : List Byte := bs ++ List.replicate (n - bs.length) 0

/-- The number of a numbered thing, when it lies in its range. -/
def finOf? (n k : Nat) : Option (Fin n) := if h : k < n then some ⟨k, h⟩ else none

/-! ## Memory -/

/-- One byte; an address no cell lists reads as the blank. -/
def Memory.read (blank : Byte) (m : Memory) (a : Nat) : Byte :=
  match m.find? (fun c => c.1 == a) with
  | some c => c.2
  | none => blank

/-- `n` bytes from address `a`. -/
def Memory.readBlock (blank : Byte) (m : Memory) (a : Nat) : Nat → List Byte
  | 0 => []
  | n + 1 => m.read blank a :: Memory.readBlock blank m (a + 1) n

/-- The cells that a run of bytes from `a` lists. -/
def cellsFrom (blank : Byte) : Nat → List Byte → Memory
  | _, [] => []
  | a, b :: bs => if b = blank then cellsFrom blank (a + 1) bs else (a, b) :: cellsFrom blank (a + 1) bs

/-- Store a run of bytes from `a`. -/
def Memory.write (blank : Byte) (m : Memory) (a : Nat) (bytes : List Byte) : Memory :=
  m.filter (fun c => decide (c.1 < a)) ++ cellsFrom blank a bytes ++
    m.filter (fun c => decide (a + bytes.length ≤ c.1))

/-- Return `n` bytes from `a` to the blank. -/
def Memory.clear (m : Memory) (a n : Nat) : Memory :=
  m.filter (fun c => decide (c.1 < a) || decide (a + n ≤ c.1))

/-- Addresses strictly rising, and no cell equal to the blank. -/
def Memory.wf (blank : Byte) (m : Memory) : Bool :=
  decide (m.Pairwise (fun a b => a.1 < b.1)) && m.all (fun c => c.2 != blank)

/-- The blank of host memory (log 5). -/
def hostBlank : Byte := 0x00#8

/-- The blank of the flash: an erased byte is all ones (R158). -/
def flashBlank : Byte := 0xFF#8

def Part.hostRead (p : Part) (a : HostAddr) (n : Nat) : List Byte := Memory.readBlock hostBlank p.host a.toNat n

def Part.hostWrite (a : HostAddr) (bytes : List Byte) (p : Part) : Part :=
  { p with host := p.host.write hostBlank a.toNat bytes }

/-- The host's own stores reach its memory before the part reads it. -/
def Part.hostStores (stores : Stores) (p : Part) : Part :=
  stores.foldl (fun p w => p.hostWrite w.1 [w.2]) p

/-- The exchange area base (R141). -/
def Part.exbase (p : Part) : HostAddr := p.exi.exbaseH ++ p.exi.exbaseL

/-- The address of an offset of the exchange area (R144). -/
def Part.areaAddr (p : Part) (off : Nat) : HostAddr := p.exbase + BitVec.ofNat 64 off

/-! ## Numbered records -/

/-- The first number at which `f` holds. -/
def firstFin (n : Nat) (f : Fin n → Bool) : Option (Fin n) := (List.finRange n).find? f

/-- The numbers at which `f` holds, ascending. -/
def allFin (n : Nat) (f : Fin n → Bool) : List (Fin n) := (List.finRange n).filter f

/-- How many numbers `f` holds at. -/
def countFin (n : Nat) (f : Fin n → Bool) : Nat := (allFin n f).length

/-- Insert a number into an ascending list of numbers that holds each at most once. -/
def insertFin {n : Nat} (x : Fin n) : List (Fin n) → List (Fin n)
  | [] => [x]
  | y :: ys => if x < y then x :: y :: ys else if x = y then y :: ys else y :: insertFin x ys

def Part.slot (p : Part) (i : Fin 2048) : Option Container := p.ctu.slots[i]

def Part.setSlot (i : Fin 2048) (c : Option Container) (p : Part) : Part :=
  { p with ctu := { p.ctu with slots := p.ctu.slots.set i c } }

def Part.cls (p : Part) (n : Fin 16) : ClassRecord := p.ctu.classes[n]

def Part.setCls (n : Fin 16) (c : ClassRecord) (p : Part) : Part :=
  { p with ctu := { p.ctu with classes := p.ctu.classes.set n c } }

def Part.zone (p : Part) (z : Fin 64) : Zone := p.znu.zones[z]

/-- Write a zone record without a board post. -/
def Part.putZone (z : Fin 64) (r : Zone) (p : Part) : Part :=
  { p with znu := { p.znu with zones := p.znu.zones.set z r } }

def Part.probe (p : Part) (n : Fin 32) : Probe := p.prc.probes[n]

def Part.setProbe (n : Fin 32) (r : Probe) (p : Part) : Part :=
  { p with prc := { p.prc with probes := p.prc.probes.set n r } }

def Part.group (p : Part) (n : Fin 4) : PowerGroup := p.prc.groups[n]

def Part.setGroup (n : Fin 4) (r : PowerGroup) (p : Part) : Part :=
  { p with prc := { p.prc with groups := p.prc.groups.set n r } }

def Part.bus (p : Part) : Bus → ProbeBus
  | .busA => p.prc.busA
  | .busB => p.prc.busB

def Part.setBus (b : Bus) (r : ProbeBus) (p : Part) : Part :=
  match b with
  | .busA => { p with prc := { p.prc with busA := r } }
  | .busB => { p with prc := { p.prc with busB := r } }

def Part.line (p : Part) (n : Fin 16) : DoorLine := p.dou.lines[n]

def Part.setLine (n : Fin 16) (r : DoorLine) (p : Part) : Part :=
  { p with dou := { p.dou with lines := p.dou.lines.set n r } }

def Part.door (p : Part) (z : Fin 64) : DoorRecord := p.dou.doors[z]

def Part.setDoor (z : Fin 64) (r : DoorRecord) (p : Part) : Part :=
  { p with dou := { p.dou with doors := p.dou.doors.set z r } }

def Part.lineHold (p : Part) (n : Fin 8) : LineHold := p.dou.holds[n]

def Part.setLineHold (n : Fin 8) (r : LineHold) (p : Part) : Part :=
  { p with dou := { p.dou with holds := p.dou.holds.set n r } }

def Part.lamp (p : Part) (n : Fin 8) : Lamp := p.dou.lamps[n]

def Part.setLamp (n : Fin 8) (r : Lamp) (p : Part) : Part :=
  { p with dou := { p.dou with lamps := p.dou.lamps.set n r } }

/-- The engine time (R168). -/
def Part.now (p : Part) : Nat := p.tbu.counter

/-- The ID index: the slot holding an ID; an ID of zero is never entered (R24). -/
def Part.findId (p : Part) (id : ContainerId) : Option (Fin 2048) :=
  if id = 0 then none
  else firstFin 2048 fun i => match p.slot i with
    | some c => c.id == id
    | none => false

/-- The FREE slots, ascending (R25). -/
def Part.freeSlots (p : Part) : List (Fin 2048) := allFin 2048 fun i => (p.slot i).isNone

/-- The LIVE slots, ascending. -/
def Part.liveSlots (p : Part) : List (Fin 2048) := allFin 2048 fun i => (p.slot i).isSome

/-- The definition of a container's class; a class that is undefined reads as all zero, which R3 and R27 rule out
for a live container. -/
def Part.classDef (p : Part) (n : Fin 16) : ClassDef :=
  (p.cls n).defn.getD
    { allowance := 0, warnMargin := 0, ceiling := 0, bakeTemp := 0, bakeMax := 0, bakeDuration := 0, maxBakes := 0
      warnTicks := 0, creditLimit := 0 }

/-- Limit ticks (R2). -/
def ClassDef.limit (k : ClassDef) : Nat := k.allowance * Config.ticksPerMinute

/-- A command acts on the part while main power is present; without it nothing in the part works (R168, R174). The
queue of commands is not the part's. -/
def State.powered (f : Part → Part) (s : State) : State :=
  if s.part.tbu.mainPower then { s with part := f s.part } else s

/-! ## Board posts and interrupt causes (R152, R155) -/

def Part.postHeader (p : Part) : Part := { p with exi := { p.exi with headerMark := true } }

def Part.postZone (z : Fin 64) (p : Part) : Part :=
  { p with exi := { p.exi with zoneMarks := insertFin z p.exi.zoneMarks } }

def Part.postSlot (i : Fin 2048) (p : Part) : Part :=
  { p with exi := { p.exi with slotMarks := insertFin i p.exi.slotMarks } }

/-- Every mark set (R154). -/
def Part.postAll (p : Part) : Part :=
  { p with exi := { p.exi with headerMark := true, zoneMarks := List.finRange 64, slotMarks := List.finRange 2048 } }

/-- The bit of a cause in INTCAUSE and INTMASK (11.2). -/
def IrqCause.bit : IrqCause → Nat
  | .docket => 0
  | .alert => 1
  | .engine => 2
  | .access => 3

/-- Set a cause; a message is sent when it thereby becomes set and enabled (R155). -/
def Part.raise (c : IrqCause) (p : Part) : Part :=
  if p.exi.cause.getLsbD c.bit then p
  else
    let exi := { p.exi with cause := p.exi.cause ||| BitVec.twoPow 4 c.bit }
    { p with exi := if p.exi.mask.getLsbD c.bit then { exi with messages := exi.messages ++ [c] } else exi }

/-- A level rise, or a zone's gain of DOOR_AJAR or PROBE_STALE, handed to the EXI with its post (R137, R154).
One that sets ALERT at the handover is not also kept for a later group (DESIGN CHOICE, log 93). -/
def Part.handRise (p : Part) : Part :=
  if p.exi.intake = .on then { p with exi := { p.exi with rise := true } } else p.raise .alert

/-- A change of the engine state: shown in the header, and the ENGINE cause (R169). -/
def Part.setEngine (e : EngineState) (p : Part) : Part :=
  if p.jnc.engine = e then p
  else ({ p with jnc := { p.jnc with engine := e } } : Part).postHeader.raise .engine

/-- Intake enters ACCESS_FAULT; the sweep ends (R146, R156). An engine time write that still waits is dropped (DESIGN
CHOICE, log 76), and so is a sweep asked for in RESTORING (DESIGN CHOICE, log 99). -/
def Part.enterAccessFault (p : Part) : Part :=
  { p with exi := { p.exi with intake := .accessFault, turnOff := false, faultAfter := false, sweeping := false
                               extraPass := false, sweepTimer := none, timeWrite := none } }

/-- A failed access: ACCESS at once; an intake that is ON becomes ACCESS_FAULT, but waits for a docket in hand
(R156). A further failure meanwhile sets ACCESS again if the host has cleared it (DESIGN CHOICE, log 77). -/
def Part.accessFailed (p : Part) : Part :=
  let p := p.raise .access
  if p.exi.intake = .on then
    match p.exi.inHand with
    | some _ => { p with exi := { p.exi with faultAfter := true } }
    | none => p.enterAccessFault
  else p

/-! ## The docket in hand (R147, R149) -/

/-- The request of the docket in hand, when it has been handed to its owner and is not yet performed. -/
def Part.handedRequest (p : Part) : Option Request :=
  match p.exi.inHand with
  | some d => if d.stage = .handed then some d.request else none
  | none => none

def Part.setInHand (f : Option InHand) (p : Part) : Part := { p with exi := { p.exi with inHand := f } }

/-- The owning block gives the EXI the docket's result, counts and value (R147 step 3). -/
def Part.finishDocket (a : Answer) (p : Part) : Part :=
  match p.exi.inHand with
  | some d => p.setInHand (some { d with stage := .finished a })
  | none => p

/-- The docket goes on over several commands (a movement list, a FORMAT). -/
def Part.workDocket (p : Part) : Part :=
  match p.exi.inHand with
  | some d => p.setInHand (some { d with stage := .working })
  | none => p

/-- A result with both counts and the value 0: as the docket's rule gives them, or, where it gives only the result, by
choice (DESIGN CHOICE, log 64). -/
def plainAnswer (r : ResultCode) : Answer := { result := r, first := 0, second := 0, value := 0 }

/-- A docket refused by a check: nothing else changes, and the counts and the value are 0 (log 64). -/
def Part.refuseDocket (r : ResultCode) (p : Part) : Part := p.finishDocket (plainAnswer r)

/-! ## The deadline list (R129, R130, R131) -/

/-- Whether entry `a` stands before `b`: by due, then by slot (R129). -/
def Due.before (a b : Due) : Bool := decide (a.due < b.due) || (a.due == b.due && decide (a.slot < b.slot))

def insertDue (e : Due) : List Due → List Due
  | [] => [e]
  | x :: xs => if e.before x then e :: x :: xs else x :: insertDue e xs

def removeDue (i : Fin 2048) (xs : List Due) : List Due := xs.filter fun e => e.slot != i

/-- The entry a pass takes next: the first one beyond the place it has come to, if that one is due at or before the
pass time and was not placed or moved during the pass; otherwise the pass has ended (R131). An entry placed or moved during
the pass to the place it has come to, or to one before it, is passed over: it neither is taken nor ends the pass (DESIGN
CHOICE, log 104). -/
def passNext (q : Pass) (xs : List Due) : Option Due :=
  match xs.find? (fun e => match q.reached with
      | some (d, i) => decide (d < e.due) || (d == e.due && decide (i < e.slot.val))
      | none => true) with
  | some e => if decide (e.due ≤ q.time) && !q.moved.contains e.slot then some e else none
  | none => none

/-- Drop a pass that has nothing left to take. -/
def Dlu.checkPass (d : Dlu) : Dlu :=
  match d.pass with
  | some q => if (passNext q d.entries).isSome then d else { d with pass := none }
  | none => d

/-- Note that a slot's entry was placed or moved while the pass runs. -/
def Dlu.noteMoved (i : Fin 2048) (d : Dlu) : Dlu :=
  match d.pass with
  | some q => { d with pass := some { q with moved := insertFin i q.moved } }
  | none => d

/-- R130: place. The same due and kind leave the entry where it stands. -/
def Dlu.place (i : Fin 2048) (due : Nat) (kind : DueKind) (d : Dlu) : Dlu :=
  let e : Due := { due := due, slot := i, kind := kind }
  if d.entries.contains e then d
  else (Dlu.noteMoved i { d with entries := insertDue e (removeDue i d.entries) }).checkPass

/-- R130: remove. -/
def Dlu.remove (i : Fin 2048) (d : Dlu) : Dlu :=
  if d.entries.any (fun e => e.slot == i) then Dlu.checkPass { d with entries := removeDue i d.entries } else d

/-- A pass begins at the tick's time, or at the pending pass time (R131). -/
def Dlu.startPass (t : Nat) (d : Dlu) : Dlu :=
  Dlu.checkPass { d with pass := some { time := t, reached := none, moved := [] } }

/-- The second tick's part in the DLU: a pass at `t`, or the pending time while one runs or still waits to start
(R131). -/
def Dlu.tick (t : Nat) (d : Dlu) : Dlu :=
  if d.pass.isSome || d.pendingPass.isSome then { d with pendingPass := some t } else d.startPass t

/-- The pass takes its next entry when it is of the kind named: the entry leaves the list (R132). -/
def Dlu.take (kind : DueKind) (d : Dlu) : Option (Due × Dlu) :=
  match d.pass with
  | some q => match passNext q d.entries with
    | some e =>
      if e.kind = kind then
        some (e, { d with entries := removeDue e.slot d.entries
                          pass := some { q with reached := some (e.due, e.slot.val) } })
      else none
    | none => none
  | none => none

def Part.onDlu (f : Dlu → Dlu) (p : Part) : Part := { p with dlu := f p.dlu }

end Sys2Proof.Machine
end

