-- ==== Sys2Proof/Machine/Flags.lean ====
section
/-! DEFINITION. What the part computes to show: percent used, alert levels, contributions, the codes and flag bytes
of section 11, and the values of the registers. -/

namespace Sys2Proof.Machine

/-- ⌊E × 100 / limit⌋ (R20). -/
def percentUsed (k : ClassDef) (e : Nat) : Nat := e * 100 / k.limit

/-- The alert level of a container (R136). -/
def Container.level (c : Container) : AlertLevel :=
  match c.custody with
  | .quarantined => .quarantined
  | .expired => .expired
  | .sealed | .opened | .baking => if c.warned then .warn else .none

/-- The level a slot shows; a FREE slot has NONE (R136). -/
def slotLevel : Option Container → AlertLevel
  | some c => c.level
  | none => .none

/-- The rank and the code of a level (R136, 11.3). -/
def AlertLevel.rank : AlertLevel → Nat
  | .none => 0
  | .warn => 1
  | .expired => 2
  | .quarantined => 3

/-- The blocking part of a container's contribution (R39). -/
def Container.blocks (c : Container) : Bool := c.custody == .expired || c.custody == .quarantined

/-- The warned part of a container's contribution (R39). -/
def Container.countsWarned (c : Container) : Bool := c.custody == .opened && c.warned

/-! ## Codes (11.2 to 11.9) -/

def Custody.code : Custody → Nat
  | .sealed => 0
  | .opened => 1
  | .baking => 2
  | .expired => 3
  | .quarantined => 4

def Mode.code : Mode → Nat
  | .hold => 0
  | .accrue _ => 1
  | .credit _ => 2
  | .bakeRun => 3
  | .bakePause => 4

/-- The held rate a report shows: m in ACCRUE, c in CREDIT, 0 otherwise (11.7). -/
def Mode.rate : Mode → Nat
  | .accrue m => m
  | .credit c => c
  | _ => 0

def causeCode : Option QuarantineCause → Nat
  | none => 0
  | some .host => 1
  | some .overheat => 2
  | some .bakeLimit => 3

def ZoneKind.code : ZoneKind → Nat
  | .unused => 0
  | .floor => 1
  | .line => 2
  | .dry => 3
  | .oven => 4

def conditionCode : Option Condition → Nat
  | none => 0
  | some (.exposing _) => 1
  | some (.drying _) => 2
  | some (.dryFailed _) => 3
  | some .ovenReady => 4
  | some .ovenPaused => 5

/-- The rate field of a zone: m, c or 0 (R68). -/
def conditionRate : Option Condition → Nat
  | some (.exposing m) => m
  | some (.drying c) => c
  | some (.dryFailed m) => m
  | _ => 0

def ProbeState.code : ProbeState → Nat
  | .off => 0
  | .fresh => 1
  | .doubtful => 2
  | .stale => 3

def failureCode : Option ProbeFailure → Nat
  | none => 0
  | some .noAckRequest => 1
  | some .noAckRead => 2
  | some .busHeld => 3
  | some .notReady => 4
  | some .sensorFault => 5
  | some .sameCount => 6

def busCode : Bus → Nat
  | .busA => 0
  | .busB => 1

def Override.code : Override → Nat
  | .auto => 0
  | .forceOn => 1
  | .forceOff => 2

def ResultCode.code : ResultCode → Nat
  | .ok => 0
  | .badKind => 1
  | .badArg => 2
  | .unknownId => 3
  | .duplicateId => 4
  | .duplicate => 5
  | .tableFull => 6
  | .wrongState => 7
  | .badClass => 8
  | .badZone => 9
  | .classInUse => 10
  | .zoneInUse => 11
  | .notNow => 12
  | .busError => 13
  | .partialDone => 14

def EngineState.code : EngineState → Nat
  | .restoring => 0
  | .blank => 1
  | .awaitTime => 2
  | .running => 3

def JournalState.code : JournalState → Nat
  | .ok => 0
  | .resync => 1
  | .failed => 2

def IntakeState.code : IntakeState → Nat
  | .off => 0
  | .on => 1
  | .accessFault => 2

/-- An optional number's byte: 0xFF when absent (R176). -/
def optCode {n : Nat} (o : Option (Fin n)) : Nat := match o with
  | some k => k.val
  | none => 255

/-- A time or due, 4,294,967,295 when absent (R176). -/
def timeCode (o : Option Nat) : Nat := o.getD Config.timeNone

/-- A temperature, −32,768 when absent (R176). -/
def tempCode (o : Option Reading) : Nat := signed16 (match o with
  | some r => r.temp
  | none => -32768)

/-- An RH, 65,535 when absent (R176). -/
def rhCode (o : Option Reading) : Nat := match o with
  | some r => r.rh
  | none => 65535

def bit (b : Bool) (k : Nat) : Nat := if b then 2 ^ k else 0

/-! ## Registers (R141, 11.2) -/

/-- The docket slots D of a docket count code; codes above 5 are refused when intake is turned on (R141). -/
def docketSlots (code : Nat) : Nat := 8 * 2 ^ code

def Part.docketCount (p : Part) : Nat := docketSlots p.exi.docketCode.toNat

/-- The sweep period in milliseconds (R141). -/
def Part.sweepPeriod (p : Part) : Nat := p.exi.periodCode.toNat * 10

/-- INTAKE as ENGCTL reads it (R142). -/
def Part.intakeBit (p : Part) : Bool := p.exi.intake == .on && !p.exi.turnOff

def Part.engstat (p : Part) : Word32 :=
  BitVec.ofNat 32 (p.jnc.engine.code + 4 * p.jnc.journal.code + 16 * p.exi.intake.code + bit p.tbu.timeValid 6 +
    bit p.exi.configError 7)

/-- A read of the register at a byte offset of the window; NUDGE and an offset that names no register read 0. -/
def Part.readRegister (p : Part) (offset : Nat) : Word32 :=
  match offset with
  | 0x00 => p.engstat
  | 0x04 => BitVec.ofNat 32 (bit p.intakeBit 0 + bit p.exi.softResetBit 1)
  | 0x08 => p.exi.exbaseL
  | 0x0C => p.exi.exbaseH
  | 0x10 => BitVec.ofNat 32 (p.exi.docketCode.toNat + 256 * p.exi.periodCode.toNat)
  | 0x18 => p.exi.cause.setWidth 32
  | 0x1C => p.exi.mask.setWidth 32
  | 0x20 => BitVec.ofNat 32 p.tbu.counter
  | _ => 0

/-! ## Zone, bus and output conditions used by several blocks -/

def ZoneKind.walks (k : ZoneKind) : Bool := k == .floor || k == .line

/-- A probe is in flight: a poll of it is under way at the head of its bus queue (R74, R79). -/
def Part.inFlight (p : Part) (n : Fin 32) : Bool :=
  [p.prc.busA, p.prc.busB].any fun b => match b.poll with
    | some q => q.probe == n && !q.discarded
    | none => false

def Part.queued (p : Part) (n : Fin 32) : Bool := p.prc.busA.queue.contains n || p.prc.busB.queue.contains n

/-- The zones that bind a probe (R85). -/
def Part.zonesOfProbe (p : Part) (n : Fin 32) : List (Fin 64) :=
  allFin 64 fun z => (p.zone z).config.probe == some n

/-- The DRY zones that name a zone as their reference (R63). -/
def Part.dryZonesOf (p : Part) (z : Fin 64) : List (Fin 64) :=
  allFin 64 fun y => (p.zone y).config.kind == .dry && (p.zone y).config.reference == some z

/-- Whether some line bound to a zone is open (R91). -/
def Part.anyLineOpen (p : Part) (z : Fin 64) : Bool :=
  (List.finRange 16).any fun l => (p.line l).zone == some z && (p.line l).filteredOpen

/-- OPENED_SINCE: some line bound to the zone has pending-open set (R92). -/
def Part.openedSince (p : Part) (z : Fin 64) : Bool :=
  (List.finRange 16).any fun l => (p.line l).zone == some z && (p.line l).pendingOpen

/-- The raw state of a line: its input level read through its polarity (R89). -/
def DoorLine.rawOpen (l : DoorLine) : Bool := l.high != l.openLow

/-- The drive of a line-hold output (R97). -/
def holdDrive (o : Override) (blocking : Option Nat) : Bool :=
  match o with
  | .forceOn => true
  | .forceOff => false
  | .auto => match blocking with
    | some n => decide (0 < n)
    | none => false

/-- The pattern a bound lamp shows (R99). -/
def lampPattern (blocking warned : Nat) : PatternName :=
  if 0 < blocking then .hold else if 0 < warned then .warn else .calm

def Dou.pattern (d : Dou) : PatternName → Pattern
  | .calm => d.calm
  | .warn => d.warn
  | .hold => d.hold

/-- The lamp output (R99): on while the step at its position is ON; an unbound lamp is off. -/
def Part.lampOn (p : Part) (n : Fin 8) : Bool :=
  match (p.lamp n).shown with
  | some q => (p.dou.pattern q).steps.getLsbD (p.lamp n).position
  | none => false

/-- The zone summary's flag byte. R92 has every zone summary carry OPENED_SINCE, and 11.3 shows an UNUSED zone with flags 0:
a zone made UNUSED under a bound line is shown with flags 0 (DESIGN CHOICE, log 97). -/
def Part.zoneFlags (p : Part) (z : Fin 64) : Nat :=
  let r := p.zone z
  if r.config.kind = .unused then 0
  else bit r.doorOpen 0 + bit (p.openedSince z) 1 + bit r.ajar 2 + bit r.stale 3 + bit r.ceilingUsed 4

/-- The band fields of the board: the walked cell for a zone that took one, else the zone's own bands (R68). -/
def Zone.shownBands (r : Zone) : Option (Fin 6 × Fin 8) :=
  match r.held with
  | none => none
  | some _ => match r.walked with
    | some c => some c
    | none => r.bands

/-- The zone fields the board shows, less OPENED_SINCE, which the DOU posts (R68). -/
structure ZoneShown where
  kind : ZoneKind
  condition : Option Condition
  bands : Option (Fin 6 × Fin 8)
  memberCount : Nat
  blocking : Nat
  held : Option Reading
  flags : List Bool
  deriving DecidableEq, Repr

def Zone.shown (r : Zone) : ZoneShown :=
  { kind := r.config.kind, condition := r.condition, bands := r.shownBands, memberCount := r.members.length
    blocking := r.blocking, held := r.held, flags := [r.doorOpen, r.ajar, r.stale, r.ceilingUsed] }

/-- Write a zone record, and post its summary when a shown field has changed (R68). -/
def Part.setZone (z : Fin 64) (r : Zone) (p : Part) : Part :=
  let q := p.putZone z r
  if (p.zone z).shown = r.shown then q else q.postZone z

end Sys2Proof.Machine
end

