-- ==== Sys2Proof/Machine/Operands.lean ====
section
/-! DEFINITION. How a docket, a movement entry and a cell table block are read (R145, R177, 11.4 to 11.8). -/

namespace Sys2Proof.Machine

/-- The owner byte: 4..255 are read as EMPTY (R145). Only POSTED (1) matters to a sweep. -/
def ownerPosted (bs : List Byte) : Bool := fieldAt bs 0 1 == 1

/-- NOTIFY, bit 0 of the request flags (11.4). -/
def requestNotify (bs : List Byte) : Bool := fieldAt bs 2 1 % 2 == 1

def idAt (bs : List Byte) (off : Nat) : ContainerId := BitVec.ofNat 64 (fieldAt bs off 8)

def addrAt (bs : List Byte) (off : Nat) : HostAddr := BitVec.ofNat 64 (fieldAt bs off 8)

/-- A pattern: its length, then its 16 steps (11.5). -/
def patternAt (bs : List Byte) (off : Nat) : Pattern :=
  { length := fieldAt bs off 1, steps := BitVec.ofNat 16 (fieldAt bs (off + 1) 2) }

/-- The request of a docket: its kind code and the arguments its kind uses (11.4, 11.5). -/
def decodeRequest (bs : List Byte) : Request :=
  match fieldAt bs 1 1 with
  | 1 => .enroll { id := idAt bs 8, cls := fieldAt bs 16 1, zone := fieldAt bs 17 1, custody := fieldAt bs 18 1
                   minutes := fieldAt bs 20 4 }
  | 2 => .split { parent := idAt bs 8, count := fieldAt bs 3 1 % 8, retireParent := fieldAt bs 3 1 / 128 == 1
                  children := [idAt bs 16, idAt bs 24, idAt bs 32, idAt bs 40] }
  | 3 => .retire (idAt bs 8)
  | 4 => .quarantine (idAt bs 8)
  | 5 => .release { id := idAt bs 8, resume := fieldAt bs 16 1 }
  | 6 => .query { id := idAt bs 8, reply := addrAt bs 16 }
  | 7 => .moveList { addr := addrAt bs 8, count := fieldAt bs 16 2 }
  | 8 => .setClass { cls := fieldAt bs 8 1, defined := fieldAt bs 9 1, allowance := fieldAt bs 12 4
                     warnMargin := fieldAt bs 16 4, ceiling := fieldAt bs 20 1, maxBakes := fieldAt bs 21 1
                     bakeTemp := fieldAt bs 22 2, bakeMax := fieldAt bs 24 2, bakeDuration := fieldAt bs 26 2 }
  | 9 => .setEngine { mask := BitVec.ofNat 8 (fieldAt bs 8 1), ceiling := fieldAt bs 10 2, outage := fieldAt bs 12 2
                      backdate := fieldAt bs 14 2, repeatWindow := fieldAt bs 16 1, tempHyst := fieldAt bs 17 1
                      rhHyst := fieldAt bs 18 1 }
  | 10 => .setZone { zone := fieldAt bs 8 1, kind := fieldAt bs 9 1, probe := fieldAt bs 10 1
                     reference := fieldAt bs 11 1, lineOutput := fieldAt bs 12 1, creditRate := fieldAt bs 13 1
                     dryThreshold := fieldAt bs 14 2, fixedTemp := ofSigned16 (fieldAt bs 16 2)
                     fixedRh := fieldAt bs 18 2 }
  | 11 => .setConditions (addrAt bs 8)
  | 12 => .setProbe { probe := fieldAt bs 8 1, enable := fieldAt bs 9 1, bus := fieldAt bs 10 1
                      address := fieldAt bs 11 1, group := fieldAt bs 12 1, interval := fieldAt bs 14 2
                      conversion := fieldAt bs 16 2 }
  | 13 => .setGroup { mask := BitVec.ofNat 8 (fieldAt bs 8 1)
                      modes := Vector.ofFn fun g => fieldAt bs (10 + 4 * g.val) 1
                      leads := Vector.ofFn fun g => fieldAt bs (12 + 4 * g.val) 2
                      speedA := fieldAt bs 26 2, speedB := fieldAt bs 28 2 }
  | 14 => .queryProbe { probe := fieldAt bs 8 1, clearLate := fieldAt bs 9 1 % 2 == 1, reply := addrAt bs 16 }
  | 15 => .setDoor { line := fieldAt bs 8 1, zone := fieldAt bs 9 1, polarity := fieldAt bs 10 1
                     filterTime := fieldAt bs 12 2, openLimit := fieldAt bs 14 2 }
  | 16 => .setOutput { mask := BitVec.ofNat 32 (fieldAt bs 8 4)
                       overrides := Vector.ofFn fun k => fieldAt bs (12 + k.val) 1
                       lampZones := Vector.ofFn fun k => fieldAt bs (20 + k.val) 1
                       stepPeriod := fieldAt bs 28 2, calm := patternAt bs 30, warn := patternAt bs 33
                       hold := patternAt bs 36 }
  | 17 => .setTime (fieldAt bs 8 4)
  | 18 => .format
  | _ => .badKind

/-- A movement entry (R103, 11.6). -/
structure MoveEntry where
  id : ContainerId
  zone : Nat
  unsealFlag : Bool
  resealFlag : Bool
  time : Nat
  deriving DecidableEq, Repr

def decodeMoveEntry (bs : List Byte) : MoveEntry :=
  { id := idAt bs 0, zone := fieldAt bs 8 1, unsealFlag := fieldAt bs 9 1 % 2 == 1
    resealFlag := fieldAt bs 9 1 / 2 % 2 == 1, time := fieldAt bs 12 4 }

/-- The outcome of a movement entry (R103). -/
inductive MoveOutcome where
  | applied
  | clamped
  | repeated
  | unknownId
  | badZone
  | badFlags
  | notDone
  deriving DecidableEq, Repr

def MoveOutcome.code : MoveOutcome → Nat
  | .applied => 0
  | .clamped => 1
  | .repeated => 2
  | .unknownId => 3
  | .badZone => 4
  | .badFlags => 5
  | .notDone => 6

/-- A cell's two bytes: bits 10:0 the multiplier, bit 15 the enable; bits 14:11 are not read (11.8). -/
def decodeCell (n : Nat) : Cell := { mult := n % 2048, enabled := n / 32768 == 1 }

/-- A cell table block, from its first 120 bytes (11.8). -/
structure CellBlock where
  cells : Vector Cell 48
  tempEdges : Vector Int 5
  rhEdges : Vector Nat 7
  deriving DecidableEq, Repr

def decodeCellBlock (bs : List Byte) : CellBlock :=
  { cells := Vector.ofFn fun k => decodeCell (fieldAt bs (2 * k.val) 2)
    tempEdges := Vector.ofFn fun k => ofSigned16 (fieldAt bs (96 + 2 * k.val) 2)
    rhEdges := Vector.ofFn fun k => fieldAt bs (106 + 2 * k.val) 2 }

/-- The checks of R55 on the block. -/
def CellBlock.valid (b : CellBlock) : Bool :=
  b.cells.toList.all (fun c => decide (c.mult ≤ 1023)) &&
  b.tempEdges.toList.all (fun v => decide (-400 ≤ v) && decide (v ≤ 1500)) &&
  b.rhEdges.toList.all (fun v => decide (v ≤ 1000)) &&
  decide (b.tempEdges.toList.Pairwise (· < ·)) && decide (b.rhEdges.toList.Pairwise (· < ·))

/-- An address that is nonzero and a multiple of `n` (R37, R55, R88, R102). -/
def addrOk (a : HostAddr) (n : Nat) : Bool := a != 0 && a.toNat % n == 0

/-- SEALED 0 or OPEN 1, the only custody codes a request may carry (11.5). -/
def requestCustody : Nat → Option Custody
  | 0 => some .sealed
  | 1 => some .opened
  | _ => none

def decodeKind : Nat → Option ZoneKind
  | 0 => some .unused
  | 1 => some .floor
  | 2 => some .line
  | 3 => some .dry
  | 4 => some .oven
  | _ => none

def decodeOverride : Nat → Option Override
  | 0 => some .auto
  | 1 => some .forceOn
  | 2 => some .forceOff
  | _ => none

/-- A field that reads 0xFF as none (R177): `none` when out of range, `some none` for the marker. -/
def optField (n k : Nat) : Option (Option (Fin n)) :=
  if k = 255 then some none else (finOf? n k).map some

/-- A bus speed in kHz: `some true` for 400, `some false` for 100 (R86). -/
def decodeSpeed : Nat → Option Bool
  | 100 => some false
  | 400 => some true
  | _ => none

/-- Clamp a reading into −400..1500 and 0..1000 (R50, R81). -/
def clampReading (r : Reading) : Reading :=
  { temp := max (-400) (min 1500 r.temp), rh := min 1000 r.rh }

end Sys2Proof.Machine
end

