-- ==== Sys2Proof/Machine/Formats.lean ====
section
/-! DEFINITION. The byte layouts the part writes (section 11): the board, the answer, the reports, and the journal
entries, which restore also reads. -/

namespace Sys2Proof.Machine

/-! ## The board (11.3) -/

/-- Bytes 8..255 of the header: every field but the generation and the engine time (R153 step 4). -/
def Part.headerBytes (p : Part) (intake : IntakeState) : List Byte :=
  padTo 248 (leBytes 1 p.jnc.engine.code ++ leBytes 1 p.jnc.journal.code ++ leBytes 1 intake.code ++
    leBytes 1 (bit p.tbu.timeValid 0) ++ leBytes 2 p.liveSlots.length ++ leBytes 2 p.dlu.warnCount ++
    leBytes 2 p.dlu.expiredCount ++ leBytes 2 p.dlu.quarantinedCount ++ leBytes 2 p.jnc.freeCount ++
    leBytes 1 p.exi.cursor ++ leBytes 1 0 ++ leBytes 4 p.jnc.outage)

/-- A zone summary, 16 bytes. -/
def Part.zoneSummary (p : Part) (z : Fin 64) : List Byte :=
  let r := p.zone z
  leBytes 1 r.config.kind.code ++ leBytes 1 (conditionCode r.condition) ++
    leBytes 1 (optCode (r.shownBands.map (·.1))) ++ leBytes 1 (optCode (r.shownBands.map (·.2))) ++
    leBytes 2 (conditionRate r.condition) ++ leBytes 2 r.members.length ++ leBytes 2 r.blocking ++
    leBytes 2 (tempCode r.held) ++ leBytes 2 (rhCode r.held) ++ leBytes 1 (p.zoneFlags z) ++ leBytes 1 0

/-- What a container's summary shows (R19 step 5); a FREE slot as 11.3 gives it. -/
structure Summary where
  id : ContainerId
  custody : Nat
  zone : Nat
  level : Nat
  percent : Nat
  expireDue : Nat
  deriving DecidableEq, Repr

def containerSummary (k : Fin 16 → ClassDef) : Option Container → Summary
  | some c => { id := c.id, custody := c.custody.code, zone := c.zone.val, level := c.level.rank
                percent := percentUsed (k c.cls) c.exposure, expireDue := timeCode c.expireDue }
  | none => { id := 0, custody := 255, zone := 255, level := 0, percent := 0, expireDue := Config.timeNone }

/-- A container summary, 16 bytes. -/
def Summary.bytes (s : Summary) : List Byte :=
  leBytes 8 s.id.toNat ++ leBytes 1 s.custody ++ leBytes 1 s.zone ++ leBytes 1 s.level ++ leBytes 1 s.percent ++
    leBytes 4 s.expireDue

/-! ## The docket's answer (11.4): bytes 48..63 -/

def Answer.bytes (a : Answer) (notDurable : Bool) : List Byte :=
  leBytes 1 a.result.code ++ leBytes 1 (bit notDurable 0) ++ leBytes 2 a.first ++ leBytes 2 a.second ++
    leBytes 2 0 ++ leBytes 8 a.value

/-- The SPLIT answer value: four 2-byte slots, 0xFFFF beyond the child count (11.5). -/
def splitValue (slots : List (Fin 2048)) : Nat :=
  leNat ((slots.map (fun i => leBytes 2 i.val) ++ List.replicate (4 - slots.length) (leBytes 2 0xFFFF)).flatten)

/-! ## Reports (11.7) -/

/-- The container report, 64 bytes (R38). -/
def containerReport (k : ClassDef) (i : Fin 2048) (c : Container) : List Byte :=
  leBytes 2 i.val ++ leBytes 1 c.cls.val ++ leBytes 1 c.custody.code ++ leBytes 1 c.zone.val ++
    leBytes 1 c.mode.code ++ leBytes 2 c.mode.rate ++ leBytes 8 c.id.toNat ++ leBytes 5 c.exposure ++
    leBytes 5 k.limit ++ leBytes 1 (percentUsed k c.exposure) ++
    leBytes 1 (bit c.warned 0 + bit c.bakedThisStay 1) ++ leBytes 4 c.settled ++
    leBytes 4 (timeCode c.bakeProgress) ++ leBytes 1 c.bakeCount ++ leBytes 1 (causeCode c.quarantineCause) ++
    leBytes 1 (optCode (c.lastMove.map (·.1))) ++ leBytes 1 0 ++ leBytes 8 (c.parent.getD 0).toNat ++
    leBytes 4 c.enrolled ++ leBytes 4 c.zoneEntry ++ leBytes 4 (timeCode c.warnDue) ++
    leBytes 4 (timeCode c.expireDue)

/-- The probe report, 32 bytes (R88); an absent last count reads 0xFF, the marker of a one-byte number (R176; log 8). Of
an OFF probe, bytes 0, 1 and 25 are written and the rest are 0. A stale time beyond 32 bits is written modulo 2^32
(DESIGN CHOICE, log 69). -/
def Part.probeReport (p : Part) (n : Fin 32) : List Byte :=
  let r := p.probe n
  match r.config with
  | none => leBytes 1 n.val ++ leBytes 1 r.state.code ++ List.replicate 23 0 ++ leBytes 1 r.late ++
      List.replicate 6 0
  | some c =>
    let groupOn := match c.group with
      | some g => (p.group g).on
      | none => false
    leBytes 1 n.val ++ leBytes 1 r.state.code ++ leBytes 1 (busCode c.bus) ++ leBytes 1 c.address ++
      leBytes 1 (optCode c.group) ++
      leBytes 1 (bit (p.queued n) 0 + bit (p.inFlight n) 1 + bit groupOn 2 + bit r.held.isSome 3 +
        bit r.lastCount.isSome 4) ++
      leBytes 2 c.interval ++ leBytes 2 c.conversion ++ leBytes 2 (tempCode r.held) ++ leBytes 2 (rhCode r.held) ++
      [r.lastCount.getD 0xFF#8] ++ leBytes 1 r.failures ++ leBytes 4 (timeCode r.readingTime) ++
      leBytes 4 r.staleTime ++ leBytes 1 (failureCode r.lastFailure) ++ leBytes 1 r.late ++ List.replicate 6 0

/-! ## Journal payloads (11.9): encoding -/

def idCode (o : Option ContainerId) : Nat := (o.getD 0).toNat

/-- The fields of R41 in their order. Bit 0 of the flags is warned and bit 1 baked this stay, as in the report of 11.7
(DESIGN CHOICE, log 72). -/
def ContainerImage.bytes (i : ContainerImage) : List Byte :=
  leBytes 2 i.slot.val ++ leBytes 8 i.id.toNat ++ leBytes 1 i.cls.val ++ leBytes 1 i.custody.code ++
    leBytes 1 i.zone.val ++ leBytes 5 i.exposure ++ leBytes 4 i.settled ++ leBytes 4 i.zoneEntry ++
    leBytes 1 (optCode i.lastMoveZone) ++ leBytes 1 (bit i.warned 0 + bit i.bakedThisStay 1) ++
    leBytes 1 i.bakeCount ++ leBytes 1 (causeCode i.quarantineCause) ++ leBytes 8 (idCode i.parent) ++
    leBytes 4 i.enrolled

def bandBytes (b : Option (Fin 6 × Fin 8)) : List Byte :=
  leBytes 1 (optCode (b.map (·.1))) ++ leBytes 1 (optCode (b.map (·.2)))

/-- The walked cell as 8t + h; 0xFF for the ceiling and for a zone that does not walk. -/
def walkedCode (b : Option (Fin 6 × Fin 8)) : Nat := match b with
  | some (t, h) => 8 * t.val + h.val
  | none => 255

/-- The zone image of 11.9. The dry threshold of a kind that holds none is 0 (DESIGN CHOICE, log 82). -/
def ZoneImage.bytes (z : Fin 64) (i : ZoneImage) : List Byte :=
  leBytes 1 z.val ++ leBytes 1 i.config.kind.code ++ leBytes 1 (optCode i.config.probe) ++
    leBytes 1 (optCode i.config.reference) ++ leBytes 1 (optCode i.config.lineOutput) ++
    leBytes 1 i.config.creditRate ++ leBytes 2 i.config.dryThreshold ++ leBytes 2 (tempCode i.config.fixed) ++
    leBytes 2 (rhCode i.config.fixed) ++ leBytes 1 (conditionCode i.condition) ++
    leBytes 2 (conditionRate i.condition) ++ leBytes 4 (timeCode i.conditionTime) ++ leBytes 2 (tempCode i.held) ++
    leBytes 2 (rhCode i.held) ++ bandBytes i.bands ++ leBytes 1 (walkedCode i.walked) ++
    leBytes 1 (bit i.doorOpen 0)

def ZoneConditionImage.bytes (z : Fin 64) (i : ZoneConditionImage) : List Byte :=
  leBytes 1 z.val ++ leBytes 4 i.time ++ leBytes 1 (conditionCode i.condition) ++
    leBytes 2 (conditionRate i.condition) ++ leBytes 2 (tempCode i.held) ++ leBytes 2 (rhCode i.held) ++
    bandBytes i.bands ++ leBytes 1 (walkedCode i.walked)

def classImageBytes (n : Fin 16) (i : Option ClassImage) : List Byte :=
  leBytes 1 n.val ++ (match i with
    | none => List.replicate 17 0
    | some c => leBytes 1 1 ++ leBytes 4 c.allowance ++ leBytes 4 c.warnMargin ++ leBytes 1 c.ceiling ++
        leBytes 1 c.maxBakes ++ leBytes 2 c.bakeTemp ++ leBytes 2 c.bakeMax ++ leBytes 2 c.bakeDuration)

/-- A cell as in the cell table block (11.8). -/
def cellCode (c : Cell) : Nat := c.mult + bit c.enabled 15

def probeImageBytes (c : Option ProbeConfig) : List Byte := match c with
  | none => List.replicate 8 0
  | some c => leBytes 1 1 ++ leBytes 1 (busCode c.bus) ++ leBytes 1 c.address ++ leBytes 1 (optCode c.group) ++
      leBytes 2 c.interval ++ leBytes 2 c.conversion

def speedCode (fast : Bool) : Nat := if fast then 400 else 100

def GroupsImage.bytes (g : GroupsImage) : List Byte :=
  ((List.finRange 4).map fun k => leBytes 1 (bit g.modes[k] 0) ++ leBytes 2 g.leads[k]).flatten ++
    leBytes 2 (speedCode g.fastA) ++ leBytes 2 (speedCode g.fastB)

def DoorImage.bytes (d : DoorImage) : List Byte :=
  leBytes 1 (optCode d.zone) ++ leBytes 1 (bit d.openLow 0) ++ leBytes 2 d.filterTime ++ leBytes 2 d.openLimit

def Pattern.bytes (q : Pattern) : List Byte := leBytes 1 q.length ++ leBytes 2 q.steps.toNat

def OutputsImage.bytes (o : OutputsImage) : List Byte :=
  ((List.finRange 8).map fun k => leBytes 1 o.overrides[k].code).flatten ++
    ((List.finRange 8).map fun k => leBytes 1 (optCode o.lampZones[k])).flatten ++
    leBytes 2 o.stepPeriod ++ o.calm.bytes ++ o.warn.bytes ++ o.hold.bytes

def Settings.bytes (s : Settings) : List Byte :=
  leBytes 2 s.ceiling ++ leBytes 2 s.outage ++ leBytes 2 s.backdate ++ leBytes 1 s.repeatWindow ++
    leBytes 1 s.tempHyst ++ leBytes 1 s.rhHyst

/-- The kind code of a payload (11.9). -/
def Payload.kindCode : Payload → Nat
  | .sectorHead .. => 0x01
  | .timeMark _ => 0x02
  | .containerImage _ => 0x03
  | .retireEntry .. => 0x04
  | .zoneImage .. => 0x05
  | .zoneCondition .. => 0x06
  | .classImage .. => 0x07
  | .cellsImage .. | .edgesImage .. | .engineImage _ | .probeImage .. | .groupsImage _ | .doorImage .. |
    .outputsImage _ => 0x08
  | .dropMark _ => 0x09
  | .resyncEnd => 0x0A
  | .formatEntry _ => 0x0F

/-- PART2: the second and third entries of the derating image (R162). -/
def Payload.part2 : Payload → Bool
  | .cellsImage upper _ => upper
  | .edgesImage .. => true
  | _ => false

/-- A setting image: part code, part number, values (11.9). -/
def partBytes (code number : Nat) (values : List Byte) : List Byte := leBytes 1 code ++ leBytes 1 number ++ values

/-- The payload's bytes, less the spare bytes that fill it to 53. -/
def Payload.bytes : Payload → List Byte
  | .sectorHead serial first => leBytes 4 serial ++ leBytes 4 first
  | .timeMark r => leBytes 2 (r.getD 0xFFFF)
  | .containerImage i => i.bytes
  | .retireEntry slot id => leBytes 2 slot.val ++ leBytes 8 id.toNat
  | .zoneImage z i => i.bytes z
  | .zoneCondition z i => i.bytes z
  | .classImage n i => classImageBytes n i
  | .cellsImage upper cells =>
    partBytes 0 (bit upper 0) ((cells.toList.map fun c => leBytes 2 (cellCode c)).flatten)
  | .edgesImage t r =>
    partBytes 0 2 ((t.toList.map fun v => leBytes 2 (signed16 v)).flatten ++
      (r.toList.map fun v => leBytes 2 v).flatten)
  | .engineImage s => partBytes 1 0 s.bytes
  | .probeImage n c => partBytes 2 n.val (probeImageBytes c)
  | .groupsImage g => partBytes 3 0 g.bytes
  | .doorImage n d => partBytes 4 n.val d.bytes
  | .outputsImage o => partBytes 5 0 o.bytes
  | .dropMark t => leBytes 4 t
  | .resyncEnd => []
  | .formatEntry serial => leBytes 4 serial

/-- Bytes 0..62 of an entry: kind, flags, sequence number, entry time, payload (R161). -/
def entryBody (pl : Payload) (docket : Bool) (seq time : Nat) : List Byte :=
  leBytes 1 pl.kindCode ++ leBytes 1 (bit docket 0 + bit pl.part2 1) ++ leBytes 4 seq ++ leBytes 4 time ++
    padTo 53 pl.bytes

/-! ## Journal payloads: decoding -/

def decodeCustody : Nat → Option Custody
  | 0 => some .sealed
  | 1 => some .opened
  | 2 => some .baking
  | 3 => some .expired
  | 4 => some .quarantined
  | _ => none

def decodeCause : Nat → Option (Option QuarantineCause)
  | 0 => some none
  | 1 => some (some .host)
  | 2 => some (some .overheat)
  | 3 => some (some .bakeLimit)
  | _ => none

def decodeCondition (code rate : Nat) : Option (Option Condition) :=
  match code with
  | 0 => some none
  | 1 => some (some (.exposing rate))
  | 2 => some (some (.drying rate))
  | 3 => some (some (.dryFailed rate))
  | 4 => some (some .ovenReady)
  | 5 => some (some .ovenPaused)
  | _ => none

/-- A reading; the temperature −32,768 marks it absent (R176). -/
def decodeReading (t h : Nat) : Option Reading := if t = 32768 then none else some { temp := ofSigned16 t, rh := h }

/-- A time; 4,294,967,295 marks it absent (R176). -/
def decodeTime (n : Nat) : Option Nat := if n = Config.timeNone then none else some n

/-- Two band bytes, 0xFF absent. -/
def decodeBands (t h : Nat) : Option (Option (Fin 6 × Fin 8)) :=
  if t = 255 then some none
  else match finOf? 6 t, finOf? 8 h with
    | some t, some h => some (some (t, h))
    | _, _ => none

def decodeWalked (n : Nat) : Option (Option (Fin 6 × Fin 8)) :=
  if n = 255 then some none
  else match finOf? 6 (n / 8), finOf? 8 (n % 8) with
    | some t, some h => some (some (t, h))
    | _, _ => none

/-- An ID field in which 0 is absent (R176). -/
def decodeOptId (n : Nat) : Option ContainerId := if n = 0 then none else some (BitVec.ofNat 64 n)

def decodeContainerImage (bs : List Byte) : Option ContainerImage := do
  let slot ← finOf? 2048 (fieldAt bs 0 2)
  let cls ← finOf? 16 (fieldAt bs 10 1)
  let custody ← decodeCustody (fieldAt bs 11 1)
  let zone ← finOf? 64 (fieldAt bs 12 1)
  let last ← optField 64 (fieldAt bs 26 1)
  let cause ← decodeCause (fieldAt bs 29 1)
  some { slot := slot, id := idAt bs 2, cls := cls, custody := custody, zone := zone, exposure := fieldAt bs 13 5
         settled := fieldAt bs 18 4, zoneEntry := fieldAt bs 22 4, lastMoveZone := last
         warned := fieldAt bs 27 1 % 2 == 1, bakedThisStay := fieldAt bs 27 1 / 2 % 2 == 1
         bakeCount := fieldAt bs 28 1, quarantineCause := cause, parent := decodeOptId (fieldAt bs 30 8)
         enrolled := fieldAt bs 38 4 }

def decodeZoneImage (bs : List Byte) : Option (Fin 64 × ZoneImage) := do
  let z ← finOf? 64 (fieldAt bs 0 1)
  let kind ← decodeKind (fieldAt bs 1 1)
  let probe ← optField 32 (fieldAt bs 2 1)
  let reference ← optField 64 (fieldAt bs 3 1)
  let lineOutput ← optField 8 (fieldAt bs 4 1)
  let condition ← decodeCondition (fieldAt bs 12 1) (fieldAt bs 13 2)
  let bands ← decodeBands (fieldAt bs 23 1) (fieldAt bs 24 1)
  let walked ← decodeWalked (fieldAt bs 25 1)
  some (z, { config := { kind := kind, probe := probe, fixed := decodeReading (fieldAt bs 8 2) (fieldAt bs 10 2)
                         reference := reference, dryThreshold := fieldAt bs 6 2, creditRate := fieldAt bs 5 1
                         lineOutput := lineOutput }
             condition := condition, conditionTime := decodeTime (fieldAt bs 15 4)
             held := decodeReading (fieldAt bs 19 2) (fieldAt bs 21 2), bands := bands, walked := walked
             doorOpen := fieldAt bs 26 1 == 1 })

def decodeZoneCondition (bs : List Byte) : Option (Fin 64 × ZoneConditionImage) := do
  let z ← finOf? 64 (fieldAt bs 0 1)
  let condition ← decodeCondition (fieldAt bs 5 1) (fieldAt bs 6 2)
  let bands ← decodeBands (fieldAt bs 12 1) (fieldAt bs 13 1)
  let walked ← decodeWalked (fieldAt bs 14 1)
  some (z, { time := fieldAt bs 1 4, condition := condition
             held := decodeReading (fieldAt bs 8 2) (fieldAt bs 10 2), bands := bands, walked := walked })

def decodeClassImage (bs : List Byte) : Option (Fin 16 × Option ClassImage) := do
  let n ← finOf? 16 (fieldAt bs 0 1)
  if fieldAt bs 1 1 = 1 then
    some (n, some { allowance := fieldAt bs 2 4, warnMargin := fieldAt bs 6 4, ceiling := fieldAt bs 10 1
                    maxBakes := fieldAt bs 11 1, bakeTemp := fieldAt bs 12 2, bakeMax := fieldAt bs 14 2
                    bakeDuration := fieldAt bs 16 2 })
  else some (n, none)

def decodeBus : Nat → Option Bus
  | 0 => some .busA
  | 1 => some .busB
  | _ => none

def decodeProbeImage (bs : List Byte) : Option (Fin 32 × Option ProbeConfig) := do
  let n ← finOf? 32 (fieldAt bs 1 1)
  if fieldAt bs 2 1 = 1 then
    let bus ← decodeBus (fieldAt bs 3 1)
    let group ← optField 4 (fieldAt bs 5 1)
    some (n, some { bus := bus, address := fieldAt bs 4 1, group := group, interval := fieldAt bs 6 2
                    conversion := fieldAt bs 8 2 })
  else some (n, none)

def decodeGroupsImage (bs : List Byte) : Option GroupsImage := do
  let a ← decodeSpeed (fieldAt bs 14 2)
  let b ← decodeSpeed (fieldAt bs 16 2)
  some { modes := Vector.ofFn fun k => fieldAt bs (2 + 3 * k.val) 1 == 1
         leads := Vector.ofFn fun k => fieldAt bs (3 + 3 * k.val) 2, fastA := a, fastB := b }

def decodeDoorImage (bs : List Byte) : Option (Fin 16 × DoorImage) := do
  let n ← finOf? 16 (fieldAt bs 1 1)
  let zone ← optField 64 (fieldAt bs 2 1)
  some (n, { zone := zone, openLow := fieldAt bs 3 1 == 1, filterTime := fieldAt bs 4 2
             openLimit := fieldAt bs 6 2 })

def decodeOutputsImage (bs : List Byte) : Option OutputsImage :=
  if (List.finRange 8).all (fun k => (decodeOverride (fieldAt bs (2 + k.val) 1)).isSome &&
      (optField 64 (fieldAt bs (10 + k.val) 1)).isSome) then
    some { overrides := Vector.ofFn fun k => (decodeOverride (fieldAt bs (2 + k.val) 1)).getD .auto
           lampZones := Vector.ofFn fun k => (optField 64 (fieldAt bs (10 + k.val) 1)).getD none
           stepPeriod := fieldAt bs 18 2, calm := patternAt bs 20, warn := patternAt bs 23, hold := patternAt bs 26 }
  else none

def decodeEngineImage (bs : List Byte) : Settings :=
  { ceiling := fieldAt bs 2 2, outage := fieldAt bs 4 2, backdate := fieldAt bs 6 2, repeatWindow := fieldAt bs 8 1
    tempHyst := fieldAt bs 9 1, rhHyst := fieldAt bs 10 1 }

/-- A setting image, by its part code and part number. -/
def decodeSettingImage (bs : List Byte) : Option Payload :=
  match fieldAt bs 0 1, fieldAt bs 1 1 with
  | 0, 0 => some (.cellsImage false (Vector.ofFn fun k => decodeCell (fieldAt bs (2 + 2 * k.val) 2)))
  | 0, 1 => some (.cellsImage true (Vector.ofFn fun k => decodeCell (fieldAt bs (2 + 2 * k.val) 2)))
  | 0, 2 => some (.edgesImage (Vector.ofFn fun k => ofSigned16 (fieldAt bs (2 + 2 * k.val) 2))
      (Vector.ofFn fun k => fieldAt bs (12 + 2 * k.val) 2))
  | 1, _ => some (.engineImage (decodeEngineImage bs))
  | 2, _ => (decodeProbeImage bs).map fun r => .probeImage r.1 r.2
  | 3, _ => (decodeGroupsImage bs).map .groupsImage
  | 4, _ => (decodeDoorImage bs).map fun r => .doorImage r.1 r.2
  | 5, _ => (decodeOutputsImage bs).map .outputsImage
  | _, _ => none

/-- The payload of an entry, from its kind code and its payload bytes; any other kind code fails (R161, 11.9). -/
def decodePayload (kind : Nat) (bs : List Byte) : Option Payload :=
  match kind with
  | 0x01 => some (.sectorHead (fieldAt bs 0 4) (fieldAt bs 4 4))
  | 0x02 => some (.timeMark (if fieldAt bs 0 2 = 0xFFFF then none else some (fieldAt bs 0 2)))
  | 0x03 => (decodeContainerImage bs).map .containerImage
  | 0x04 => (finOf? 2048 (fieldAt bs 0 2)).map fun i => .retireEntry i (idAt bs 2)
  | 0x05 => (decodeZoneImage bs).map fun r => .zoneImage r.1 r.2
  | 0x06 => (decodeZoneCondition bs).map fun r => .zoneCondition r.1 r.2
  | 0x07 => (decodeClassImage bs).map fun r => .classImage r.1 r.2
  | 0x08 => decodeSettingImage bs
  | 0x09 => some (.dropMark (fieldAt bs 0 4))
  | 0x0A => some .resyncEnd
  | 0x0F => some (.formatEntry (fieldAt bs 0 4))
  | _ => none

/-- A journal entry as read from its 64 bytes. -/
structure EntryRead where
  payload : Option Payload
  seq : Nat
  time : Nat
  /-- the commit mark reads 0x00 (R161) -/
  marked : Bool
  deriving DecidableEq, Repr

def decodeEntry (bs : List Byte) : EntryRead :=
  { payload := decodePayload (fieldAt bs 0 1) ((bs.drop 10).take 53), seq := fieldAt bs 2 4, time := fieldAt bs 6 4
    marked := fieldAt bs 63 1 == 0 }

/-! ## The images the blocks build -/

def imageOf (i : Fin 2048) (c : Container) : ContainerImage :=
  { slot := i, id := c.id, cls := c.cls, custody := c.custody, zone := c.zone, exposure := c.exposure
    settled := c.settled, zoneEntry := c.zoneEntry, lastMoveZone := c.lastMove.map (·.1), warned := c.warned
    bakedThisStay := c.bakedThisStay, bakeCount := c.bakeCount, quarantineCause := c.quarantineCause
    parent := c.parent, enrolled := c.enrolled }

/-- A zone without a condition has no condition time (R48, R51). -/
def Zone.image (r : Zone) : ZoneImage :=
  { config := r.config, condition := r.condition, conditionTime := r.condition.map fun _ => r.conditionTime
    held := r.held, bands := r.bands, walked := r.walked, doorOpen := r.doorOpen }

def Zone.conditionImage (r : Zone) : ZoneConditionImage :=
  { time := r.conditionTime, condition := r.condition, held := r.held, bands := r.bands, walked := r.walked }

def ClassDef.image (k : ClassDef) : ClassImage :=
  { allowance := k.allowance, warnMargin := k.warnMargin, ceiling := k.ceiling, maxBakes := k.maxBakes
    bakeTemp := k.bakeTemp, bakeMax := k.bakeMax, bakeDuration := k.bakeDuration }

/-- A defined class record, with the two figures the CTU derives (R2). -/
def ClassImage.define (i : ClassImage) : ClassDef :=
  { allowance := i.allowance, warnMargin := i.warnMargin, ceiling := i.ceiling, bakeTemp := i.bakeTemp
    bakeMax := i.bakeMax, bakeDuration := i.bakeDuration, maxBakes := i.maxBakes
    warnTicks := i.warnMargin * Config.ticksPerMinute
    creditLimit := i.allowance * Config.ticksPerMinute * i.ceiling / 100 }

def Part.groupsImage (p : Part) : GroupsImage :=
  { modes := Vector.ofFn fun g => (p.group g).cycled, leads := Vector.ofFn fun g => (p.group g).lead
    fastA := p.prc.busA.fast, fastB := p.prc.busB.fast }

def DoorLine.image (l : DoorLine) : DoorImage :=
  { zone := l.zone, openLow := l.openLow, filterTime := l.filterTime, openLimit := l.openLimit }

def Part.outputsImage (p : Part) : OutputsImage :=
  { overrides := Vector.ofFn fun k => (p.lineHold k).override, lampZones := Vector.ofFn fun k => (p.lamp k).zone
    stepPeriod := p.dou.stepPeriod, calm := p.dou.calm, warn := p.dou.warn, hold := p.dou.hold }

/-- The entries of a setting part, with its present values; the derating table takes three (R162). -/
def Part.partPayloads (p : Part) : SettingPart → List Payload
  | .derating =>
    [.cellsImage false (Vector.ofFn fun k => p.znu.cells[k.val]'(by omega)),
     .cellsImage true (Vector.ofFn fun k => p.znu.cells[24 + k.val]'(by omega)),
     .edgesImage p.znu.tempEdges p.znu.rhEdges]
  | .engine => [.engineImage p.znu.settings]
  | .probe n => [.probeImage n (p.probe n).config]
  | .groups => [.groupsImage p.groupsImage]
  | .door n => [.doorImage n (p.line n).image]
  | .outputs => [.outputsImage p.outputsImage]

/-- The object an entry belongs to (R160, R161). -/
def Payload.object : Payload → Option JournalObject
  | .containerImage i => some (.slot i.slot)
  | .retireEntry i _ => some (.slot i)
  | .zoneImage z _ => some (.zone z)
  | .zoneCondition z _ => some (.zone z)
  | .classImage n _ => some (.cls n)
  | .cellsImage .. | .edgesImage .. => some (.part .derating)
  | .engineImage _ => some (.part .engine)
  | .probeImage n _ => some (.part (.probe n))
  | .groupsImage _ => some (.part .groups)
  | .doorImage n _ => some (.part (.door n))
  | .outputsImage _ => some (.part .outputs)
  | _ => none

end Sys2Proof.Machine
end

