-- ==== Sys2Proof/Machine/Reset.lean ====
section
/-! DEFINITION. What main power-on and FORMAT leave (R4, R7, R43, R70, R75, R89, R96, R98, R130, R139, R141, R160),
and the drives the Door and Output Unit derives. -/

namespace Sys2Proof.Machine

/-! ## Drives (R97, R99) -/

/-- Derive one output's drive from its override and its zone's blocking count (R97). -/
def Part.deriveHold (n : Fin 8) (p : Part) : Part :=
  let o := p.lineHold n
  p.setLineHold n { o with asserted := holdDrive o.override (o.zone.map fun z => (p.zone z).blocking) }

/-- Derive one lamp's pattern; it restarts when the pattern differs from the one it shows (R99). -/
def Part.deriveLamp (n : Fin 8) (p : Part) : Part :=
  let l := p.lamp n
  match l.zone with
  | none => p.setLamp n { l with shown := none, position := 0, timer := none }
  | some z =>
    let q := lampPattern (p.zone z).blocking (p.zone z).warnedCount
    if l.shown = some q then p
    else p.setLamp n { l with shown := some q, position := 0, timer := some p.dou.stepPeriod }

/-- The ZNU reports a zone's counts to the DOU (R97). -/
def Part.reportCounts (z : Fin 64) (p : Part) : Part :=
  let p := (allFin 8 fun n => (p.lineHold n).zone == some z).foldl (fun p n => p.deriveHold n) p
  (allFin 8 fun n => (p.lamp n).zone == some z).foldl (fun p n => p.deriveLamp n) p

/-! ## Door lines (R89, R90) -/

/-- The filter timer runs exactly while the raw state differs from the filtered state; it does not run while the
line's restore sample is awaited (R90, R95). -/
def DoorLine.refilter (l : DoorLine) : DoorLine :=
  if l.sample.isSome then { l with timer := none }
  else if l.rawOpen = l.filteredOpen then { l with timer := none }
  else if l.timer.isSome then l
  else { l with timer := some l.filterTime }

/-- A line at its defaults, with the level its pin has. -/
def DoorLine.defaults (high : Bool) : DoorLine := DoorLine.refilter { DoorLine.reset with high := high }

/-- The DOU at its defaults (R89, R96, R98); the pins keep their levels. -/
def Dou.defaults (d : Dou) : Dou := { Dou.reset with lines := Vector.ofFn fun n => DoorLine.defaults d.lines[n].high }

/-! ## Main power-on -/

/-- Every volatile table takes its main power-on value and the engine is RESTORING; the backup domain, the flash, the
host's memory and the door pins are not the part's to reset (R168, R175). -/
def Part.powerOn (p : Part) : Part :=
  { Part.reset with
    tbu := { p.tbu with mainPower := true, powerFail := false }
    exi := { Exi.reset with messages := p.exi.messages }
    dou := p.dou.defaults
    flash := p.flash
    host := p.host }

/-! ## FORMAT (R173 step 5) -/

/-- A bus at FORMAT: 100 kHz and an empty queue; an attempt under way finishes on the bus and is discarded (R75). -/
def ProbeBus.formatted (b : ProbeBus) : ProbeBus :=
  match b.phase, b.poll with
  | .awaitFree ms, some q => { b with fast := false, queue := [], phase := .awaitFree ms, poll := some { q with discarded := true } }
  | .converting ms, some q => { b with fast := false, queue := [], phase := .converting ms, poll := some { q with discarded := true } }
  | .reading, some q => { b with fast := false, queue := [], phase := .reading, poll := some { q with discarded := true } }
  | _, _ => ProbeBus.reset

/-- Each STEADY group is switched on, with its ready point its lead time away (R86, R87). -/
def Part.switchOnSteady (p : Part) : Part :=
  (List.finRange 4).foldl (fun p g =>
    let r := p.group g
    if r.cycled || r.on then p else p.setGroup g { r with on := true, ready := r.lead }) p

/-- The tables as FORMAT leaves them. -/
def Part.formatTables (p : Part) : Part :=
  { p with
    ctu := Ctu.reset
    znu := Znu.reset
    prc := { Prc.reset with busA := p.prc.busA.formatted, busB := p.prc.busB.formatted }
    dou := p.dou.defaults
    dlu := Dlu.reset }

/-- FORMAT completed: the journal as after FORMAT, every table at its FORMAT value, the board posted whole, the
engine RUNNING, and the docket answered (R160, R173). -/
def Part.formatDone (serial : Nat) (p : Part) : Part :=
  let q := { p with jnc := { Jnc.reset with engine := p.jnc.engine, serial := BitVec.ofNat 32 serial, notErased := []
                                            closing := p.jnc.closing, resetWaits := p.jnc.resetWaits } }
  (q.formatTables.switchOnSteady.setEngine .running).postAll.finishDocket
    { result := .ok, first := Config.freeAfterFormat, second := 0, value := (BitVec.ofNat 32 serial).toNat }

/-- FORMAT failed on the flash: the tables as at step 5, the engine BLANK, the docket WRONG_STATE (R173). The head, the tail,
the next sequence, the free count, the serial and the newest-entry record stay as they stood (DESIGN CHOICE, log 103). -/
def Part.formatFailed (p : Part) : Part :=
  let q := { p with jnc := { p.jnc with format := none, dropTime := none, markStaged := false, dropMarkAt := none
                                        endStaged := false, outage := 0 } }
  (q.formatTables.setEngine .blank).postAll.refuseDocket .wrongState

end Sys2Proof.Machine
end

