-- ==== Sys2Proof/Machine/Journal.lean ====
section
/-! DEFINITION. The Journal Controller: staging, the flash port and its arbiter, commits, failures, compaction
(R158 to R167). -/

namespace Sys2Proof.Machine

/-! ## Staging (R163, R164) -/

def Part.onJnc (f : Jnc → Jnc) (p : Part) : Part := { p with jnc := f p.jnc }

def Part.onPort (f : FlashPort → FlashPort) (p : Part) : Part := p.onJnc fun j => { j with port := f j.port }

/-- The entries an offer becomes when it is staged; none when its object is gone. -/
def Part.offerPayloads (p : Part) : Offer → List Payload
  | .image i => match p.slot i with
    | some c => [.containerImage (imageOf i c)]
    | none => []
  | .retire i id => [.retireEntry i id]
  | .zone z i => [.zoneImage z i]
  | .cls n => [.classImage n ((p.cls n).defn.map ClassDef.image)]
  | .part q => p.partPayloads q
  | .timeMark => [.timeMark none]

/-- Staging is held for compaction (R163). -/
def Part.held (p : Part) : Bool := decide (p.jnc.freeCount ≤ Config.holdFree)

/-- A FORMAT has not stopped staging: there is none, or its queue is still being committed (R173 step 1). -/
def Jnc.formatStages (j : Jnc) : Bool :=
  match j.format with
  | some f => f.stage == .drain
  | none => true

/-- Staging takes entries at all: not while the journal is FAILED, a FORMAT has stopped it, or the queue is closed
(R163, R165, R173, R174). -/
def Part.stagingOpen (p : Part) : Bool :=
  p.jnc.journal != .failed && p.jnc.formatStages && p.jnc.closing.isNone

def Part.docketEntries (p : Part) : Nat := (p.jnc.queue.filter fun e => e.owner == .docket).length

/-- An image staged after the DROP_MARK of the present resync clears its object's mark (R166). Between a later drop and
that drop's own DROP_MARK the first DROP_MARK counts (DESIGN CHOICE, log 80). -/
def Part.clearMark (pl : Payload) (p : Part) : Part :=
  if p.jnc.journal = .resync ∧ p.jnc.markStaged then
    match pl with
    | .containerImage i => match p.slot i.slot with
      | some c => p.setSlot i.slot (some { c with dirty := false })
      | none => p
    | .zoneImage z _ => p.putZone z { p.zone z with dirty := false }
    | _ => p
  else p

/-- Put entries into the queue, stamped with the engine second; a TIME_MARK starts the 60 seconds afresh (R162). -/
def Part.enqueue (owner : StagedBy) (pls : List Payload) (p : Part) : Part :=
  pls.foldl (fun p pl =>
    let p := p.clearMark pl
    p.onJnc fun j => { j with queue := j.queue ++ [{ payload := pl, time := p.now, owner := owner }]
                              sinceMark := match pl with
                                | .timeMark _ => 0
                                | _ => j.sinceMark }) p

/-- Mark an object journal-dirty because an entry of it was dropped (R164 step 2). -/
def Part.markDirty (pl : Payload) (p : Part) : Part :=
  let slotDirty (p : Part) (i : Fin 2048) : Part := match p.slot i with
    | some c => p.setSlot i (some { c with dirty := true })
    | none => p
  match pl with
  | .zoneCondition z _ =>
    ((p.zone z).members).foldl slotDirty (p.putZone z { p.zone z with dirty := true })
  | .zoneImage z _ => p.putZone z { p.zone z with dirty := true }
  | .containerImage i => slotDirty p i.slot
  | _ => p

/-- Drop an internal entry (R164). -/
def Part.dropEntry (pl : Payload) (p : Part) : Part :=
  let p := p.onJnc fun j => { j with dropTime := some (j.dropTime.getD p.now), endStaged := false }
  let p := p.markDirty pl
  if p.jnc.journal = .resync then p
  else (p.onJnc fun j => { j with journal := .resync }).postHeader

/-! ## The flash (R158) -/

def flashAddr (sector pos : Nat) : Nat := sector * 4096 + pos * 64

/-- The 64 bytes at an entry position. -/
def Flash.entryBytes (f : Flash) (sector pos : Nat) : List Byte := f.cells.readBlock flashBlank (flashAddr sector pos) 64

/-- Whether the 64 bytes at an entry position read all ones. -/
def Flash.positionErased (f : Flash) (sector pos : Nat) : Bool := (f.entryBytes sector pos).all (· == flashBlank)

/-- A page program turns bits from 1 to 0 only. -/
def Flash.program (f : Flash) (a : Nat) (bytes : List Byte) : Flash :=
  let old := f.cells.readBlock flashBlank a bytes.length
  { f with cells := f.cells.write flashBlank a (List.zipWith (· &&& ·) old bytes) }

/-- A sector erase returns the sector to all ones. -/
def Flash.eraseSector (f : Flash) (sector : Nat) : Flash := { f with cells := f.cells.clear (flashAddr sector 0) 4096 }

/-- No identification: the first byte reads 0x00 or 0xFF (R158). -/
def Flash.identified (f : Flash) : Bool := f.idByte != 0x00#8 && f.idByte != 0xFF#8

def nextSector (n : Nat) : Nat := if n = 1023 then 1 else n + 1

/-- The address a program writes and the bytes it writes (R160, R161, R173). The flags byte of the FORMAT entry shows no
DOCKET (DESIGN CHOICE, log 79). -/
def Part.programTarget (p : Part) (step : ProgramStep) : Nat × List Byte :=
  let at_ := flashAddr p.jnc.headSector p.jnc.headPos
  match step with
  | .entryBody => match p.jnc.queue with
    | e :: _ => (at_, entryBody e.payload (e.owner == .docket) p.jnc.nextSeq.toNat e.time)
    | [] => (at_, [])
  | .entryMark => (at_ + 63, [0])
  | .headBody => (at_, entryBody (.sectorHead p.jnc.serial.toNat p.jnc.nextSeq.toNat) false 0 p.jnc.port.since)
  | .headMark => (at_ + 63, [0])
  | .formatBody => match p.jnc.format with
    | some f => (0, entryBody (.formatEntry f.serial) false 0 f.time)
    | none => (0, [])
  | .formatMark => (63, [0])

/-! ## The arbiter (R158) -/

/-- Write enable, then the operation. -/
def Part.startJob (job : FlashJob) (p : Part) : Part :=
  p.onPort fun r => { r with job := some job, since := p.now, elapsed := 0, timedOut := false }

/-- Whether the oldest entry can be served now: its sector is open, or the sector it needs is free and can be opened
(R160). A sector whose SECTOR_HEAD failed at every position is left for the next. A sector that must first be erased is not
opened while the erase of a compaction is suspended: that erase is resumed and ended first, and after a power-fail warning,
which resumes none (R174 step 3), the entries wait (DESIGN CHOICE, log 106). -/
def Part.canServe (p : Part) : Bool :=
  let j := p.jnc
  if 64 ≤ j.headPos then
    let n := nextSector j.headSector
    n != j.tail && (!j.notErased.contains n || j.port.suspended.isNone)
  else j.sectorOpen || j.headPos != 0 || !j.notErased.contains j.headSector || j.port.suspended.isNone

/-- A sector is to be opened although no entry waits: the head has reached position 64, or the opening of the sector it
moved to has begun (R160). Staging closed for a warning or a reset opens one for an entry alone (log 60). -/
def Part.openingDue (p : Part) : Bool :=
  let j := p.jnc
  j.closing.isNone && (decide (64 ≤ j.headPos) || (!j.sectorOpen && !j.sectorCounted))

/-- The head moves to sector `n`, whose SECTOR_HEAD is to be programmed (R160). -/
def Part.moveHead (n : Nat) (p : Part) : Part :=
  p.onJnc fun j => { j with headSector := n, headPos := 0, sectorOpen := false, sectorCounted := false
                            notErased := n :: j.notErased }

/-- Begin what the oldest entry needs: its own program, or the opening of a sector (R160). -/
def Part.serveCommit (p : Part) : Part :=
  let j := p.jnc
  if 64 ≤ j.headPos then
    let n := nextSector j.headSector
    if j.notErased.contains n then p.startJob (.erase (.opening n))
    else (p.moveHead n).startJob (.program .headBody)
  else if j.sectorOpen then p.startJob (.program .entryBody)
  else if j.headPos == 0 && j.notErased.contains j.headSector then p.startJob (.erase (.opening j.headSector))
  else (p.onJnc fun j => { j with notErased := if j.notErased.contains j.headSector then j.notErased
                                               else j.headSector :: j.notErased }).startJob (.program .headBody)

/-- Erase resume: the erase timer goes on from where it stopped. -/
def Part.resumeErase (e : ErasePurpose) (p : Part) : Part :=
  p.onPort fun r => { r with job := some (.erase e), since := p.now, elapsed := r.suspendedMs, timedOut := false
                             suspended := none, suspendedMs := 0 }

/-- The erase of a compaction is running. -/
def Jnc.compactionErasing (j : Jnc) : Bool :=
  match j.port.job with
  | some (.erase (.compaction _)) => true
  | _ => false

/-- A power-fail warning has closed staging, and its reset has not been asked for. -/
def Jnc.warned (j : Jnc) : Bool :=
  match j.closing with
  | some c => !c.recover
  | none => false

/-- Closed staging with an empty queue takes its last TIME_MARK, stamped with the second of staging (R174 step 5);
outside RUNNING no journal entry is staged (R163). A FORMAT is waited for (R175), and after a power-fail warning the
suspension of a compaction's erase (R174 step 3). The hold for compaction does not stop this TIME_MARK (DESIGN CHOICE,
log 81). -/
def Part.closingMark (p : Part) : Part :=
  match p.jnc.closing with
  | some c =>
    if !c.marked && p.jnc.queue.isEmpty && p.jnc.format.isNone && p.jnc.journal != .failed &&
        (c.recover || !p.jnc.compactionErasing) then
      let p := p.onJnc fun j => { j with closing := some { c with marked := true } }
      if p.jnc.engine = .running then p.enqueue .internal [.timeMark none] else p
    else p
  | none => p

/-- A FORMAT whose queue has been committed stops staging, and abandons compaction and resync (R173 step 1). -/
def Part.stopStaging (p : Part) : Part :=
  match p.jnc.format with
  | some f =>
    if f.stage = .drain ∧ p.jnc.queue.isEmpty then
      p.onJnc fun j => { j with format := some { f with stage := .stopped }, compaction := .idle }
    else p
  | none => p

/-- A commit that waits, or a sector that is to be opened, can be served (R158, R160). A FORMAT opens a sector for an entry
alone. -/
def Part.commitDue (p : Part) : Bool :=
  (!p.jnc.queue.isEmpty || (p.openingDue && p.jnc.format.isNone)) && p.canServe

/-- The arbiter's choice when the port is free and no FORMAT runs: a commit that waits or a sector to be opened, else the
suspended erase, else, for a soft reset that has committed everything, main power-on (R158, R174, R175). A commit that cannot
be served beneath the suspended erase follows it (DESIGN CHOICE, log 106). -/
def Part.arbitrate (p : Part) : Part :=
  if p.commitDue then p.serveCommit
  else match p.jnc.port.suspended with
    | some e => match p.jnc.closing with
      | none => p.resumeErase e
      | some c => if c.recover then p.resumeErase e else p
    | none => match p.jnc.closing with
      | some c => if c.recover && p.jnc.queue.isEmpty then p.powerOn else p
      | none => p

/-- The arbiter while a FORMAT is at its first step: the queue is committed, an erase of a compaction resumed and waited
out, and then the erases of the format begin, with the failure count at 0 (R173; log 18). -/
def Part.arbitrateFormat (f : FormatRecord) (p : Part) : Part :=
  match f.stage with
  | .drain =>
    if !p.jnc.queue.isEmpty && p.canServe then p.serveCommit
    else match p.jnc.port.suspended with
      | some e => p.resumeErase e
      | none => p
  | .stopped => match p.jnc.port.suspended with
    | some e => p.resumeErase e
    | none =>
      (p.onJnc fun j => { j with format := some { f with stage := .erasing }, failures := 0 }).startJob
        (.erase (.format 0))
  | .erasing | .entry => p

/-- What an empty queue calls for is done, and the port is given its next operation, when it holds none. -/
def Part.pump (p : Part) : Part :=
  let p := p.closingMark.stopStaging
  if p.jnc.port.job.isSome then p
  else match p.jnc.format with
    | some f => p.arbitrateFormat f
    | none => if p.jnc.journal = .failed then p else p.arbitrate

/-! ## Offers -/

/-- Whether `n` docket-caused entries have places (R163). -/
def Part.docketRoom (p : Part) (n : Nat) : Bool :=
  decide (p.docketEntries + n ≤ Config.docketPlaces) && decide (p.jnc.queue.length + n ≤ Config.stagingPlaces) &&
    !p.held

/-- A docket-caused entry is offered: staged, or it waits behind those already waiting (R163). It is never dropped. -/
def Part.offerDocket (o : Offer) (p : Part) : Part :=
  if !p.stagingOpen then p
  else
    let pls := p.offerPayloads o
    if p.jnc.waiting.isEmpty && p.docketRoom pls.length then (p.enqueue .docket pls).pump
    else p.onJnc fun j => { j with waiting := j.waiting ++ [o] }

/-- An internal entry is offered: staged in any free place, or dropped (R163, R164). Outside RUNNING nothing is
staged. -/
def Part.offerInternal (pl : Payload) (p : Part) : Part :=
  if !p.stagingOpen || p.jnc.engine != .running then p
  else if decide (p.jnc.queue.length < Config.stagingPlaces) && !p.held then (p.enqueue .internal [pl]).pump
  else p.dropEntry pl

/-- The image of a slot as an internal entry (R12, R15, R16, R124, R125). -/
def Part.imageInternal (i : Fin 2048) (p : Part) : Part :=
  match p.slot i with
  | some c => p.offerInternal (.containerImage (imageOf i c))
  | none => p

/-- Every docket-caused entry of the docket in hand is committed (R149 step 1). -/
def Part.docketCommitted (p : Part) : Bool := p.jnc.waiting.isEmpty && p.docketEntries == 0

/-- R163: the oldest waiting entry is staged once it has places. The TIME_MARK of a SET_TIME that has waited carries the
second at which it is staged (DESIGN CHOICE, log 88). -/
def Part.resumeWaiting (p : Part) : Part :=
  match p.jnc.waiting with
  | o :: rest =>
    let pls := p.offerPayloads o
    if p.stagingOpen && p.docketRoom pls.length then
      ((p.onJnc fun j => { j with waiting := rest }).enqueue .docket pls).pump
    else p
  | [] => p

/-- The queue closes: the entries already offered are staged into any free place, without the docket limit; those that
find none are not staged (R174 step 2). The hold for compaction does not stop them (DESIGN CHOICE, log 81). -/
def Part.closeStaging (recover : Bool) (p : Part) : Part :=
  let formatting := p.jnc.format.isSome
  let p := p.jnc.waiting.foldl (fun p o =>
    let pls := p.offerPayloads o
    if decide (p.jnc.queue.length + pls.length ≤ Config.stagingPlaces) then p.enqueue .docket pls else p) p
  p.onJnc fun j => { j with waiting := [], closing := some { recover := recover, marked := formatting && !recover } }

/-! ## Failure (R159, R165) -/

/-- The docket in hand that its owner has finished, with its answer: it waits for its commits alone, and no longer for a
held trigger (R67) or, in SET_TIME, for the engine's entry to RUNNING (R172; log 12). -/
def Part.finishedDocket (p : Part) : Option (InHand × Answer) :=
  match p.exi.inHand with
  | some d => match d.stage with
    | .finished a =>
      if d.triggers.isEmpty ∧ (d.awaitRunning = false ∨ p.jnc.engine = .running) then some (d, a) else none
    | _ => none
  | none => none

/-- The journal is about to become FAILED: a docket that has finished and waits for no commit is durable, and its answer will
carry no NOT_DURABLE (R149 step 2). The docket of a FORMAT in progress has not finished (R173). -/
def Part.markDurable (p : Part) : Part :=
  match p.finishedDocket with
  | some (d, _) =>
    if p.docketCommitted ∧ p.jnc.format = none then p.setInHand (some { d with durable := true }) else p
  | none => p

/-- The journal becomes FAILED (R165). A FORMAT before its erases goes on without the queue; one that was erasing or
writing its entry fails (R173). A soft reset passes over its first steps (R175). -/
def Part.failJournal (p : Part) : Part :=
  let p := ((p.markDurable.onJnc fun j =>
    { j with journal := .failed, queue := [], waiting := [], compaction := .idle, port := .reset }).postHeader).raise
      .engine
  match p.jnc.format with
  | some f => if f.stage = .drain ∨ f.stage = .stopped then p.pump
      else
        let p := p.formatFailed
        match p.jnc.closing with
        | some c => if c.recover then p.powerOn else p
        | none => p
  | none => match p.jnc.closing with
    | some c => if c.recover then p.powerOn else p
    | none => p

/-- A failure raises the count; the second in a row makes the journal FAILED, and otherwise `retry` repeats (R159). -/
def Part.countFailure (retry : Part → Part) (p : Part) : Part :=
  if p.jnc.failures + 1 ≥ 2 then (p.onJnc fun j => { j with failures := 2 }).failJournal
  else retry (p.onJnc fun j => { j with failures := j.failures + 1 })

/-! ## Programs (R160, R161) -/

/-- The entry at the head of the queue has committed (R161). The RESYNC_END that no drop has followed ends the resync
(R166), and its DROP_MARK is then no longer one that compaction carries on (R167 step 1). -/
def Part.commitEntry (p : Part) : Part :=
  match p.jnc.queue with
  | [] => p
  | e :: rest =>
    let p := p.onJnc fun j =>
      { j with queue := rest, nextSeq := j.nextSeq + 1, headPos := j.headPos + 1
               newest := match e.payload.object with
                 | some o => (o, j.headSector) :: j.newest.filter (fun r => r.1 != o)
                 | none => j.newest
               dropMarkAt := match e.payload with
                 | .dropMark t => if j.journal = .resync then some (j.headSector, t) else j.dropMarkAt
                 | _ => j.dropMarkAt }
    match e.payload with
    | .resyncEnd =>
      if p.jnc.endStaged && !rest.any (fun e => e.payload == .resyncEnd) then
        (p.onJnc fun j => { j with journal := .ok, markStaged := false, dropMarkAt := none
                                   endStaged := false }).postHeader
      else p
    | _ => p

/-- The SECTOR_HEAD has committed: the sector is open, and a sector newly taken leaves the free count (R160). -/
def Part.openSector (p : Part) : Part :=
  let counted := p.jnc.sectorCounted
  let p := p.onJnc fun j => { j with sectorOpen := true, headPos := j.headPos + 1, sectorCounted := true
                                     freeCount := if counted then j.freeCount else j.freeCount - 1 }
  if counted then p else p.postHeader

def Part.freePort (p : Part) : Part := p.onPort fun r => { r with job := none, elapsed := 0, timedOut := false }

/-- What follows a program that succeeded. -/
def Part.programDone (step : ProgramStep) (p : Part) : Part :=
  let p := (p.onJnc fun j => { j with failures := 0 }).freePort
  match step with
  | .entryBody => p.startJob (.program .entryMark)
  | .entryMark => p.commitEntry.pump
  | .headBody => p.startJob (.program .headMark)
  | .headMark => p.openSector.pump
  | .formatBody => p.startJob (.program .formatMark)
  | .formatMark => match p.jnc.format with
    | some f => (p.formatDone f.serial).pump
    | none => p

/-- A sector whose SECTOR_HEAD has failed at every position is left for the next one (R160). It lies in the run from the
tail to the head from then on and leaves the free count (DESIGN CHOICE, log 90). -/
def Part.sectorSpent (p : Part) : Part :=
  if 64 ≤ p.jnc.headPos ∧ ¬ p.jnc.sectorOpen ∧ ¬ p.jnc.sectorCounted then
    (p.onJnc fun j => { j with sectorCounted := true, freeCount := j.freeCount - 1 }).postHeader
  else p

/-- A failed program is repeated: an entry and a SECTOR_HEAD at the next position (R160), the FORMAT entry where it
must lie (R169; log 21). -/
def Part.programAgain (step : ProgramStep) (p : Part) : Part :=
  let p := p.freePort
  match step with
  | .formatBody | .formatMark => p.startJob (.program .formatBody)
  | _ => (p.onJnc fun j => { j with headPos := j.headPos + 1 }).sectorSpent.pump

/-- What a program leaves in the flash, and whether it succeeded: the bytes read back are those programmed. Whatever the
flash makes of the bytes, bits turn from 1 to 0 only (R158, R159). -/
def Part.applyProgram (step : ProgramStep) (reply : ProgramReply) (p : Part) : Part × Bool :=
  let (a, bytes) := p.programTarget step
  let after (made : List Byte) : Part × Bool :=
    let f := p.flash.program a made
    ({ p with flash := f }, f.cells.readBlock flashBlank a bytes.length == bytes)
  match reply with
  | .latchClear => (p, false)
  | .done => after bytes
  | .altered made => after (made.take bytes.length)

/-- R161: a page program finishes and is verified. One that had failed on its timer is over now and is repeated. -/
def Part.programComplete (reply : ProgramReply) (p : Part) : Part :=
  match p.jnc.port.job with
  | some (.program step) =>
    let late := p.jnc.port.timedOut
    let (p, good) := p.applyProgram step reply
    if late then p.programAgain step
    else if good then p.programDone step
    else p.countFailure (Part.programAgain step)
  | _ => p

/-! ## Erases (R158, R159, R167) -/

def ErasePurpose.sector : ErasePurpose → Nat
  | .opening n => n
  | .compaction n => n
  | .format n => n

/-- What follows an erase that succeeded. The newest-entry record of an object that compaction has staged no image of goes on
naming the erased sector (DESIGN CHOICE, log 89). -/
def Part.eraseDone (e : ErasePurpose) (p : Part) : Part :=
  let p := (p.onJnc fun j => { j with failures := 0, notErased := j.notErased.filter (· != e.sector) }).freePort
  match e with
  | .opening _ => p.pump
  | .compaction n =>
    ((p.onJnc fun j => { j with tail := nextSector n, freeCount := j.freeCount + 1
                                compaction := .idle }).postHeader).pump
  | .format n =>
    if n < 1023 then p.startJob (.erase (.format (n + 1)))
    else
      (p.onJnc fun j => { j with format := j.format.map fun f => { f with stage := .entry } }).startJob
        (.program .formatBody)

/-- A failed erase is repeated on the same sector (R159). The erase of a compaction gives the port up first to a commit that
waits, or to a sector that is to be opened (R158), and is begun again by COMPACTION_ERASE; after a power-fail warning it is
not begun again (R174 step 3; log 14). -/
def Part.eraseAgain (e : ErasePurpose) (p : Part) : Part :=
  match e with
  | .compaction _ =>
    if p.jnc.warned || p.commitDue then ((p.onJnc fun j => { j with compaction := .marked }).freePort).pump
    else p.startJob (.erase e)
  | _ => p.startJob (.erase e)

/-- R159, R167: a sector erase ends. -/
def Part.eraseComplete (reply : EraseReply) (p : Part) : Part :=
  match p.jnc.port.job with
  | some (.erase e) =>
    let late := p.jnc.port.timedOut
    match reply with
    | .latchClear => if late then p else p.countFailure (Part.eraseAgain e)
    | .done =>
      let p := { p with flash := p.flash.eraseSector e.sector }
      if late then p.eraseAgain e else p.eraseDone e
  | _ => p

/-- The erase of a compaction is to be suspended for a power-fail warning (R174 step 3); a FORMAT keeps its erases. -/
def Part.warningSuspends (p : Part) : Bool := p.jnc.warned && p.jnc.format.isNone

/-- R158: a commit waits behind the busy erase of a compaction, or a warning calls for its suspension (R174); the erase is
suspended and the commit served. -/
def Part.suspendErase (p : Part) : Part :=
  match p.jnc.port.job with
  | some (.erase (.compaction n)) =>
    if !p.jnc.port.timedOut && (p.warningSuspends || (!p.jnc.queue.isEmpty && p.canServe)) then
      (p.onPort fun r => { r with job := none, suspended := some (.compaction n), suspendedMs := r.elapsed
                                  elapsed := 0 }).pump
    else p
  | _ => p

/-- R159: an operation outlasts its timer; the JNC polls on until busy clears. A suspend that fails counts as a
failure of the erase it was meant to suspend. -/
def Part.flashTimeout (op : TimedFlashOp) (p : Part) : Part :=
  if p.jnc.port.timedOut then p
  else
    let late (p : Part) : Part := p.onPort fun r => { r with timedOut := true, elapsed := 0 }
    match p.jnc.port.job, op with
    | some (.program _), .program => p.countFailure late
    | some (.erase _), .erase => p.countFailure late
    | some (.erase (.compaction _)), .suspend =>
      if p.warningSuspends || !p.jnc.queue.isEmpty then p.countFailure late else p
    | _, _ => p

/-- R159: busy is still set 500 ms after the failure. -/
def Part.busyOutlasts (p : Part) : Part :=
  if p.jnc.port.timedOut && p.jnc.port.job.isSome then p.failJournal else p

/-! ## Compaction (R167) -/

/-- The JNC's own housekeeping runs: RUNNING, the journal not FAILED, staging open. -/
def Part.housekeeping (p : Part) : Bool := p.stagingOpen && p.jnc.engine == .running

/-- The fresh image of an object; a FREE slot, an UNUSED zone and an undefined class get none. -/
def Part.objectPayloads (p : Part) : JournalObject → List Payload
  | .slot i => p.offerPayloads (.image i)
  | .zone z => if (p.zone z).config.kind = .unused then [] else [.zoneImage z (p.zone z).image]
  | .cls n => if (p.cls n).defn.isSome then p.offerPayloads (.cls n) else []
  | .part q => p.offerPayloads (.part q)

/-- The DROP_MARK the tail holds, when its resync has not ended. -/
def Part.tailDropMark (p : Part) : Option Nat :=
  match p.jnc.dropMarkAt with
  | some (n, t) => if n = p.jnc.tail ∧ p.jnc.journal = .resync then some t else none
  | none => none

/-- Stage the fresh images one object at a time, each while the queue holds fewer than 32 entries, and then the DROP_MARK,
unless its resync has ended meanwhile. -/
def Part.stageObjects : List JournalObject → Option Nat → Part → Part
  | [], mark, p =>
    match mark, p.tailDropMark with
    | some _, some t =>
      if p.jnc.queue.length < Config.jncPlaces then
        (p.enqueue .compaction [.dropMark t]).onJnc fun j => { j with compaction := .imaging [] none }
      else p.onJnc fun j => { j with compaction := .imaging [] mark }
    | _, _ => p.onJnc fun j => { j with compaction := .imaging [] none }
  | o :: rest, mark, p =>
    if p.jnc.queue.length < Config.jncPlaces then
      Part.stageObjects rest mark (p.enqueue .compaction (p.objectPayloads o))
    else p.onJnc fun j => { j with compaction := .imaging (o :: rest) mark }

/-- R167 step 1. The port reads the tail sector when it holds nothing, no operation and no suspended erase (R158); what is
to be staged then follows as the queue has places. The images are staged in the order of the newest-entry list, the
DROP_MARK after them (DESIGN CHOICE, log 78). -/
def Part.compactionImages (p : Part) : Part :=
  if !p.housekeeping then p
  else match p.jnc.compaction with
    | .idle =>
      if p.jnc.freeCount < Config.compactBelow ∧ p.jnc.port.job = none ∧ p.jnc.port.suspended = none then
        (p.stageObjects ((p.jnc.newest.filter fun r => r.2 == p.jnc.tail).map (·.1)) p.tailDropMark).pump
      else p
    | .imaging todo mark => (Part.stageObjects todo mark p).pump
    | _ => p

/-- No entry of the compaction is left in the queue. -/
def Part.compactionCommitted (p : Part) : Bool := !p.jnc.queue.any fun e => e.owner == .compaction

/-- R167 steps 2 and 3. -/
def Part.compactionTimeMark (p : Part) : Part :=
  if p.housekeeping && p.jnc.compaction == .imaging [] none && p.compactionCommitted &&
      decide (p.jnc.queue.length < Config.jncPlaces) then
    ((p.enqueue .compaction [.timeMark (some p.jnc.tail)]).onJnc fun j => { j with compaction := .marked }).pump
  else p

/-- R167 step 4: the erase begins when the port holds nothing and no commit waits. -/
def Part.compactionErase (p : Part) : Part :=
  if p.housekeeping && p.jnc.compaction == .marked && p.compactionCommitted && p.jnc.port.job.isNone &&
      p.jnc.port.suspended.isNone then
    (p.onJnc fun j => { j with compaction := .erasing }).startJob (.erase (.compaction p.jnc.tail))
  else p

/-! ## The commands of the flash port and the staging queue -/

/-- DOCKET_STAGING_RESUME (R163). -/
def execDocketStagingResume (s : State) : Host.Outcome State Fault Refusal :=
  .next (s.powered fun p => p.resumeWaiting)

/-- PROGRAM_COMPLETE (R161). -/
def execProgramComplete (reply : ProgramReply) (s : State) : Host.Outcome State Fault Refusal :=
  .next (s.powered fun p => p.programComplete reply)

/-- ERASE_SUSPEND (R158). -/
def execEraseSuspend (s : State) : Host.Outcome State Fault Refusal := .next (s.powered fun p => p.suspendErase)

/-- FLASH_TIMEOUT (R159). -/
def execFlashTimeout (op : TimedFlashOp) (s : State) : Host.Outcome State Fault Refusal :=
  .next (s.powered fun p => p.flashTimeout op)

/-- BUSY_OUTLASTS_BOUND (R159). -/
def execBusyOutlastsBound (s : State) : Host.Outcome State Fault Refusal :=
  .next (s.powered fun p => p.busyOutlasts)

/-- COMPACTION_IMAGES (R167 step 1). -/
def execCompactionImages (s : State) : Host.Outcome State Fault Refusal :=
  .next (s.powered fun p => p.compactionImages)

/-- COMPACTION_TIME_MARK (R167 step 3). -/
def execCompactionTimeMark (s : State) : Host.Outcome State Fault Refusal :=
  .next (s.powered fun p => p.compactionTimeMark)

/-- COMPACTION_ERASE (R167 step 4). -/
def execCompactionErase (s : State) : Host.Outcome State Fault Refusal :=
  .next (s.powered fun p => p.compactionErase)

/-- ERASE_COMPLETE (R167 step 5, R159). -/
def execEraseComplete (reply : EraseReply) (s : State) : Host.Outcome State Fault Refusal :=
  .next (s.powered fun p => p.eraseComplete reply)

/-- TIME_MARK_INTERVAL: 60 seconds in RUNNING since the last TIME_MARK was staged (R162). -/
def execTimeMarkInterval (s : State) : Host.Outcome State Fault Refusal :=
  .next (s.powered fun p =>
    if p.jnc.engine == .running && decide (Config.timeMarkSeconds ≤ p.jnc.sinceMark) then
      p.offerInternal (.timeMark none)
    else p)

end Sys2Proof.Machine
end

