-- ==== Sys2Proof/Machine/Accounting.lean ====
section
/-! DEFINITION. The exposure account: settling, modes, warnings, dues, and carrying a change through (R1, R8 to R21,
R39, R121 to R124, R136 to R138). -/

namespace Sys2Proof.Machine

/-! ## Settling (R10, R12, R123) -/

/-- R − what a container has left of its limit. -/
def remaining (k : ClassDef) (c : Container) : Nat := k.limit - c.exposure

/-- Seconds of running bake still to come. -/
def bakeLeft (k : ClassDef) (c : Container) : Nat := k.bakeDuration * 60 - c.bakeProgress.getD 0

/-- The expiry: custody EXPIRED, mode HOLD (R12, R134). -/
def Container.expire (c : Container) : Container := { c with custody := .expired, mode := .hold }

/-- R12: a SEALED or OPEN container at its limit is EXPIRED. -/
def limitRule (k : ClassDef) (c : Container) : Container :=
  if (c.custody = .sealed ∨ c.custody = .opened) ∧ k.limit ≤ c.exposure then c.expire else c

/-- R124 steps 1 to 4; the mode OPEN has in the oven is HOLD. -/
def Container.completeBake (c : Container) : Container :=
  { c with exposure := 0, bakeCount := c.bakeCount + 1, custody := .opened, bakedThisStay := true
           bakeProgress := none, bakeRunStart := none, mode := .hold }

/-- Settle to `T`, with the expiry or bake completion the interval holds, and whether that calls for an image.
A time before S changes nothing (R10). A bake completes where its progress reaches the duration: a settle to a BAKE_DUE capped
short of that completes nothing, and the entry is placed again at the cap (DESIGN CHOICE, log 98). -/
def settleRecord (k : ClassDef) (T : Nat) (c : Container) : Container × Bool :=
  if T < c.settled then (c, false)
  else
    let dt := T - c.settled
    match c.mode with
    | .accrue m =>
      let c' := { c with exposure := min k.limit (c.exposure + dt * m), settled := T }
      if c.custody = .opened ∧ k.limit ≤ c.exposure + dt * m then (c'.expire, true) else (c', false)
    | .credit r => ({ c with exposure := c.exposure - dt * r, settled := T }, false)
    | .hold | .bakePause => ({ c with settled := T }, false)
    | .bakeRun =>
      if bakeLeft k c ≤ dt then ({ c.completeBake with settled := T }, true)
      else ({ c with bakeProgress := some (c.bakeProgress.getD 0 + dt), settled := T }, false)

/-! ## Modes (R9, R17, R121) -/

/-- The credit decision (R17). -/
def creditTaken (k : ClassDef) (c : Container) : Bool :=
  decide (0 < k.ceiling) && decide (c.exposure ≤ k.creditLimit)

/-- The bake test's temperature range, both ends included (R121). -/
def inBakeRange (k : ClassDef) (held : Option Reading) : Bool :=
  match held with
  | some r => decide ((k.bakeTemp : Int) ≤ r.temp) && decide (r.temp ≤ (k.bakeMax : Int))
  | none => false

/-- The table of R9. With `keep`, the zone stays DRYING with the container in it and OPEN, so the outcome of its credit
decision stands (R17, R18). The cells the table marks "not held" give HOLD, as does a zone without a condition. -/
def deriveMode (k : ClassDef) (condition : Option Condition) (held : Option Reading) (keep : Bool)
    (c : Container) : Mode :=
  match condition with
  | some (.exposing m) | some (.dryFailed m) =>
    if c.custody = .opened ∨ c.custody = .quarantined then .accrue m else .hold
  | some (.drying r) =>
    if c.custody = .opened then
      if keep then
        match c.mode with
        | .credit _ => .credit r
        | _ => .hold
      else if creditTaken k c then .credit r
      else .hold
    else .hold
  | some .ovenReady =>
    if c.custody = .baking then (if inBakeRange k held then .bakeRun else .bakePause) else .hold
  | some .ovenPaused => if c.custody = .baking then .bakePause else .hold
  | none => .hold

/-- Take a mode; the bake run start is present exactly in BAKE_RUN and stays through a run (R23, R121). A run starts at S,
also where S lies after the time of the condition change that starts it (DESIGN CHOICE, log 70). -/
def Container.setMode (m : Mode) (c : Container) : Container :=
  { c with mode := m
           bakeRunStart := if m = .bakeRun then (if c.mode = .bakeRun then c.bakeRunStart else some c.settled)
                           else none }

/-! ## Warnings (R15, R16) and dues (R13, R14) -/

/-- The warn test and the warn clearing, and whether an image is called for. -/
def warnRecord (k : ClassDef) (c : Container) : Container × Bool :=
  if c.custody = .opened ∧ c.warned = false ∧ 0 < k.warnTicks ∧ remaining k c ≤ k.warnTicks then
    ({ c with warned := true }, true)
  else if c.custody ≠ .quarantined ∧ c.warned = true ∧ k.warnTicks < remaining k c then
    ({ c with warned := false }, true)
  else (c, false)

/-- A due beyond the last second is stored as the last second (R13). -/
def capDue (n : Nat) : Nat := min n Config.lastSecond

/-- The warn due and the expire due from the state just settled (R13). -/
def withDues (k : ClassDef) (c : Container) : Container :=
  match c.custody, c.mode with
  | .opened, .accrue m =>
    if 0 < m then
      { c with
        warnDue := if c.warned = false ∧ 0 < k.warnTicks ∧ k.warnTicks < remaining k c then
            some (capDue (c.settled + ceilDiv (remaining k c - k.warnTicks) m)) else none
        expireDue := some (capDue (c.settled + ceilDiv (remaining k c) m)) }
    else { c with warnDue := none, expireDue := none }
  | _, _ => { c with warnDue := none, expireDue := none }

/-- The bake due (R121). One capped at the last second may lie before the bake's end (log 98). -/
def bakeDue (k : ClassDef) (c : Container) : Nat := capDue (c.settled + bakeLeft k c)

/-- The deadline entry (R14). -/
def dueEntry (k : ClassDef) (c : Container) : Option (Nat × DueKind) :=
  match c.warnDue, c.expireDue with
  | some d, _ => some (d, .warnDue)
  | none, some d => some (d, .expireDue)
  | none, none => if c.mode = .bakeRun then some (bakeDue k c, .bakeDue) else none

/-! ## Reports (R39, R136 to R138) -/

/-- The header count of a level. -/
def Dlu.count (d : Dlu) : AlertLevel → Nat
  | .none => 0
  | .warn => d.warnCount
  | .expired => d.expiredCount
  | .quarantined => d.quarantinedCount

def Dlu.setCount (l : AlertLevel) (n : Nat) (d : Dlu) : Dlu :=
  match l with
  | .none => d
  | .warn => { d with warnCount := n }
  | .expired => { d with expiredCount := n }
  | .quarantined => { d with quarantinedCount := n }

/-- A level report: the header counts move (R138). -/
def Part.countLevel (old new : AlertLevel) (p : Part) : Part :=
  let p := p.onDlu fun d => d.setCount old (d.count old - 1)
  (p.onDlu fun d => d.setCount new (d.count new + 1)).postHeader

/-- A level report: the counts, and ALERT for a rise (R137, R138). -/
def Part.reportLevel (old new : AlertLevel) (p : Part) : Part :=
  if old = new then p
  else
    let p := p.countLevel old new
    if old.rank < new.rank then p.handRise else p

/-- Post a slot's summary when it has changed (R19 step 5, R20). -/
def Part.postIfChanged (i : Fin 2048) (old new : Option Container) (p : Part) : Part :=
  if containerSummary p.classDef old = containerSummary p.classDef new then p else p.postSlot i

/-- Move a zone's blocking and warned counts and report them to the DOU when a part of a contribution changes
(R39, R97). -/
def Part.moveCounts (z : Fin 64) (oldBlocks oldWarned blocks warned : Bool) (p : Part) : Part :=
  if oldBlocks = blocks ∧ oldWarned = warned then p
  else
    let r := p.zone z
    (p.setZone z { r with blocking := r.blocking - oldBlocks.toNat + blocks.toNat
                          warnedCount := r.warnedCount - oldWarned.toNat + warned.toNat }).reportCounts z

/-- An entry: the container joins the tail of its zone's member list (R39). -/
def Part.joinZone (i : Fin 2048) (c : Container) (p : Part) : Part :=
  let r := p.zone c.zone
  (p.setZone c.zone { r with members := r.members ++ [i] }).moveCounts c.zone false false c.blocks c.countsWarned

/-- An exit: the container leaves the list, the others keeping their order (R39). -/
def Part.leaveZone (i : Fin 2048) (c : Container) (p : Part) : Part :=
  let r := p.zone c.zone
  (p.setZone c.zone { r with members := r.members.filter (· != i) }).moveCounts c.zone c.blocks c.countsWarned
    false false

/-- Put a slot's deadline entry in place (R14, R130). -/
def Part.placeDue (i : Fin 2048) (c : Container) (p : Part) : Part :=
  match dueEntry (p.classDef c.cls) c with
  | some (d, kind) => p.onDlu (Dlu.place i d kind)
  | none => p.onDlu (Dlu.remove i)

/-- R19 steps 3 to 5 for a container that stays in its zone: the record, its deadline entry, its contribution, its
level and its summary. -/
def Part.commitRecord (i : Fin 2048) (old c : Container) (p : Part) : Part :=
  let p := (p.setSlot i (some c)).placeDue i c
  let p := p.moveCounts c.zone old.blocks old.countsWarned c.blocks c.countsWarned
  (p.reportLevel old.level c.level).postIfChanged i (some old) (some c)

/-- R19 steps 1 to 3: the mode from custody and zone, the warn test and clearing, the dues. -/
def Part.deriveRecord (keep : Bool) (c : Container) (p : Part) : Container × Bool :=
  let k := p.classDef c.cls
  let z := p.zone c.zone
  let (c, w) := warnRecord k (c.setMode (deriveMode k z.condition z.held keep c))
  (withDues k c, w)

/-! ## Settling in the table -/

/-- Settle slot `i` to `T` (R11), make the change `f`, and carry it through (R19). Says whether the settle or the
warn test calls for an image. -/
def Part.changeTo (i : Fin 2048) (T : Nat) (keep : Bool) (f : Container → Container) (p : Part) : Part × Bool :=
  match p.slot i with
  | some c =>
    let (c1, a) := settleRecord (p.classDef c.cls) T c
    let (c2, b) := p.deriveRecord keep (f c1)
    (p.commitRecord i c c2, a || b)
  | none => (p, false)

/-- Stage a slot's internal image when one is called for. -/
def Part.imageIf (i : Fin 2048) (r : Part × Bool) : Part := if r.2 then r.1.imageInternal i else r.1

/-- A change that keeps a zone DRYING keeps the credit decisions (R18). -/
def staysDrying : Option Condition → Option Condition → Bool
  | some (.drying _), some (.drying _) => true
  | _, _ => false

/-- A condition change reaches one member: it is settled to the condition time under the mode it had, takes the new
condition, and its summary is posted, changed or not (R19 step 5). The change is dropped when its last member has been
reached (R66). Whatever brings the change to the member, a warning, clearing or expiry that this settle finds is the
change's, and its image an internal one (DESIGN CHOICE, log 56). A BAKING member of an oven reached late is put to the test at
the temperature that the zone holds when it is reached (DESIGN CHOICE, log 92). -/
def Part.reachMember (i : Fin 2048) (z : Fin 64) (p : Part) : Part :=
  match (p.zone z).change with
  | some h =>
    if h.remaining.contains i then
      let r := p.zone z
      let rest := h.remaining.filter (· != i)
      let p := p.putZone z { r with change := if rest.isEmpty then none else some { h with remaining := rest } }
      let (p, img) := p.changeTo i h.time (staysDrying h.old r.condition) id
      Part.imageIf i (p.postSlot i, img)
    else p
  | none => p

/-- Other work on a container finds it reached by a change of its zone that is under way (R66). -/
def Part.reached (i : Fin 2048) (p : Part) : Part :=
  match p.slot i with
  | some c => p.reachMember i c.zone
  | none => p

/-- Settle a slot to `T` with nothing else changing, and say whether an image is called for. -/
def Part.settleSlot (i : Fin 2048) (T : Nat) (p : Part) : Part × Bool := (p.reached i).changeTo i T true id

end Sys2Proof.Machine
end

