-- ==== Sys2Proof/Machine/Zones.lean ====
section
/-! DEFINITION. The Zone Unit: bands, the derating walk, conditions, triggers and condition changes, and the dockets
SET_ZONE, SET_CONDITIONS and SET_ENGINE (R5, R6, R47 to R69). -/

namespace Sys2Proof.Machine

/-- A check of a docket: when it fails, the docket has that result. -/
def check {α : Type} (ok : Bool) (r : ResultCode) (rest : Except ResultCode α) : Except ResultCode α :=
  if ok then rest else .error r

/-! ## Bands (R52, R53) -/

/-- The plain band: how many edges lie at or below the value. -/
def plainBand (edges : List Int) (v : Int) : Nat := (edges.filter fun e => decide (e ≤ v)).length

/-- Whether a value lies in band `k` widened by the hysteresis `h`: the lower end included, the upper excluded; the
lowest band has no lower limit and the highest no upper. -/
def keepsBand (edges : List Int) (h : Nat) (k : Nat) (v : Int) : Bool :=
  (k == 0 || decide (edges.getD (k - 1) 0 - (h : Int) ≤ v)) &&
  (decide (edges.length ≤ k) || decide (v < edges.getD k 0 + (h : Int)))

/-- One quantity's band: kept within the hysteresis when there is a basis, else the plain band. -/
def nextBand (edges : List Int) (h : Nat) (basis : Option Nat) (v : Int) : Nat :=
  match basis with
  | some k => if keepsBand edges h k v then k else plainBand edges v
  | none => plainBand edges v

/-- A band number as the zone holds it. -/
def bandFin (n : Nat) [NeZero n] (k : Nat) : Fin n := Fin.ofNat n k

def Znu.tempList (u : Znu) : List Int := u.tempEdges.toList

def Znu.rhList (u : Znu) : List Int := u.rhEdges.toList.map fun v => (v : Int)

/-- The bands an evaluation gives; absent while the held reading is absent (R53). -/
def Znu.bandsOf (u : Znu) (r : Zone) : Option (Fin 6 × Fin 8) :=
  match r.held with
  | none => none
  | some v =>
    let basis := if r.basis then r.bands else none
    some (bandFin 6 (nextBand u.tempList u.settings.tempHyst (basis.map fun b => b.1.val) v.temp),
          bandFin 8 (nextBand u.rhList u.settings.rhHyst (basis.map fun b => b.2.val) (v.rh : Int)))

/-! ## The walk (R54, R56) -/

/-- The cell of a t-band and an RH-band. -/
def Znu.cell (u : Znu) (b : Fin 6 × Fin 8) : Cell := u.cells[8 * b.1.val + b.2.val]'(by omega)

/-- The cells the walk tries, in order: each row from `t` up, each from column `h` up. -/
def walkOrder (b : Fin 6 × Fin 8) : List (Fin 6 × Fin 8) :=
  ((List.finRange 6).filter fun t => decide (b.1 ≤ t)).flatMap fun t =>
    ((List.finRange 8).filter fun h => decide (b.2 ≤ h)).map fun h => (t, h)

/-- The first enabled cell; none is the ceiling. -/
def Znu.walk (u : Znu) (b : Fin 6 × Fin 8) : Option (Fin 6 × Fin 8) := (walkOrder b).find? fun c => (u.cell c).enabled

/-! ## Conditions (R60 to R62) -/

/-- The m of a zone that another takes as its reference. -/
def Part.referenceRate (p : Part) (z : Fin 64) : Nat := conditionRate (p.zone z).condition

/-- What a re-evaluation gives a zone record: its working fields, and the condition decided (R64). -/
def Part.evaluated (p : Part) (r : Zone) : Zone × Option Condition :=
  let bands := p.znu.bandsOf r
  let r := { r with bands := bands, basis := r.held.isSome, walked := none, ceilingUsed := false }
  let ceiling := p.znu.settings.ceiling
  let fit := r.held.isSome && !r.doorOpen && !r.stale
  match r.config.kind with
  | .unused => (r, none)
  | .floor | .line =>
    match (if r.stale then none else bands.bind p.znu.walk) with
    | some c => ({ r with walked := some c }, some (.exposing (p.znu.cell c).mult))
    | none => ({ r with ceilingUsed := true }, some (.exposing ceiling))
  | .dry =>
    let dryEnough := match r.held with
      | some v => decide (v.rh ≤ r.config.dryThreshold)
      | none => false
    if fit && dryEnough then (r, some (.drying r.config.creditRate))
    else match r.config.reference with
      | some f => (r, some (.dryFailed (p.referenceRate f)))
      | none => ({ r with ceilingUsed := true }, some (.dryFailed ceiling))
  | .oven => (r, some (if fit then .ovenReady else .ovenPaused))

/-! ## The condition change (R65, R66) -/

/-- Carry a change to the members in list order, to as many as the command reaches (R66). -/
def Part.carryChange (z : Fin 64) (reach : Reach) (p : Part) : Part :=
  match (p.zone z).change with
  | some h =>
    let now := match reach with
      | none => h.remaining
      | some n => h.remaining.take n
    now.foldl (fun p i => p.reachMember i z) p
  | none => p

/-- Re-evaluate a zone at a trigger's time, with the condition change that follows; `own` marks the evaluation of the
zone's own SET_ZONE, which its ZONE_IMAGE journals (R69). The flag says that a FLOOR or LINE zone's m changed. -/
def Part.evaluateOne (z : Fin 64) (t : Nat) (own : Bool) (reach : Reach) (p : Part) : Part × Bool :=
  let r := p.zone z
  let (r', condition) := p.evaluated r
  if condition = r.condition then (p.setZone z r', false)
  else
    let c := max t r.conditionTime
    let change := if r.members.isEmpty then none
      else some { old := r.condition, time := c, remaining := r.members }
    let p := p.setZone z { r' with condition := condition, conditionTime := c, change := change }
    let p := if own then p else p.offerInternal (.zoneCondition z (p.zone z).conditionImage)
    (p.carryChange z reach, r.config.kind.walks && conditionRate condition != conditionRate r.condition)

/-- A zone with a change in progress holds its triggers (R67). So does one whose change has been dropped while triggers
still wait: a trigger that comes then waits too, and replaces one of its source (DESIGN CHOICE, log 73). -/
def Zone.busy (r : Zone) : Bool :=
  r.change.isSome || r.waitReading.isSome || r.waitDoor.isSome || r.waitConfig.isSome

/-- Hold a trigger: it replaces one of its source; a docket that waits for the replaced one waits for it (R67). The mark
of a zone's own SET_ZONE passes to the trigger that replaces its own (DESIGN CHOICE, log 66). -/
def Zone.wait (r : Zone) (src : TriggerSource) (t : Nat) (own : Bool) : Zone :=
  match src with
  | .reading => { r with waitReading := some { time := t, own := false } }
  | .door => { r with waitDoor := some { time := t, own := false } }
  | .configuration =>
    { r with waitConfig := some { time := t, own := own || (r.waitConfig.map (·.own)).getD false } }

/-- Take a trigger for a zone that no other zone follows. -/
def Part.triggerOne (src : TriggerSource) (z : Fin 64) (t : Nat) (own : Bool) (reach : Reach) (p : Part) : Part × Bool :=
  if (p.zone z).busy then (p.putZone z ((p.zone z).wait src t own), false) else p.evaluateOne z t own reach

/-- R63: the DRY zones that follow a zone take a configuration trigger at `t`. -/
def Part.triggerFollowers (z : Fin 64) (t : Nat) (reach : Reach) (p : Part) : Part :=
  (p.dryZonesOf z).foldl (fun p y => (p.triggerOne .configuration y t false reach).1) p

/-- Re-evaluate a zone, and trigger the DRY zones that follow it when its m changed (R65 step 6). -/
def Part.evaluateZone (z : Fin 64) (t : Nat) (own : Bool) (reach : Reach) (p : Part) : Part :=
  let (p, rateChanged) := p.evaluateOne z t own reach
  if rateChanged then p.triggerFollowers z (p.zone z).conditionTime reach else p

/-- A trigger of a zone at time `t` (R64, R67). -/
def Part.trigger (src : TriggerSource) (z : Fin 64) (t : Nat) (own : Bool) (reach : Reach) (p : Part) : Part :=
  if (p.zone z).busy then p.putZone z ((p.zone z).wait src t own) else p.evaluateZone z t own reach

/-! ## Waiting triggers (R67) -/

/-- The waiting trigger to take first: the earliest, and reading, door, configuration among equal times. -/
def Zone.nextTrigger (r : Zone) : Option (TriggerSource × Trigger) :=
  let ready := (r.waitReading.map fun q => (TriggerSource.reading, q)).toList ++
    (r.waitDoor.map fun q => (TriggerSource.door, q)).toList ++
    (r.waitConfig.map fun q => (TriggerSource.configuration, q)).toList
  ready.find? fun q => ready.all fun o => decide (q.2.time ≤ o.2.time)

def Zone.dropTrigger (r : Zone) : TriggerSource → Zone
  | .reading => { r with waitReading := none }
  | .door => { r with waitDoor := none }
  | .configuration => { r with waitConfig := none }

/-- A docket's count of the zones whose condition changed for it goes up (R55). -/
def InHand.countZone (d : InHand) : InHand :=
  match d.request, d.stage with
  | .setConditions _, .finished a => { d with stage := .finished { a with first := a.first + 1 } }
  | _, _ => d

/-- A configuration trigger that a docket waited for has been taken; the ZONE_IMAGE of the zone's own SET_ZONE carries the
zone as this evaluation left it (R51, R55, R67). -/
def Part.triggerTaken (z : Fin 64) (own changed : Bool) (p : Part) : Part :=
  let p := if own then p.offerDocket (.zone z (p.zone z).image) else p
  match p.exi.inHand with
  | some d =>
    if d.triggers.contains z then
      let d := { d with triggers := d.triggers.filter (· != z) }
      p.setInHand (some (if changed then d.countZone else d))
    else p
  | none => p

/-- The last member is reached, the change is dropped, and the earliest waiting trigger is taken (R67): at its own time,
on the zone record as it stands then (DESIGN CHOICE, log 65). -/
def Part.takeWaiting (z : Fin 64) (reach : Reach) (p : Part) : Part :=
  let p := p.carryChange z none
  match (p.zone z).nextTrigger with
  | some (src, q) =>
    let before := (p.zone z).condition
    let p := (p.putZone z ((p.zone z).dropTrigger src)).evaluateZone z q.time q.own reach
    if src = .configuration then p.triggerTaken z q.own ((p.zone z).condition != before) else p
  | none => p

/-! ## Readings, staleness, doors (R57 to R59, R62, R122, R125) -/

/-- An overheated bake: abandoned, QUARANTINED with cause OVERHEAT (R125). -/
def overheat (k : ClassDef) (temp : Int) (c : Container) : Container :=
  if c.custody = .baking ∧ (k.bakeMax : Int) < temp then
    { c with custody := .quarantined, quarantineCause := some .overheat, bakeProgress := none, bakeRunStart := none }
  else c

/-- A temperature passed to one BAKING member: settled, then the overheat test, then the run or pause test
(R122, R125). A member whose bake test has changed is posted, whatever its summary shows (R19 step 5). -/
def Part.passTo (i : Fin 2048) (temp : Int) (t : Nat) (p : Part) : Part :=
  let p := p.reached i
  match p.slot i with
  | some c =>
    if c.custody = .baking then
      let (p, img) := p.changeTo i t true (overheat (p.classDef c.cls) temp)
      match p.slot i with
      | some c' =>
        Part.imageIf i (if c'.mode = c.mode then p else p.postSlot i, img || c'.custody == .quarantined)
      | none => p
    else p
  | none => p

/-- Pass a temperature to every BAKING member of an oven, in member-list order (R62). -/
def Part.passReading (z : Fin 64) (temp : Int) (t : Nat) (p : Part) : Part :=
  if (p.zone z).config.kind = .oven then (p.zone z).members.foldl (fun p i => p.passTo i temp t) p else p

/-- A good reading delivered to a zone at `t`: held, PROBE_STALE cleared, a reading trigger, and passed to a BAKING
member (R57, R58, R62). -/
def Part.deliverReading (z : Fin 64) (v : Reading) (t : Nat) (reach : Reach) (p : Part) : Part :=
  let p := p.setZone z { p.zone z with held := some v, stale := false }
  (p.trigger .reading z t false reach).passReading z v.temp t

/-- A report that a zone's probe is STALE or OFF (R58). -/
def Part.reportStale (z : Fin 64) (t : Nat) (reach : Reach) (p : Part) : Part :=
  let gain := !(p.zone z).stale
  let p := p.setZone z { p.zone z with stale := true }
  let p := if gain then p.handRise else p
  p.trigger .reading z t false reach

/-- A door state reported for a zone (R49, R59). -/
def Part.reportDoor (z : Fin 64) (isOpen : Bool) (t : Nat) (reach : Reach) (p : Part) : Part :=
  if (p.zone z).config.kind = .unused then p
  else (p.setZone z { p.zone z with doorOpen := isOpen }).trigger .door z t false reach

/-- DOOR_AJAR reported set or clear; a gain goes to the alert logic (R49, R59). -/
def Part.reportAjar (z : Fin 64) (ajar : Bool) (p : Part) : Part :=
  if (p.zone z).config.kind = .unused then p
  else
    let gain := ajar && !(p.zone z).ajar
    let p := p.setZone z { p.zone z with ajar := ajar }
    if gain then p.handRise else p

/-! ## SET_ZONE (R50, R51, R96) -/

/-- The zones other than `z` that bind a line output. -/
def Part.outputTaken (p : Part) (z : Fin 64) (o : Fin 8) : Bool :=
  (List.finRange 64).any fun y => y != z && (p.zone y).config.kind == .line && (p.zone y).config.lineOutput == some o

/-- The configuration that the arguments give a kind; fields it does not use are not read (R47). `none`: a field out
of its range. A kind that holds no dry threshold has 0 in its place (DESIGN CHOICE, log 82). -/
def zoneConfig (kind : ZoneKind) (a : ZoneArgs) : Option ZoneConfig := do
  let probe ← if kind = .unused then some none else optField 32 a.probe
  let threshold ← if kind = .dry then
      (if a.dryThreshold = 65535 then some 100 else if a.dryThreshold ≤ 1000 then some a.dryThreshold else none)
    else some 0
  let output ← if kind = .line then optField 8 a.lineOutput else some none
  some { kind := kind, probe := probe
         fixed := if kind ≠ .unused ∧ probe = none then some (clampReading { temp := a.fixedTemp, rh := a.fixedRh })
                  else none
         reference := if kind = .dry then (if a.reference = 255 then none else finOf? 64 a.reference) else none
         dryThreshold := threshold
         creditRate := if kind = .dry then a.creditRate else 0
         lineOutput := output }

/-- The reference zone is none, or another zone whose present kind is FLOOR or LINE (R50). -/
def Part.referenceOk (p : Part) (z : Fin 64) (a : ZoneArgs) : Bool :=
  a.reference == 255 || match finOf? 64 a.reference with
    | some f => f != z && (p.zone f).config.kind.walks
    | none => false

/-- The checks of R50, in order. -/
def Part.checkZone (a : ZoneArgs) (p : Part) : Except ResultCode (Fin 64 × ZoneConfig) :=
  match finOf? 64 a.zone with
  | none => .error .badZone
  | some z => match decodeKind a.kind with
    | none => .error .badArg
    | some kind => match zoneConfig kind a with
      | none => .error .badArg
      | some c =>
        check (kind != .dry || p.referenceOk z a) .badZone <|
        check (kind == (p.zone z).config.kind || (p.zone z).members.isEmpty) .zoneInUse <|
        check ((p.dryZonesOf z).isEmpty || kind.walks) .zoneInUse <|
        check (match c.lineOutput with
          | some o => !p.outputTaken z o
          | none => true) .duplicate <|
        .ok (z, c)

/-- The held reading a configuration gives: the fixed reading, or what a FRESH or DOUBTFUL probe holds (R57). -/
def Part.obtainHeld (p : Part) (c : ZoneConfig) : Option Reading :=
  match c.probe with
  | none => c.fixed
  | some n => match (p.probe n).state with
    | .fresh | .doubtful => (p.probe n).held
    | .stale | .off => none

/-- Whether a bound probe is STALE or OFF (R58). -/
def Part.probeStale (p : Part) (c : ZoneConfig) : Bool :=
  match c.probe with
  | some n => (p.probe n).state == .stale || (p.probe n).state == .off
  | none => false

/-- The record that a SET_ZONE leaves before its own evaluation (R51 steps 1 to 3). Of a zone whose kind changes
to another used kind the journal-dirty mark is kept (DESIGN CHOICE, log 52) and the waiting triggers are dropped (DESIGN
CHOICE, log 67). -/
def Part.rezoned (p : Part) (z : Fin 64) (c : ZoneConfig) : Zone :=
  let r := p.zone z
  if c.kind = .unused then { Zone.unused with members := r.members, blocking := r.blocking, warnedCount := r.warnedCount }
  else if c.kind ≠ r.config.kind then
    { Zone.unused with
      config := c, held := p.obtainHeld c, stale := p.probeStale c, doorOpen := (p.door z).isOpen
      conditionTime := p.now, members := r.members, blocking := r.blocking, warnedCount := r.warnedCount
      dirty := r.dirty }
  else
    let renewed := c.probe != r.config.probe || c.fixed != r.config.fixed
    { r with config := c, basis := false, held := if renewed then p.obtainHeld c else r.held
             stale := if c.probe != r.config.probe then p.probeStale c else r.stale }

/-- The line output a zone names changes: the old one is unbound and the new one bound (R96). -/
def Part.rebindOutput (z : Fin 64) (old new : Option (Fin 8)) (p : Part) : Part :=
  if old = new then p
  else
    let p := match old with
      | some o => (p.setLineHold o { p.lineHold o with zone := none }).deriveHold o
      | none => p
    match new with
    | some o => (p.setLineHold o { p.lineHold o with zone := some z }).deriveHold o
    | none => p

/-- The docket in hand waits for the zones of which a configuration trigger of it is held (R67). -/
def Part.awaitTriggers (zs : List (Fin 64)) (p : Part) : Part :=
  match p.exi.inHand with
  | some d => p.setInHand (some { d with triggers := zs })
  | none => p

/-- R51. An OVEN zone whose own trigger is held passes its new held temperature to its BAKING members at once (DESIGN
CHOICE, log 53); one left without a held reading passes nothing, and its BAKING members are neither settled nor tested
(DESIGN CHOICE, log 71). The ZONE_IMAGE carries the zone as its own evaluation left it, and is staged after the
ZONE_CONDITION entries of the DRY zones that the change of its m triggers (DESIGN CHOICE, log 62). -/
def Part.applyZone (z : Fin 64) (c : ZoneConfig) (p : Part) : Part :=
  let old := p.zone z
  let r := p.rezoned z c
  let gain := r.stale && !old.stale
  let held := r.busy
  let p := (p.setZone z r).rebindOutput z old.config.lineOutput c.lineOutput
  let p := if gain then p.handRise else p
  let p := if c.kind = .unused then p else p.trigger .configuration z p.now true none
  let p := if held then p else p.offerDocket (.zone z (p.zone z).image)
  let p := if c.kind = old.config.kind ∧ r.held ≠ old.held ∧ (p.zone z).condition = old.condition then
      (match r.held with
        | some v => p.passReading z v.temp p.now
        | none => p)
    else p
  let p := p.triggerFollowers z p.now none
  (p.finishDocket { result := .ok, first := (p.zone z).members.length, second := 0, value := 0 }).awaitTriggers
    (if held then [z] else [])

def Part.setZoneDocket (a : ZoneArgs) (p : Part) : Part :=
  match p.checkZone a with
  | .error r => p.refuseDocket r
  | .ok (z, c) => p.applyZone z c

/-! ## SET_CONDITIONS (R55) and SET_ENGINE (R6) -/

/-- The zones whose kind is not UNUSED. -/
def Part.usedZones (p : Part) : List (Fin 64) := allFin 64 fun z => (p.zone z).config.kind != .unused

/-- A configuration trigger for every zone in use (R6, R55). -/
def Part.triggerAll (p : Part) : Part :=
  p.usedZones.foldl (fun p z => p.trigger .configuration z p.now false none) p

/-- The zones that hold a waiting configuration trigger. -/
def Part.waitingZones (p : Part) : List (Fin 64) := allFin 64 fun z => (p.zone z).waitConfig.isSome

/-- How many zones' conditions differ between two moments. -/
def conditionsChanged (p q : Part) : Nat := countFin 64 fun z => (p.zone z).condition != (q.zone z).condition

/-- R55: write every cell and edge; a changed edge clears every band basis. -/
def Part.writeBlock (b : CellBlock) (p : Part) : Part :=
  let edges := b.tempEdges != p.znu.tempEdges || b.rhEdges != p.znu.rhEdges
  let p := { p with znu := { p.znu with cells := b.cells, tempEdges := b.tempEdges, rhEdges := b.rhEdges } }
  if edges then (List.finRange 64).foldl (fun p z => p.putZone z { p.zone z with basis := false }) p else p

def Part.applyConditions (b : CellBlock) (p : Part) : Part :=
  let q := (p.writeBlock b).triggerAll
  let n := conditionsChanged p q
  ((q.offerDocket (.part .derating)).finishDocket
    { result := .ok, first := n, second := 0, value := 0 }).awaitTriggers q.waitingZones

/-- SET_CONDITIONS; `fails`: the read of the block fails on the bus. -/
def Part.setConditionsDocket (addr : HostAddr) (fails : Bool) (p : Part) : Part :=
  if !addrOk addr 64 then p.refuseDocket .badArg
  else if fails then p.refuseDocket .busError |>.accessFailed
  else
    let b := decodeCellBlock (p.hostRead addr 120)
    if b.valid then p.applyConditions b else p.refuseDocket .badArg

/-- The settings a SET_ENGINE would leave (R6). -/
def EngineArgs.apply (a : EngineArgs) (s : Settings) : Settings :=
  { ceiling := if a.mask.getLsbD 0 then a.ceiling else s.ceiling
    outage := if a.mask.getLsbD 1 then a.outage else s.outage
    backdate := if a.mask.getLsbD 2 then a.backdate else s.backdate
    repeatWindow := if a.mask.getLsbD 3 then a.repeatWindow else s.repeatWindow
    tempHyst := if a.mask.getLsbD 4 then a.tempHyst else s.tempHyst
    rhHyst := if a.mask.getLsbD 5 then a.rhHyst else s.rhHyst }

/-- The ranges of R5. -/
def Settings.valid (s : Settings) : Bool :=
  decide (256 ≤ s.ceiling) && decide (s.ceiling ≤ 1023) && decide (s.outage ≤ 1023) && decide (s.backdate ≤ 3600) &&
    decide (s.repeatWindow ≤ 255) && decide (s.tempHyst ≤ 50) && decide (s.rhHyst ≤ 50)

/-- Whether the mask names at least one of the six fields (11.5). -/
def EngineArgs.names (a : EngineArgs) : Bool := a.mask.setWidth 6 != 0

/-- Whether the mask names the ceiling multiplier or a hysteresis width. -/
def EngineArgs.reevaluates (a : EngineArgs) : Bool := a.mask.getLsbD 0 || a.mask.getLsbD 4 || a.mask.getLsbD 5

/-- R6. The SETTING_IMAGE is staged after the ZONE_CONDITION entries of the re-evaluation (DESIGN CHOICE, log 62). -/
def Part.setEngineDocket (a : EngineArgs) (p : Part) : Part :=
  let s := a.apply p.znu.settings
  if !a.names then p.finishDocket (plainAnswer .ok)
  else if !s.valid then p.refuseDocket .badArg
  else
    let p := { p with znu := { p.znu with settings := s } }
    let p := if a.reevaluates then p.triggerAll else p
    ((p.offerDocket (.part .engine)).finishDocket (plainAnswer .ok)).awaitTriggers
      (if a.reevaluates then p.waitingZones else [])

/-! ## The commands -/

/-- SET_ZONE (R50, R51). -/
def execSetZone (s : State) : Host.Outcome State Fault Refusal :=
  .next (s.powered fun p => match p.handedRequest with
    | some (.setZone a) => p.setZoneDocket a
    | _ => p)

/-- SET_CONDITIONS (R55). -/
def execSetConditions (stores : Stores) (s : State) : Host.Outcome State Fault Refusal :=
  .next (s.powered fun p =>
    let p := p.hostStores stores
    match p.handedRequest with
    | some (.setConditions addr) => p.setConditionsDocket addr false
    | _ => p)

/-- SET_ENGINE (R6). -/
def execSetEngine (s : State) : Host.Outcome State Fault Refusal :=
  .next (s.powered fun p => match p.handedRequest with
    | some (.setEngine a) => p.setEngineDocket a
    | _ => p)

/-- WAITING_TRIGGER_TAKEN (R67). -/
def execWaitingTriggerTaken (zone : Fin 64) (reach : Reach) (s : State) : Host.Outcome State Fault Refusal :=
  .next (s.powered fun p => p.takeWaiting zone reach)

end Sys2Proof.Machine
end

