-- ==== Sys2Proof/Machine/Probes.lean ====
section
/-! DEFINITION. The Probe Controller: bus queues, attempts, probe states, power groups, and the dockets SET_PROBE,
SET_GROUP and QUERY_PROBE (R73 to R88). -/

namespace Sys2Proof.Machine

/-! ## Power groups (R86, R87) -/

/-- A group's output is switched on, its ready point the lead time away. -/
def PowerGroup.switchOn (g : PowerGroup) : PowerGroup := { g with on := true, ready := g.lead }

/-- A group's output is switched off. The ready point of its last switch-on is dropped (DESIGN CHOICE, log 91). -/
def PowerGroup.switchOff (g : PowerGroup) : PowerGroup := { g with on := false, ready := 0 }

/-- Whether a probe of the group is queued on either bus. -/
def Part.groupQueued (p : Part) (g : Fin 4) : Bool :=
  (p.prc.busA.queue ++ p.prc.busB.queue).any fun n => (p.probe n).config.any fun c => c.group == some g

/-- The end of a poll in a CYCLED group: the output goes off when no probe of the group is queued (R87). -/
def Part.releaseGroup (g : Option (Fin 4)) (p : Part) : Part :=
  match g with
  | some g =>
    if (p.group g).cycled && !p.groupQueued g then p.setGroup g (p.group g).switchOff else p
  | none => p

/-! ## Serving a bus (R79, R87) -/

/-- Begin the poll of the probe that reaches the head: a CYCLED group that is off is switched on, and the first
attempt begins when the group is ready. -/
def Part.beginPoll (b : Bus) (n : Fin 32) (c : ProbeConfig) (p : Part) : Part :=
  let poll : Poll := { probe := n, address := c.address, conversion := c.conversion, group := c.group
                       second := false, discarded := false }
  let p := match c.group with
    | some g => if (p.group g).cycled && !(p.group g).on then p.setGroup g (p.group g).switchOn else p
    | none => p
  let ready := match c.group with
    | some g => (p.group g).on && (p.group g).ready == 0
    | none => true
  p.setBus b { p.bus b with poll := some poll, phase := if ready then .start else .awaitGroup }

/-- An idle bus takes up the head of its queue (R79). -/
def Part.serveBus (b : Bus) (p : Part) : Part :=
  match (p.bus b).poll, (p.bus b).queue with
  | none, n :: _ => match (p.probe n).config with
    | some c => p.beginPoll b n c
    | none => p
  | _, _ => p

/-- The bus is free of its poll. -/
def Part.idleBus (b : Bus) (p : Part) : Part := p.setBus b { p.bus b with poll := none, phase := .idle }

/-! ## Reports to the zones (R85) -/

/-- A STALE or OFF report, sent when the marker is no. The bound zones take it in ascending zone number (DESIGN CHOICE,
log 85). -/
def Part.probeLost (n : Fin 32) (reach : Reach) (p : Part) : Part :=
  if (p.probe n).staleReported then p
  else
    let p := p.setProbe n { p.probe n with staleReported := true }
    (p.zonesOfProbe n).foldl (fun p z => p.reportStale z p.now reach) p

/-- A reading, or a back report with its reading. The bound zones take it in ascending zone number (DESIGN CHOICE,
log 85). -/
def Part.probeReading (n : Fin 32) (v : Reading) (reach : Reach) (p : Part) : Part :=
  let p := p.setProbe n { p.probe n with staleReported := false }
  (p.zonesOfProbe n).foldl (fun p z => p.deliverReading z v p.now reach) p

/-! ## The end of a poll (R79, R83) -/

/-- The poll interval of a configured probe. -/
def Probe.interval (r : Probe) : Nat := match r.config with
  | some c => c.interval
  | none => 0

/-- A good reading at engine second `t` (R83). -/
def Probe.good (r : Probe) (v : Reading) (count : Byte) (t : Nat) : Probe :=
  { r with state := .fresh, held := some v, lastCount := some count, failures := 0, readingTime := some t
           staleTime := t + 3 * r.interval }

/-- A failed poll (R83). -/
def Probe.failed (r : Probe) : Probe :=
  let n := if r.state = .stale then 3 else min 3 (r.failures + 1)
  { r with failures := n, state := if n = 3 then .stale else .doubtful }

/-- A failure of the poll, with the report when the probe turns STALE. -/
def Part.pollFailed (n : Fin 32) (reach : Reach) (p : Part) : Part :=
  let r := (p.probe n).failed
  let p := p.setProbe n r
  if r.state = .stale then p.probeLost n reach else p

def Part.pollGood (n : Fin 32) (v : Reading) (count : Byte) (reach : Reach) (p : Part) : Part :=
  (p.setProbe n ((p.probe n).good v count p.now)).probeReading n v reach

/-- The poll leaves the bus: the probe leaves the queue, its outcome is applied, the group is switched and the next head
is taken up (R79). A discarded poll has left the queue already and has nothing applied; its group is switched now
(R77). -/
def Part.endPoll (b : Bus) (q : Poll) (apply : Part → Part) (p : Part) : Part :=
  if q.discarded then ((p.idleBus b).releaseGroup q.group).serveBus b
  else
    let r := p.bus b
    let p := p.setBus b { r with poll := none, phase := .idle, queue := r.queue.filter (· != q.probe) }
    ((apply p).releaseGroup q.group).serveBus b

/-- A failed attempt (R80, R82): its kind is recorded; the first is retried after the gap, the second ends the poll. -/
def Part.failAttempt (b : Bus) (kind : ProbeFailure) (reach : Reach) (p : Part) : Part :=
  match (p.bus b).poll with
  | some q =>
    if q.discarded then p.endPoll b q id
    else
      let p := p.setProbe q.probe { p.probe q.probe with lastFailure := some kind }
      if q.second then p.endPoll b q (Part.pollFailed q.probe reach)
      else p.setBus b { p.bus b with poll := some { q with second := true }, phase := .retryGap Config.retryGapMs }
  | none => p

/-! ## The attempt (R80 to R82, 11.9) -/

/-- The address byte of a transfer: seven bits and the direction. -/
def addressByte (address : Nat) (read : Bool) : Byte := BitVec.ofNat 8 (2 * address + read.toNat)

/-- Step 2: start, the address for writing, the request byte and a stop; then the conversion (R80). Both bytes are
recorded as sent, acknowledged or not (DESIGN CHOICE, log 54). -/
def Part.request (b : Bus) (ack : Bool) (reach : Reach) (p : Part) : Part :=
  match (p.bus b).poll with
  | some q =>
    let p := p.setBus b { p.bus b with sent := [addressByte q.address false, Config.measureRequest]
                                       phase := .converting q.conversion }
    if ack then p else p.failAttempt b .noAckRequest reach
  | none => p

/-- Step 1: an attempt begins at the speed the bus is set to (R73, R80). -/
def Part.startAttempt (b : Bus) (reply : AttemptReply) (reach : Reach) (p : Part) : Part :=
  if (p.bus b).phase = .start then
    let p := p.setBus b { p.bus b with attemptFast := (p.bus b).fast, sent := [], phase := .awaitFree 0 }
    match reply with
    | .linesHeld => p
    | .acknowledged => p.request b true reach
    | .notAcknowledged => p.request b false reach
  else p

/-- PROBE_BUS_FREE: both lines are high before the bound (R80). -/
def Part.busFree (b : Bus) (ack : Bool) (reach : Reach) (p : Part) : Part :=
  match (p.bus b).phase with
  | .awaitFree _ => p.request b ack reach
  | _ => p

/-- Step 4: the probe is addressed for reading (R80). -/
def Part.conversionDone (b : Bus) (ack : Bool) (reach : Reach) (p : Part) : Part :=
  match (p.bus b).phase, (p.bus b).poll with
  | .converting _, some q =>
    let r := p.bus b
    let p := p.setBus b { r with sent := r.sent ++ [addressByte q.address true], phase := .reading }
    if ack then p else p.failAttempt b .noAckRead reach
  | _, _ => p

/-- The reading the response bytes carry, clamped (R81). -/
def responseReading (x : ProbeBytes) : Reading :=
  clampReading { temp := ofSigned16 (x.tempHigh.toNat * 256 + x.tempLow.toNat)
                 rh := x.rhHigh.toNat * 256 + x.rhLow.toNat }

/-- The judgement of the six bytes, in order (R81). -/
def judgeResponse (x : ProbeBytes) (last : Option Byte) : Option ProbeFailure :=
  if x.status.getLsbD 1 then some .sensorFault
  else if !x.status.getLsbD 0 then some .notReady
  else if last = some x.count then some .sameCount
  else none

/-- PROBE_RESPONSE (R81). -/
def Part.response (b : Bus) (x : ProbeBytes) (reach : Reach) (p : Part) : Part :=
  match (p.bus b).phase, (p.bus b).poll with
  | .reading, some q =>
    match judgeResponse x (p.probe q.probe).lastCount with
    | some kind => p.failAttempt b kind reach
    | none => p.endPoll b q (Part.pollGood q.probe (responseReading x) x.count reach)
  | _, _ => p

/-- BUS_HELD: a line has been held low for more than 25 ms in an attempt (R80). -/
def Part.busHeld (b : Bus) (reach : Reach) (p : Part) : Part :=
  match (p.bus b).phase with
  | .awaitFree _ | .converting _ | .reading => p.failAttempt b .busHeld reach
  | _ => p

/-- The retry begins; after a BUS_HELD with the data line still low, up to nine pulses free the line first (R82). -/
def Part.retry (b : Bus) (dataLow : Option Nat) (p : Part) : Part :=
  match (p.bus b).phase, (p.bus b).poll with
  | .retryGap _, some q =>
    let pulses := match dataLow with
      | some n => if (p.probe q.probe).lastFailure = some .busHeld then min n 9 else 0
      | none => 0
    p.setBus b { p.bus b with phase := .start, pulses := pulses }
  | _, _ => p

/-! ## Timers (R78, R84, R87) -/

/-- POLL_TIMER_EXPIRY: the timer restarts; the probe joins its queue or is late (R78). -/
def Part.pollExpiry (n : Fin 32) (p : Part) : Part :=
  match (p.probe n).config with
  | some c =>
    if p.jnc.engine = .running then
      let r := p.probe n
      let p := p.setProbe n { r with pollTimer := c.interval * 1000 }
      if p.queued n then p.setProbe n { p.probe n with late := min 255 (r.late + 1) }
      else (p.setBus c.bus { p.bus c.bus with queue := (p.bus c.bus).queue ++ [n] }).serveBus c.bus
    else p
  | none => p

/-- A group's ready point: the attempts that wait for it may begin (R87). -/
def Part.groupReady (g : Fin 4) (p : Part) : Part :=
  if (p.group g).on then
    let p := p.setGroup g { p.group g with ready := 0 }
    [Bus.busA, Bus.busB].foldl (fun p b =>
      let r := p.bus b
      if r.phase = .awaitGroup ∧ (r.poll.bind (·.group)) = some g then p.setBus b { r with phase := .start } else p) p
  else p

/-- STALE_TIME_REACHED (R84). -/
def Part.staleReached (n : Fin 32) (reach : Reach) (p : Part) : Part :=
  let r := p.probe n
  if p.jnc.engine = .running ∧ (r.state = .fresh ∨ r.state = .doubtful) ∧ r.staleTime ≤ p.now then
    (p.setProbe n { r with state := .stale }).probeLost n reach
  else p

/-! ## SET_PROBE (R76, R77) -/

/-- The configuration an enabling SET_PROBE gives; none when a field is out of its range (R76). -/
def ProbeArgs.config (a : ProbeArgs) : Option ProbeConfig := do
  let bus ← decodeBus a.bus
  let group ← optField 4 a.group
  if 0x08 ≤ a.address ∧ a.address ≤ 0x77 ∧ 2 ≤ a.interval ∧ a.interval ≤ 3600 ∧ 10 ≤ a.conversion ∧
      a.conversion ≤ 2550 ∧ a.conversion % 10 = 0 then
    some { bus := bus, address := a.address, group := group, interval := a.interval, conversion := a.conversion }
  else none

/-- Another configured probe has the same bus and address (R76). -/
def Part.addressTaken (p : Part) (n : Fin 32) (c : ProbeConfig) : Bool :=
  (List.finRange 32).any fun m => m != n && (p.probe m).config.any fun d => d.bus == c.bus && d.address == c.address

/-- The checks of R76; the answer's configuration is none for a SET_PROBE that disables. -/
def Part.checkProbe (a : ProbeArgs) (p : Part) : Except ResultCode (Fin 32 × Option ProbeConfig) :=
  match finOf? 32 a.probe with
  | none => .error .badArg
  | some n =>
    if a.enable = 0 then .ok (n, none)
    else if a.enable = 1 then
      match a.config with
      | none => .error .badArg
      | some c => check (!p.addressTaken n c) .duplicate (.ok (n, some c))
    else .error .badArg

/-- An attempt is under way on a bus. -/
def BusPhase.underWay : BusPhase → Bool
  | .awaitFree _ | .converting _ | .reading => true
  | _ => false

/-- R77 step 1 on one bus: the probe leaves the queue; an attempt under way is left to finish, discarded. -/
def Part.unqueueOn (b : Bus) (n : Fin 32) (p : Part) : Part :=
  let r := p.bus b
  let p := p.setBus b { r with queue := r.queue.filter (· != n) }
  match r.poll with
  | some q =>
    if q.probe = n ∧ q.discarded = false then
      if r.phase.underWay then p.setBus b { p.bus b with poll := some { q with discarded := true } } else p.idleBus b
    else p
  | none => p

/-- An attempt of the probe is under way on a bus, and its outcome is not discarded already. -/
def ProbeBus.attempts (r : ProbeBus) (n : Fin 32) : Bool :=
  match r.poll with
  | some q => q.probe == n && !q.discarded && r.phase.underWay
  | none => false

/-- R77 step 1: the group is switched as at the end of a poll, at once or, when an attempt is under way, once that
attempt has finished on the bus. The bus takes up the next probe of its queue then, and not while the discarded attempt
runs on (DESIGN CHOICE, log 68). -/
def Part.unqueue (n : Fin 32) (p : Part) : Part :=
  if p.queued n then
    match (p.probe n).config with
    | some c =>
      let q := (p.unqueueOn .busA n).unqueueOn .busB n
      if (p.bus c.bus).attempts n then q else (q.releaseGroup c.group).serveBus c.bus
    | none => p
  else p

/-- A probe that starts over at `t`: DOUBTFUL, without a reading (R75, R77 step 4). -/
def Probe.startOver (r : Probe) (c : ProbeConfig) (t : Nat) : Probe :=
  { r with config := some c, state := .doubtful, held := none, lastCount := none, failures := 0, readingTime := none
           staleTime := t + 3 * c.interval, lastFailure := none }

/-- R77 step 5. -/
def Probe.restartTimer (r : Probe) : Probe := { r with pollTimer := r.interval * 1000, late := 0 }

/-- R77 step 3. -/
def Probe.retime (r : Probe) (c : ProbeConfig) (t : Nat) : Probe :=
  { r with config := some c, staleTime := r.readingTime.getD t + 3 * c.interval }

/-- R77. The docket's SETTING_IMAGE is staged after the ZONE_CONDITION entries that the OFF report of a disabled probe
causes (DESIGN CHOICE, log 62). -/
def Part.applyProbe (n : Fin 32) (c : Option ProbeConfig) (p : Part) : Part :=
  let p := p.unqueue n
  let r := p.probe n
  let p := match c with
    | none =>
      (p.setProbe n { Probe.off with late := r.late, staleReported := r.staleReported }).probeLost n none
    | some c =>
      let same := r.config.any fun (d : ProbeConfig) => d.bus == c.bus && d.address == c.address
      p.setProbe n (if same then r.retime c p.now else r.startOver c p.now).restartTimer
  (p.offerDocket (.part (.probe n))).finishDocket
    { result := .ok, first := (p.zonesOfProbe n).length, second := 0, value := 0 }

def Part.setProbeDocket (a : ProbeArgs) (p : Part) : Part :=
  match p.checkProbe a with
  | .error r => p.refuseDocket r
  | .ok (n, c) => p.applyProbe n c

/-! ## SET_GROUP (R86) -/

/-- A flagged group's values are in range. -/
def GroupArgs.groupOk (a : GroupArgs) (g : Fin 4) : Bool :=
  !a.mask.getLsbD g.val || (decide (a.modes[g] ≤ 1) && decide (a.leads[g] ≤ 2550) && a.leads[g] % 10 == 0)

def GroupArgs.valid (a : GroupArgs) : Bool :=
  (List.finRange 4).all a.groupOk && (!a.mask.getLsbD 4 || (decodeSpeed a.speedA).isSome) &&
    (!a.mask.getLsbD 5 || (decodeSpeed a.speedB).isSome)

/-- The values of one flagged group, written and applied. -/
def Part.writeGroup (a : GroupArgs) (g : Fin 4) (p : Part) : Part :=
  if a.mask.getLsbD g.val then
    let r := { p.group g with cycled := a.modes[g] == 1, lead := a.leads[g] }
    p.setGroup g (if !r.cycled && !r.on then r.switchOn
                  else if r.cycled && !p.groupQueued g then r.switchOff
                  else r)
  else p

def Part.writeSpeed (flag : Bool) (b : Bus) (kHz : Nat) (p : Part) : Part :=
  if flag then p.setBus b { p.bus b with fast := (decodeSpeed kHz).getD false } else p

def Part.setGroupDocket (a : GroupArgs) (p : Part) : Part :=
  if a.mask.setWidth 6 = 0 then p.finishDocket (plainAnswer .ok)
  else if !a.valid then p.refuseDocket .badArg
  else
    let p := (List.finRange 4).foldl (fun p g => p.writeGroup a g) p
    let p := (p.writeSpeed (a.mask.getLsbD 4) .busA a.speedA).writeSpeed (a.mask.getLsbD 5) .busB a.speedB
    (p.offerDocket (.part .groups)).finishDocket (plainAnswer .ok)

/-! ## QUERY_PROBE (R88) -/

/-- QUERY_PROBE; `fails`: the report write fails on the bus. -/
def Part.queryProbeDocket (a : QueryProbeArgs) (fails : Bool) (p : Part) : Part :=
  match finOf? 32 a.probe with
  | some n =>
    if !addrOk a.reply 32 then p.refuseDocket .badArg
    else if fails then (p.refuseDocket .busError).accessFailed
    else
      let r := p.probe n
      let p := p.hostWrite a.reply (p.probeReport n)
      let p := if a.clearLate then p.setProbe n { r with late := 0 } else p
      p.finishDocket { result := .ok, first := r.state.code, second := r.late, value := timeCode r.readingTime }
  | none => p.refuseDocket .badArg

/-! ## Entry to RUNNING (R75, R87) -/

/-- Each configured probe starts over with its timer, its marker no; then each OFF probe that a zone binds is reported, in
ascending probe number (DESIGN CHOICE, log 51), to its zones in ascending zone number (DESIGN CHOICE, log 85). -/
def Part.startProbes (p : Part) : Part :=
  let p := (List.finRange 32).foldl (fun p n =>
    let r := p.probe n
    match r.config with
    | some c => p.setProbe n { (r.startOver c p.now).restartTimer with staleReported := false }
    | none => p) p
  (List.finRange 32).foldl (fun p n =>
    if (p.probe n).config.isNone then
      let p := p.setProbe n { p.probe n with staleReported := true }
      (p.zonesOfProbe n).foldl (fun p z => p.reportStale z p.now none) p
    else p) p

/-! ## The commands -/

/-- SET_PROBE (R76, R77). -/
def execSetProbe (s : State) : Host.Outcome State Fault Refusal :=
  .next (s.powered fun p => match p.handedRequest with
    | some (.setProbe a) => p.setProbeDocket a
    | _ => p)

/-- SET_GROUP (R86). -/
def execSetGroup (s : State) : Host.Outcome State Fault Refusal :=
  .next (s.powered fun p => match p.handedRequest with
    | some (.setGroup a) => p.setGroupDocket a
    | _ => p)

/-- QUERY_PROBE (R88). -/
def execQueryProbe (s : State) : Host.Outcome State Fault Refusal :=
  .next (s.powered fun p => match p.handedRequest with
    | some (.queryProbe a) => p.queryProbeDocket a false
    | _ => p)

/-- POLL_TIMER_EXPIRY (R78). -/
def execPollTimerExpiry (probe : Fin 32) (s : State) : Host.Outcome State Fault Refusal :=
  .next (s.powered fun p => p.pollExpiry probe)

/-- GROUP_READY_POINT (R87). -/
def execGroupReadyPoint (group : Fin 4) (s : State) : Host.Outcome State Fault Refusal :=
  .next (s.powered fun p => p.groupReady group)

/-- POLL_ATTEMPT_START (R80 steps 1 and 2). -/
def execPollAttemptStart (bus : Bus) (reply : AttemptReply) (reach : Reach) (s : State) :
    Host.Outcome State Fault Refusal := .next (s.powered fun p => p.startAttempt bus reply reach)

/-- CONVERSION_TIME_EXPIRY (R80 step 4). -/
def execConversionTimeExpiry (bus : Bus) (ack : Bool) (reach : Reach) (s : State) :
    Host.Outcome State Fault Refusal := .next (s.powered fun p => p.conversionDone bus ack reach)

/-- PROBE_RESPONSE (R81). -/
def execProbeResponse (bus : Bus) (bytes : ProbeBytes) (reach : Reach) (s : State) :
    Host.Outcome State Fault Refusal := .next (s.powered fun p => p.response bus bytes reach)

/-- BUS_HELD (R80). -/
def execBusHeld (bus : Bus) (reach : Reach) (s : State) : Host.Outcome State Fault Refusal :=
  .next (s.powered fun p => p.busHeld bus reach)

/-- RETRY_GAP_EXPIRY (R82). -/
def execRetryGapExpiry (bus : Bus) (dataLow : Option Nat) (s : State) : Host.Outcome State Fault Refusal :=
  .next (s.powered fun p => p.retry bus dataLow)

/-- PROBE_BUS_FREE (R80 step 1). -/
def execProbeBusFree (bus : Bus) (ack : Bool) (reach : Reach) (s : State) : Host.Outcome State Fault Refusal :=
  .next (s.powered fun p => p.busFree bus ack reach)

/-- STALE_TIME_REACHED (R84). -/
def execStaleTimeReached (probe : Fin 32) (reach : Reach) (s : State) : Host.Outcome State Fault Refusal :=
  .next (s.powered fun p => p.staleReached probe reach)

end Sys2Proof.Machine
end

