-- ==== Sys2Proof/Machine/Doors.lean ====
section
/-! DEFINITION. The Door and Output Unit: door lines, zone doors, lamps, and the dockets SET_DOOR and SET_OUTPUT
(R89 to R101). -/

namespace Sys2Proof.Machine

/-! ## A zone's door (R91 to R93) -/

/-- A zone's door state is taken again from its lines at time `t`; a change goes into the door record and to the ZNU
(R91). -/
def Part.updateDoor (z : Fin 64) (t : Nat) (reach : Reach) (p : Part) : Part :=
  let d := p.door z
  let isOpen := p.anyLineOpen z
  if isOpen = d.isOpen then p
  else if isOpen then (p.setDoor z { d with isOpen := true, since := some t }).reportDoor z true t reach
  else
    let p := p.setDoor z { isOpen := false, since := none, ajar := false }
    (if d.ajar then p.reportAjar z false else p).reportDoor z false t reach

/-- A confirmed edge of a line, in RUNNING: an open edge of a bound line sets pending-open and posts the zone (R92). -/
def Part.edgeConfirmed (n : Fin 16) (reach : Reach) (p : Part) : Part :=
  let l := p.line n
  match l.zone with
  | some z =>
    let p := if l.filteredOpen then (p.setLine n { l with pendingOpen := true }).postZone z else p
    p.updateDoor z p.now reach
  | none => p

/-- A filter timer expires: the edge is confirmed (R90). -/
def Part.filterExpiry (n : Fin 16) (reach : Reach) (p : Part) : Part :=
  let l := p.line n
  if l.timer.isSome then
    let p := p.setLine n { l with filteredOpen := l.rawOpen, timer := none }
    if p.jnc.engine = .running then p.edgeConfirmed n reach else p
  else p

/-- An input level changes; without main power only the pin itself does (R90). -/
def Part.inputChange (n : Fin 16) (high : Bool) (p : Part) : Part :=
  let l := { p.line n with high := high }
  p.setLine n (if p.tbu.mainPower then l.refilter else l)

/-- Some open line of the zone has an open limit that the open door has reached (R93). -/
def Part.limitReached (p : Part) (z : Fin 64) : Bool :=
  match (p.door z).since with
  | some t => (List.finRange 16).any fun n =>
      let l := p.line n
      l.zone == some z && l.filteredOpen && decide (0 < l.openLimit) && decide (l.openLimit ≤ p.now - t)
  | none => false

/-- DOOR_AJAR_LIMIT (R93). -/
def Part.ajarLimit (z : Fin 64) (p : Part) : Part :=
  let d := p.door z
  if p.jnc.engine = .running ∧ d.isOpen ∧ d.ajar = false ∧ p.limitReached z then
    (p.setDoor z { d with ajar := true }).reportAjar z true
  else p

/-! ## Restore samples (R95) -/

/-- Each filter timer stops, and the line's sample is its filter time away. -/
def DoorLine.awaitSample (l : DoorLine) : DoorLine := { l with timer := none, sample := some l.filterTime }

/-- RESTORE_DOOR_SAMPLE: the filtered state takes the raw state; filtering runs from then on. -/
def Part.doorSample (n : Fin 16) (p : Part) : Part :=
  let l := p.line n
  if l.sample.isSome then p.setLine n { l with sample := none, filteredOpen := l.rawOpen, timer := none } else p

/-- Every line's restore sample has been taken. -/
def Part.samplesTaken (p : Part) : Bool := (List.finRange 16).all fun n => (p.line n).sample.isNone

/-- At entry to RUNNING: every zone's door record is computed, and the restore door sample goes to every zone that some
line is bound to (R72, R95), in ascending zone number (DESIGN CHOICE, log 51). -/
def Part.startDoors (p : Part) : Part :=
  (List.finRange 64).foldl (fun p z =>
    let isOpen := p.anyLineOpen z
    let p := p.setDoor z { isOpen := isOpen, since := if isOpen then some p.now else none, ajar := false }
    if (List.finRange 16).any fun n => (p.line n).zone == some z then p.reportDoor z isOpen p.now none
    else p.setZone z { p.zone z with doorOpen := false }) p

/-! ## SET_DOOR (R94) -/

/-- The checks of R94. -/
def Part.checkDoor (a : DoorArgs) (p : Part) : Except ResultCode (Fin 16 × Option (Fin 64)) :=
  match finOf? 16 a.line with
  | none => .error .badArg
  | some n =>
    check (decide (a.polarity ≤ 1) && decide (10 ≤ a.filterTime) && decide (a.filterTime ≤ 2550) &&
      a.filterTime % 10 == 0) .badArg <|
    match optField 64 a.zone with
    | none => .error .badZone
    | some none => .ok (n, none)
    | some (some z) =>
      check ((p.zone z).config.kind == .dry || (p.zone z).config.kind == .oven) .badZone (.ok (n, some z))

/-- Steps 1 to 3: polarity, filter time, open limit. -/
def DoorLine.configure (l : DoorLine) (a : DoorArgs) : DoorLine :=
  let openLow := a.polarity == 1
  let l := if openLow = l.openLow then l
    else { l with openLow := openLow, timer := none, filteredOpen := l.high != openLow }
  { l with filterTime := a.filterTime
           timer := if a.filterTime = l.filterTime then l.timer else l.timer.map fun _ => a.filterTime
           openLimit := a.openLimit }

/-- R94. Clearing pending-open posts nothing of itself: OPENED_SINCE is posted by R92 alone (R152). The
SETTING_IMAGE is staged after the ZONE_CONDITION entries of the evaluations that the door states cause (DESIGN CHOICE,
log 62). -/
def Part.applyDoor (n : Fin 16) (zone : Option (Fin 64)) (a : DoorArgs) (p : Part) : Part :=
  let old := p.line n
  let l := old.configure a
  let update (z : Option (Fin 64)) (p : Part) : Part := match z with
    | some z => p.updateDoor z p.now none
    | none => p
  let p :=
    if zone = old.zone then
      let p := p.setLine n l
      if l.filteredOpen = old.filteredOpen then p else update zone p
    else
      update zone (update old.zone (p.setLine n { l with zone := zone, pendingOpen := false }))
  let state := match zone with
    | some z => (p.door z).isOpen.toNat
    | none => 0
  (p.offerDocket (.part (.door n))).finishDocket
    { result := .ok, first := l.filteredOpen.toNat, second := state, value := 0 }

def Part.setDoorDocket (a : DoorArgs) (p : Part) : Part :=
  match p.checkDoor a with
  | .error r => p.refuseDocket r
  | .ok (n, zone) => p.applyDoor n zone a

/-! ## Lamps (R99) -/

/-- A lamp goes to its next step. -/
def Lamp.advance (l : Lamp) (length period : Nat) : Lamp :=
  { l with position := if l.position + 1 < length then l.position + 1 else 0, timer := some period }

/-- LAMP_STEP_EXPIRY. -/
def Part.lampStep (n : Fin 8) (p : Part) : Part :=
  let l := p.lamp n
  match l.shown, l.timer with
  | some q, some _ => p.setLamp n (l.advance (p.dou.pattern q).length p.dou.stepPeriod)
  | _, _ => p

/-! ## SET_OUTPUT (R100) -/

def OutputArgs.override? (a : OutputArgs) (n : Fin 8) : Bool := a.mask.getLsbD n.val

def OutputArgs.lamp? (a : OutputArgs) (n : Fin 8) : Bool := a.mask.getLsbD (8 + n.val)

/-- The flag of a pattern (11.5). -/
def OutputArgs.pattern? (a : OutputArgs) : PatternName → Bool
  | .calm => a.mask.getLsbD 16
  | .warn => a.mask.getLsbD 17
  | .hold => a.mask.getLsbD 18

def OutputArgs.period? (a : OutputArgs) : Bool := a.mask.getLsbD 19

def Pattern.valid (q : Pattern) : Bool := decide (2 ≤ q.length) && decide (q.length ≤ 16)

/-- The first check of R100, on the flagged values. -/
def OutputArgs.valid (a : OutputArgs) : Bool :=
  (List.finRange 8).all (fun n => !a.override? n || (decodeOverride a.overrides[n]).isSome) &&
    (!a.pattern? .calm || a.calm.valid) && (!a.pattern? .warn || a.warn.valid) &&
    (!a.pattern? .hold || a.hold.valid) &&
    (!a.period? || (decide (50 ≤ a.stepPeriod) && decide (a.stepPeriod ≤ 1000) && a.stepPeriod % 50 == 0))

/-- The second check of R100. -/
def OutputArgs.zonesOk (a : OutputArgs) (p : Part) : Bool :=
  (List.finRange 8).all fun n => !a.lamp? n || match optField 64 a.lampZones[n] with
    | some none => true
    | some (some z) => (p.zone z).config.kind != .unused
    | none => false

/-- Every flagged value is written. -/
def Part.writeOutputs (a : OutputArgs) (p : Part) : Part :=
  let p := (List.finRange 8).foldl (fun p n =>
    if a.override? n then
      p.setLineHold n { p.lineHold n with override := (decodeOverride a.overrides[n]).getD .auto }
    else p) p
  let p := (List.finRange 8).foldl (fun p n =>
    if a.lamp? n then p.setLamp n { p.lamp n with zone := (optField 64 a.lampZones[n]).getD none } else p) p
  { p with dou := { p.dou with
      calm := if a.pattern? .calm then a.calm else p.dou.calm
      warn := if a.pattern? .warn then a.warn else p.dou.warn
      hold := if a.pattern? .hold then a.hold else p.dou.hold
      stepPeriod := if a.period? then a.stepPeriod else p.dou.stepPeriod } }

/-- A lamp whose pattern record was flagged restarts; with a new step period, a bound lamp's timer restarts. -/
def Part.refreshLamp (a : OutputArgs) (n : Fin 8) (p : Part) : Part :=
  let l := p.lamp n
  let l := match l.shown with
    | some q => if a.pattern? q then { l with position := 0, timer := some p.dou.stepPeriod } else l
    | none => l
  p.setLamp n (if a.period? && l.zone.isSome then { l with timer := some p.dou.stepPeriod } else l)

/-- The drives that the flagged values call for (R100). -/
def Part.applyOutputs (a : OutputArgs) (p : Part) : Part :=
  let p := (List.finRange 8).foldl (fun p n => if a.override? n then p.deriveHold n else p) p
  let p := (List.finRange 8).foldl (fun p n => if a.lamp? n then p.deriveLamp n else p) p
  (List.finRange 8).foldl (fun p n => p.refreshLamp a n) p

/-- The answer of SET_OUTPUT: line holds ASSERTED and lamps showing HOLD. -/
def Part.outputAnswer (p : Part) : Answer :=
  { result := .ok, first := countFin 8 fun n => (p.lineHold n).asserted
    second := countFin 8 fun n => (p.lamp n).shown == some .hold, value := 0 }

/-- R100. A docket that fails the check of a flagged value and the check of a lamp zone is answered BAD_ARG (DESIGN
CHOICE, log 55). -/
def Part.setOutputDocket (a : OutputArgs) (p : Part) : Part :=
  if a.mask.setWidth 20 = 0 then p.finishDocket p.outputAnswer
  else if !a.valid then p.refuseDocket .badArg
  else if !a.zonesOk p then p.refuseDocket .badZone
  else
    let p := (p.writeOutputs a).applyOutputs a
    (p.offerDocket (.part .outputs)).finishDocket p.outputAnswer

/-! ## The commands -/

/-- DOOR_INPUT_CHANGE (R90). -/
def execDoorInputChange (line : Fin 16) (high : Bool) (s : State) : Host.Outcome State Fault Refusal :=
  .next { s with part := s.part.inputChange line high }

/-- DOOR_FILTER_EXPIRY (R90 to R92). -/
def execDoorFilterExpiry (line : Fin 16) (reach : Reach) (s : State) : Host.Outcome State Fault Refusal :=
  .next (s.powered fun p => p.filterExpiry line reach)

/-- DOOR_AJAR_LIMIT (R93). -/
def execDoorAjarLimit (zone : Fin 64) (s : State) : Host.Outcome State Fault Refusal :=
  .next (s.powered fun p => p.ajarLimit zone)

/-- RESTORE_DOOR_SAMPLE (R95). -/
def execRestoreDoorSample (line : Fin 16) (s : State) : Host.Outcome State Fault Refusal :=
  .next (s.powered fun p => p.doorSample line)

/-- LAMP_STEP_EXPIRY (R99). -/
def execLampStepExpiry (lamp : Fin 8) (s : State) : Host.Outcome State Fault Refusal :=
  .next (s.powered fun p => p.lampStep lamp)

/-- SET_DOOR (R94). -/
def execSetDoor (s : State) : Host.Outcome State Fault Refusal :=
  .next (s.powered fun p => match p.handedRequest with
    | some (.setDoor a) => p.setDoorDocket a
    | _ => p)

/-- SET_OUTPUT (R100). -/
def execSetOutput (s : State) : Host.Outcome State Fault Refusal :=
  .next (s.powered fun p => match p.handedRequest with
    | some (.setOutput a) => p.setOutputDocket a
    | _ => p)

end Sys2Proof.Machine
end

