-- ==== Sys2Proof/Machine/Containers.lean ====
section
/-! DEFINITION. The dockets of the container table: ENROLL, SPLIT, RETIRE, QUARANTINE, RELEASE, QUERY, and SET_CLASS
(R3, R22 to R42). -/

namespace Sys2Proof.Machine

/-! ## Making a slot LIVE and freeing it (R24, R25, R28, R32) -/

/-- Move a class's use count (R2). -/
def Part.useClass (n : Fin 16) (f : Nat → Nat) (p : Part) : Part :=
  p.setCls n { p.cls n with useCount := f (p.cls n).useCount }

/-- A slot becomes LIVE with a record already derived: its entry, its zone, its class, its level and its summary. -/
def Part.makeLive (i : Fin 2048) (c : Container) (p : Part) : Part :=
  let p := ((p.setSlot i (some c)).useClass c.cls (· + 1)).placeDue i c
  let p := (p.joinZone i c).reportLevel .none c.level
  (p.postIfChanged i none (some c)).postHeader

/-- A slot becomes FREE: its entry, its zone, its class, its level and its summary (R32 steps 3 to 7). -/
def Part.freeSlot (i : Fin 2048) (c : Container) (p : Part) : Part :=
  let p := ((p.onDlu (Dlu.remove i)).leaveZone i c).useClass c.cls (· - 1)
  let p := (p.setSlot i none).reportLevel c.level .none
  (p.postIfChanged i (some c) none).postHeader

/-! ## ENROLL (R27, R28) -/

/-- The checks of R27: the class, the zone, the custody asked for and the slot. -/
def Part.checkEnroll (a : EnrollArgs) (p : Part) : Except ResultCode (Fin 16 × ClassDef × Fin 64 × Custody × Fin 2048) :=
  check (a.id != 0) .badArg <|
  match requestCustody a.custody with
  | none => .error .badArg
  | some custody => match (finOf? 16 a.cls).bind fun n => (p.cls n).defn.map fun k => (n, k) with
    | none => .error .badClass
    | some (n, k) => match finOf? 64 a.zone with
      | none => .error .badZone
      | some z =>
        check ((p.zone z).config.kind != .unused) .badZone <|
        check (p.findId a.id).isNone .duplicateId <|
        match firstFin 2048 fun i => (p.slot i).isNone with
        | none => .error .tableFull
        | some i => .ok (n, k, z, custody, i)

/-- The record of a new container at `t`, before its mode and dues are derived; at its limit it is EXPIRED (R28, R12), and
as it is then not OPEN no warn test warns it (DESIGN CHOICE, log 63). -/
def enrolled (id : ContainerId) (n : Fin 16) (k : ClassDef) (z : Fin 64) (kind : ZoneKind) (custody : Custody)
    (minutes t : Nat) : Container :=
  limitRule k
    { id := id, cls := n, custody := if kind = .line then .opened else custody, zone := z, mode := .hold
      exposure := min minutes k.allowance * Config.ticksPerMinute, settled := t, zoneEntry := t, lastMove := none
      warned := false, bakeCount := 0, bakedThisStay := false, bakeProgress := none, bakeRunStart := none
      quarantineCause := none, parent := none, enrolled := t, warnDue := none, expireDue := none, dirty := false }

def Part.enrollDocket (a : EnrollArgs) (p : Part) : Part :=
  match p.checkEnroll a with
  | .error r => p.refuseDocket r
  | .ok (n, k, z, custody, i) =>
    let c := enrolled a.id n k z (p.zone z).config.kind custody a.minutes p.now
    let p := (p.makeLive i (p.deriveRecord false c).1).offerDocket (.image i)
    p.finishDocket { result := .ok, first := if k.allowance < a.minutes then 1 else 0, second := 0, value := i.val }

/-! ## SPLIT (R29 to R31) -/

def SplitArgs.read (a : SplitArgs) : List ContainerId := a.children.take a.count

/-- The first checks of R29, on the arguments and the parent's ID: the parent's slot. -/
def Part.splitParent (a : SplitArgs) (p : Part) : Except ResultCode (Fin 2048) :=
  check (decide (1 ≤ a.count) && decide (a.count ≤ 4)) .badArg <|
  check (a.read.all (· != 0) && decide a.read.Nodup) .badArg <|
  match p.findId a.parent with
  | none => .error .unknownId
  | some i => .ok i

/-- The other checks of R29, on the parent as a change of its zone has reached it (R66): its record. -/
def Part.checkSplit (a : SplitArgs) (i : Fin 2048) (p : Part) : Except ResultCode Container :=
  match p.slot i with
  | none => .error .unknownId
  | some c =>
    check (c.custody == .opened) .wrongState <|
    check (a.read.all fun id => (p.findId id).isNone) .duplicateId <|
    check (decide (a.count ≤ p.freeSlots.length)) .tableFull <|
    .ok c

/-- A child's record, from the settled parent's, at `t` (R30); at its limit it is EXPIRED (R12). -/
def childOf (k : ClassDef) (parent : Container) (id : ContainerId) (t : Nat) : Container :=
  withDues k <| limitRule k
    { parent with id := id, custody := .opened, settled := t, zoneEntry := t, lastMove := none, bakeProgress := none
                  bakeRunStart := none, quarantineCause := none, parent := some parent.id, enrolled := t
                  dirty := false }

/-- The children of a settled parent are made live, and the parent is retired when asked (R30, R31). -/
def Part.splitInto (a : SplitArgs) (i : Fin 2048) (parent : Container) (p : Part) : Part :=
  let k := p.classDef parent.cls
  let slots := p.freeSlots.take a.count
  let p := (a.read.zip slots).foldl (fun p x => p.makeLive x.2 (childOf k parent x.1 p.now)) p
  let p := if a.retireParent then p.freeSlot i parent else p
  let p := slots.foldl (fun p j => p.offerDocket (.image j)) p
  let p := p.offerDocket (if a.retireParent then .retire i parent.id else .image i)
  p.finishDocket { result := .ok, first := a.count, second := a.retireParent.toNat, value := splitValue slots }

def Part.splitDocket (a : SplitArgs) (p : Part) : Part :=
  match p.splitParent a with
  | .error r => p.refuseDocket r
  | .ok i =>
    let p := p.reached i
    match p.checkSplit a i with
    | .error r => p.refuseDocket r
    | .ok before =>
      let p := (p.settleSlot i p.now).1
      p.splitInto a i ((p.slot i).getD before)

/-! ## RETIRE (R32) -/

/-- The LIVE slot an ID names, with its record. -/
def Part.lookup (id : ContainerId) (p : Part) : Option (Fin 2048 × Container) :=
  (p.findId id).bind fun i => (p.slot i).map fun c => (i, c)

/-- RETIRE. Its settle gives the exposure the container leaves with. A warning or an expiry that it finds is not carried
through: what the zone and the alert logic lose is what the container contributed and the level it had before, so nothing
rises, no output is asserted and no image is staged (R46, R137, 8.6; DEDUCED, log 84). -/
def Part.retireDocket (id : ContainerId) (p : Part) : Part :=
  match p.lookup id with
  | none => p.refuseDocket .unknownId
  | some (i, before) =>
    let p := p.reached i
    let c := (p.slot i).getD before
    let k := p.classDef c.cls
    let left := (settleRecord k p.now c).1.exposure
    let p := (p.freeSlot i c).offerDocket (.retire i id)
    p.finishDocket { result := .ok, first := percentUsed k left, second := 0, value := left }

/-! ## QUARANTINE and RELEASE (R33 to R36) -/

/-- Custody QUARANTINED with cause HOST; a bake is abandoned (R33). The settle before it carries its own warn test
(R15, R46). -/
def Container.quarantineByHost (k : ClassDef) (c : Container) : Container :=
  { (warnRecord k c).1 with custody := .quarantined, quarantineCause := some .host, bakeProgress := none
                            bakeRunStart := none }

/-- The exposure slot `i` now holds. -/
def Part.exposureAt (i : Fin 2048) (p : Part) : Nat := match p.slot i with
  | some c => c.exposure
  | none => 0

def Part.quarantineDocket (id : ContainerId) (p : Part) : Part :=
  match p.lookup id with
  | none => p.refuseDocket .unknownId
  | some (i, c) =>
    if c.custody = .quarantined then p.refuseDocket .wrongState
    else
      let p := ((p.reached i).changeTo i p.now true (Container.quarantineByHost (p.classDef c.cls))).1
      let p := p.offerDocket (.image i)
      p.finishDocket { result := .ok, first := 0, second := 0, value := p.exposureAt i }

/-- The cause is dropped and the custody set: EXPIRED at the limit, else the resume state (R35). -/
def Container.release (k : ClassDef) (resume : Custody) (c : Container) : Container :=
  { c with custody := if k.limit ≤ c.exposure then .expired else resume, quarantineCause := none }

def Part.releaseDocket (a : ReleaseArgs) (p : Part) : Part :=
  match requestCustody a.resume with
  | none => p.refuseDocket .badArg
  | some resume => match p.lookup a.id with
    | none => p.refuseDocket .unknownId
    | some (i, c) =>
      if c.custody ≠ .quarantined then p.refuseDocket .wrongState
      else
        let p := ((p.reached i).changeTo i p.now false (Container.release (p.classDef c.cls) resume)).1
        let p := p.offerDocket (.image i)
        let code := match p.slot i with
          | some c => c.custody.code
          | none => 0
        p.finishDocket { result := .ok, first := code, second := 0, value := p.exposureAt i }

/-! ## QUERY (R37, R38, R148) -/

/-- The report, and the answer; `fails`: the report write fails on the bus, and both counts and the answer value are 0
(DESIGN CHOICE, log 64). -/
def Part.reportContainer (i : Fin 2048) (c : Container) (reply : HostAddr) (fails : Bool) (p : Part) : Part :=
  if fails then (p.refuseDocket .busError).accessFailed
  else
    let k := p.classDef c.cls
    (p.hostWrite reply (containerReport k i c)).finishDocket
      { result := .ok, first := percentUsed k c.exposure, second := 0, value := c.exposure }

/-- QUERY: settled to now in RUNNING; in AWAIT_TIME the record is reported as replay left it. -/
def Part.queryDocket (a : QueryArgs) (fails : Bool) (p : Part) : Part :=
  if !addrOk a.reply 64 then p.refuseDocket .badArg
  else match p.lookup a.id with
    | none => p.refuseDocket .unknownId
    | some (i, c) =>
      if p.jnc.engine = .running then
        let (p, img) := p.settleSlot i p.now
        let p := if img then p.offerDocket (.image i) else p
        p.reportContainer i ((p.slot i).getD c) a.reply fails
      else p.reportContainer i c a.reply fails

/-! ## SET_CLASS (R3) -/

/-- The ranges of R2. -/
def ClassArgs.valid (a : ClassArgs) : Bool :=
  decide (1 ≤ a.allowance) && decide (a.allowance ≤ 1048575) && decide (a.warnMargin ≤ a.allowance) &&
    decide (a.ceiling ≤ 100) && decide (300 ≤ a.bakeTemp) && decide (a.bakeTemp ≤ a.bakeMax) &&
    decide (a.bakeMax ≤ 1500) && decide (1 ≤ a.bakeDuration) && decide (a.bakeDuration ≤ 65535) &&
    decide (a.maxBakes ≤ 15)

/-- The record a SET_CLASS gives, with the two derived figures (R2). -/
def ClassArgs.define (a : ClassArgs) : ClassDef :=
  ClassImage.define { allowance := a.allowance, warnMargin := a.warnMargin, ceiling := a.ceiling, maxBakes := a.maxBakes
                      bakeTemp := a.bakeTemp, bakeMax := a.bakeMax, bakeDuration := a.bakeDuration }

def Part.checkClass (a : ClassArgs) (p : Part) : Except ResultCode (Fin 16) :=
  match finOf? 16 a.cls with
  | none => .error .badClass
  | some n =>
    check (a.defined == 0 || (a.defined == 1 && a.valid)) .badArg <|
    check ((p.cls n).useCount == 0) .classInUse <|
    .ok n

def Part.setClassDocket (a : ClassArgs) (p : Part) : Part :=
  match p.checkClass a with
  | .error r => p.refuseDocket r
  | .ok n =>
    let p := p.setCls n { defn := if a.defined = 1 then some a.define else none, useCount := 0 }
    (p.offerDocket (.cls n)).finishDocket (plainAnswer .ok)

/-! ## The commands -/

/-- ENROLL (R27, R28). -/
def execEnroll (s : State) : Host.Outcome State Fault Refusal :=
  .next (s.powered fun p => match p.handedRequest with
    | some (.enroll a) => p.enrollDocket a
    | _ => p)

/-- SPLIT (R29 to R31). -/
def execSplit (s : State) : Host.Outcome State Fault Refusal :=
  .next (s.powered fun p => match p.handedRequest with
    | some (.split a) => p.splitDocket a
    | _ => p)

/-- RETIRE (R32). -/
def execRetire (s : State) : Host.Outcome State Fault Refusal :=
  .next (s.powered fun p => match p.handedRequest with
    | some (.retire id) => p.retireDocket id
    | _ => p)

/-- QUARANTINE (R33). -/
def execQuarantine (s : State) : Host.Outcome State Fault Refusal :=
  .next (s.powered fun p => match p.handedRequest with
    | some (.quarantine id) => p.quarantineDocket id
    | _ => p)

/-- RELEASE (R35, R36). -/
def execRelease (s : State) : Host.Outcome State Fault Refusal :=
  .next (s.powered fun p => match p.handedRequest with
    | some (.release a) => p.releaseDocket a
    | _ => p)

/-- QUERY (R37, R38). -/
def execQuery (s : State) : Host.Outcome State Fault Refusal :=
  .next (s.powered fun p => match p.handedRequest with
    | some (.query a) => p.queryDocket a false
    | _ => p)

/-- SET_CLASS (R3). -/
def execSetClass (s : State) : Host.Outcome State Fault Refusal :=
  .next (s.powered fun p => match p.handedRequest with
    | some (.setClass a) => p.setClassDocket a
    | _ => p)

end Sys2Proof.Machine
end

