-- ==== Sys2Proof/Machine/Movements.lean ====
section
/-! DEFINITION. Movements: the MOVE_LIST docket, its entries, and what applying one does (R102 to R116, R119, R126). -/

namespace Sys2Proof.Machine

/-! ## The applied time (R105) -/

/-- T′: the entry's time within the five clamps, from now, the backdate limit, S and the two condition times. -/
def appliedTime (T now backdate settled oldZone newZone : Nat) : Nat :=
  max newZone (max oldZone (max settled (max (now - backdate) (min (if T = 0 then now else T) now))))

/-- Whether the clamps changed the time (R103, R105). -/
def wasClamped (T now applied : Nat) : Bool := applied != (if T = 0 then now else T)

/-- The repeat test (R107). -/
def isRepeat (c : Container) (target : Fin 64) (applied window : Nat) : Bool :=
  match c.lastMove with
  | some (z, t) => z == target && decide (applied - t < window)
  | none => false

/-! ## Leaving and entering (R109 to R113, R119) -/

/-- A BAKING container's bake is abandoned: OPEN, or EXPIRED at its limit (R111, R126). -/
def Container.abandonBake (k : ClassDef) (c : Container) : Container :=
  if c.custody = .baking then
    limitRule k { c with custody := .opened, mode := .hold, bakeProgress := none, bakeRunStart := none }
  else c

/-- Step 3: the flags, then the unsealing that a LINE zone does (R109, R110). -/
def Container.applyFlags (unsealFlag resealFlag : Bool) (kind : ZoneKind) (c : Container) : Container :=
  if resealFlag ∧ c.custody = .opened then { c with custody := .sealed }
  else if (unsealFlag ∨ kind = .line) ∧ c.custody = .sealed then { c with custody := .opened }
  else c

/-- Step 4: the zone, the zone entry time, the last move, and a new stay (R112). -/
def Container.enter (z : Fin 64) (t : Nat) (c : Container) : Container :=
  { c with zone := z, zoneEntry := t, lastMove := some (z, t), bakedThisStay := false }

/-- The bake rules on entry into an oven (R119). -/
def Container.startBake (k : ClassDef) (kind : ZoneKind) (c : Container) : Container :=
  if kind = .oven ∧ (c.custody = .opened ∨ c.custody = .expired) then
    if c.bakeCount < k.maxBakes then { c with custody := .baking, mode := .hold, bakeProgress := some 0 }
    else { c with custody := .quarantined, quarantineCause := some .bakeLimit }
  else c

/-- The exit from the old zone and the entry into the new one. A re-entry's two reports are carried together, before
the DOU derives a drive from the counts (R108, R112). A container whose bake is abandoned at the limit leaves with the
contribution it made while BAKING: the oven's blocking count does not rise first (DESIGN CHOICE, log 74). -/
def Part.transfer (i : Fin 2048) (old new : Container) (p : Part) : Part :=
  if old.zone = new.zone then
    let r := p.zone new.zone
    (p.setZone new.zone { r with members := r.members.filter (· != i) ++ [i] }).moveCounts new.zone old.blocks
      old.countsWarned new.blocks new.countsWarned
  else (p.leaveZone i old).joinZone i new

/-- Steps 2 to 6 for a container already settled to `t` in its old zone (R111 to R113). R19 is carried once, at the end:
its level report compares the level before the movement with the level after it (DESIGN CHOICE, log 57), and its
post is made whether or not the summary has changed (R19 step 5). -/
def Part.applyMove (i : Fin 2048) (target : Fin 64) (unsealFlag resealFlag : Bool) (t : Nat) (c : Container)
    (p : Part) : Part :=
  let k := p.classDef c.cls
  let kind := (p.zone target).config.kind
  let entered := ((c.abandonBake k).applyFlags unsealFlag resealFlag kind).enter target t
  let p := p.transfer i c entered
  let final := (p.deriveRecord false (entered.startBake k kind)).1
  let p := (p.setSlot i (some final)).placeDue i final
  let p := p.moveCounts target entered.blocks entered.countsWarned final.blocks final.countsWarned
  (p.reportLevel c.level final.level).postSlot i

/-! ## One entry (R104) -/

/-- Add a slot to the touched list (R114). -/
def Part.touch (i : Fin 2048) (p : Part) : Part :=
  { p with ctu := { p.ctu with list := p.ctu.list.map fun l =>
      { l with touched := if l.touched.contains i then l.touched else l.touched ++ [i] } } }

/-- RESEAL is refused for a container that leaving would not leave OPEN (R104 step 7). -/
def refusesReseal (k : ClassDef) (e : MoveEntry) (c : Container) : Bool :=
  e.resealFlag && (c.abandonBake k).custody != .opened

/-- Steps 6 to 8: settle, the flags against the container's state, apply. -/
def Part.moveTo (i : Fin 2048) (target : Fin 64) (e : MoveEntry) (t : Nat) (p : Part) : Part × MoveOutcome :=
  let (p, img) := p.settleSlot i t
  match p.slot i with
  | some c =>
    if refusesReseal (p.classDef c.cls) e c then (if img then p.touch i else p, .badFlags)
    else
      ((p.applyMove i target e.unsealFlag e.resealFlag t c).touch i,
        if wasClamped e.time p.now t then .clamped else .applied)
  | none => (p, .unknownId)

/-- A target zone that a movement can name (R104 step 2). -/
def Part.targetZone (p : Part) (n : Nat) : Option (Fin 64) :=
  (finOf? 64 n).filter fun z => (p.zone z).config.kind != .unused

/-- Handle one entry at now (R104). -/
def Part.handleEntry (e : MoveEntry) (p : Part) : Part × MoveOutcome :=
  match p.lookup e.id with
  | none => (p, .unknownId)
  | some (i, c) => match p.targetZone e.zone with
    | none => (p, .badZone)
    | some z =>
      if e.resealFlag ∧ (e.unsealFlag ∨ (p.zone z).config.kind = .line) then (p, .badFlags)
      else
        let t := appliedTime e.time p.now p.znu.settings.backdate c.settled (p.zone c.zone).conditionTime
          (p.zone z).conditionTime
        if isRepeat c z t p.znu.settings.repeatWindow then (p, .repeated) else p.moveTo i z e t

/-! ## The list (R102, R114 to R116) -/

/-- The counts after an entry; `written`: its outcome was written (R102, R115). -/
def ListRecord.note (l : ListRecord) (o : MoveOutcome) (written : Bool) : ListRecord :=
  { l with
    next := l.next + 1
    handled := l.handled + written.toNat
    applied := if o = .applied ∨ o = .clamped then l.applied + 1 else l.applied
    clamped := if o = .clamped then l.clamped + 1 else l.clamped }

def Part.onList (f : ListRecord → ListRecord) (p : Part) : Part :=
  { p with ctu := { p.ctu with list := p.ctu.list.map f } }

/-- One image for each slot of the touched list, in its order (R114). -/
def Part.offerTouched (p : Part) : Part :=
  match p.ctu.list with
  | some l => l.touched.foldl (fun p i => p.offerDocket (.image i)) p
  | none => p

/-- The list has ended: its images are staged and its docket finished (R114 to R116). -/
def Part.endList (busError : Bool) (p : Part) : Part :=
  match p.ctu.list with
  | some l =>
    p.offerTouched.finishDocket
      { result := if busError then .busError else if l.applied < l.count then .partialDone else .ok
        first := l.applied, second := l.clamped, value := l.handled }
  | none => p

/-- The address of entry `k` of a list. -/
def ListRecord.entryAddr (l : ListRecord) (k : Nat) : HostAddr := l.addr + BitVec.ofNat 64 (16 * k)

/-- The address of the outcome byte of entry `k` (11.6). -/
def ListRecord.outcomeAddr (l : ListRecord) (k : Nat) : HostAddr := l.addr + BitVec.ofNat 64 (16 * k + 10)

/-- The list whose next entry may be taken up: the docket is being worked on, no power-fail warning stands, and
staging is not closed for a soft reset (R117). -/
def Part.openList (p : Part) : Option ListRecord :=
  match p.ctu.list, p.exi.inHand with
  | some l, some d =>
    if d.stage = .working ∧ l.next < l.count ∧ p.tbu.powerFail = false ∧ p.jnc.closing = none then some l else none
  | _, _ => none

/-- MOVE_LIST: the checks, and the list record (R102). -/
def Part.moveListDocket (a : MoveListArgs) (p : Part) : Part :=
  if addrOk a.addr 16 && decide (1 ≤ a.count) && decide (a.count ≤ 256) then
    ({ p with ctu := { p.ctu with
        list := some { addr := a.addr, count := a.count, next := 0, handled := 0, applied := 0, clamped := 0
                       touched := [] } } } : Part).workDocket
  else p.refuseDocket .badArg

/-- Whether the last entry has been handled. -/
def Part.listDone (p : Part) : Bool :=
  match p.ctu.list with
  | some l => decide (l.count ≤ l.next)
  | none => false

/-- MOVE_ENTRY: one entry is read, handled, and given its outcome. With `fails`, the outcome write fails on the bus: the
entry's effects stand and the list is cut short (R116). -/
def Part.moveEntry (fails : Bool) (p : Part) : Part :=
  match p.openList with
  | some l =>
    let (p, o) := p.handleEntry (decodeMoveEntry (p.hostRead (l.entryAddr l.next) 16))
    if fails then ((p.onList fun l => l.note o false).endList true).accessFailed
    else
      let p := (p.hostWrite (l.outcomeAddr l.next) [BitVec.ofNat 8 o.code]).onList fun l => l.note o true
      if p.listDone then p.endList false else p
  | none => p

/-- The read of an entry fails on the bus: NOT_DONE goes into it and the later entries, up to the first of these writes
that fails (R116). -/
def Part.entryReadFails (notDone : Nat) (p : Part) : Part :=
  match p.openList with
  | some l =>
    let p := (List.range' l.next (min notDone (l.count - l.next))).foldl
      (fun p k => p.hostWrite (l.outcomeAddr k) [BitVec.ofNat 8 MoveOutcome.notDone.code]) p
    (p.endList true).accessFailed
  | none => p

/-! ## The commands -/

/-- MOVE_LIST (R102). -/
def execMoveList (s : State) : Host.Outcome State Fault Refusal :=
  .next (s.powered fun p => match p.handedRequest with
    | some (.moveList a) => p.moveListDocket a
    | _ => p)

/-- MOVE_ENTRY (R104). -/
def execMoveEntry (stores : Stores) (s : State) : Host.Outcome State Fault Refusal :=
  .next (s.powered fun p => (p.hostStores stores).moveEntry false)

end Sys2Proof.Machine
end

