-- ==== Sys2Proof/Machine/Deadlines.lean ====
section
/-! DEFINITION. The second tick, the firing pass and its fire requests, and the resync (R123, R131 to R135, R166,
R168). -/

namespace Sys2Proof.Machine

/-! ## The second tick (R131, R153, R168) -/

/-- The backup domain is fed by the main supply or by the backup supply. -/
def Tbu.counting (t : Tbu) : Bool := t.mainPower || t.backupSupply

/-- What the blocks do at the tick at `t`: a firing pass and the JNC's count of 60 s in RUNNING, and the engine time
write while intake is ON. -/
def Part.ticked (t : Nat) (p : Part) : Part :=
  let p := if p.jnc.engine = .running then
      (p.onDlu (Dlu.tick t)).onJnc fun j => { j with sinceMark := j.sinceMark + 1 }
    else p
  if p.exi.intake = .on then { p with exi := { p.exi with timeWrite := some t } } else p

/-- SECOND_TICK: the counter rises until its last second; the blocks are ticked while main power is present. -/
def Part.secondTick (p : Part) : Part :=
  if p.tbu.counting && decide (p.tbu.counter < Config.lastSecond) then
    let p := { p with tbu := { p.tbu with counter := p.tbu.counter + 1 } }
    if p.tbu.mainPower then p.ticked p.tbu.counter else p
  else p

/-- PENDING_PASS_START: the running pass has ended, and one starts at the pending time (R131). -/
def Part.pendingPassStart (p : Part) : Part :=
  match p.dlu.pass, p.dlu.pendingPass with
  | none, some t => p.onDlu fun d => Dlu.startPass t { d with pendingPass := none }
  | _, _ => p

/-! ## Fire requests (R132 to R135) -/

/-- The pass hands its next entry to the CTU: the container is settled to the due, which applies the warning, the
expiry or the completion, and the change is carried through. -/
def Part.fire (kind : DueKind) (p : Part) : Part :=
  match p.dlu.take kind with
  | some (e, d) =>
    (Part.imageIf e.slot (({ p with dlu := d } : Part).settleSlot e.slot e.due)).onDlu Dlu.checkPass
  | none => p

/-! ## Resync (R166) -/

/-- The first journal-dirty zone. -/
def Part.dirtyZone (p : Part) : Option (Fin 64) := firstFin 64 fun z => (p.zone z).dirty

/-- The first journal-dirty container. -/
def Part.dirtySlot (p : Part) : Option (Fin 2048) := firstFin 2048 fun i => match p.slot i with
  | some c => c.dirty
  | none => false

/-- Stage the DROP_MARK at the recorded drop time. -/
def Part.stageDropMark (t : Nat) (p : Part) : Part :=
  (p.enqueue .resync [.dropMark t]).onJnc fun j => { j with dropTime := none, markStaged := true, endStaged := false }

/-- The next entry of the resync, in the order of R166; a container is settled to now before its image. -/
def Part.resyncEntry (p : Part) : Part :=
  match p.jnc.dropTime with
  | some t => p.stageDropMark t
  | none => match p.dirtyZone with
    | some z => p.enqueue .resync [.zoneImage z (p.zone z).image]
    | none => match p.dirtySlot with
      | some i =>
        let p := (p.settleSlot i p.now).1
        p.enqueue .resync (p.offerPayloads (.image i))
      | none =>
        if p.jnc.endStaged then p
        else (p.enqueue .resync [.resyncEnd]).onJnc fun j => { j with endStaged := true }

/-- RESYNC_STAGE: one entry, while the queue holds fewer than 32 and staging is not held. -/
def Part.resyncStage (p : Part) : Part :=
  if p.housekeeping && p.jnc.journal == .resync && !p.held && decide (p.jnc.queue.length < Config.jncPlaces) then
    p.resyncEntry.pump
  else p

/-! ## The commands -/

/-- SECOND_TICK (R168). -/
def execSecondTick (s : State) : Host.Outcome State Fault Refusal := .next { s with part := s.part.secondTick }

/-- PENDING_PASS_START (R131). -/
def execPendingPassStart (s : State) : Host.Outcome State Fault Refusal :=
  .next (s.powered fun p => p.pendingPassStart)

/-- WARN_DUE (R133). -/
def execWarnDue (s : State) : Host.Outcome State Fault Refusal := .next (s.powered fun p => p.fire .warnDue)

/-- EXPIRE_DUE (R134). -/
def execExpireDue (s : State) : Host.Outcome State Fault Refusal := .next (s.powered fun p => p.fire .expireDue)

/-- BAKE_DUE (R123, R124). -/
def execBakeDue (s : State) : Host.Outcome State Fault Refusal := .next (s.powered fun p => p.fire .bakeDue)

/-- RESYNC_STAGE (R166). -/
def execResyncStage (s : State) : Host.Outcome State Fault Refusal := .next (s.powered fun p => p.resyncStage)

end Sys2Proof.Machine
end

