-- ==== Sys2Proof/Machine/Exchange.lean ====
section
/-! DEFINITION. The Exchange Interface: registers, intake, sweeps, answers, the board, interrupts, a group cut short and
the bus reset (R141 to R157), and the steps of a soft reset (R174, R175). -/

namespace Sys2Proof.Machine

/-! ## Taking a docket (R146 to R148) -/

/-- The address of docket slot `k` (R144). -/
def Part.slotAddr (p : Part) (k : Nat) : HostAddr := p.areaAddr (36864 + 64 * k)

/-- No docket is taken: a turn-off is pending (R143), the power-fail warning stands, or staging is closed for a reset
(R174, R175). -/
def Part.noTaking (p : Part) : Bool := p.exi.turnOff || p.tbu.powerFail || p.jnc.closing.isSome

/-- The engine states that allow a kind (R148). -/
def Request.allowed (q : Request) (e : EngineState) : Bool :=
  match e with
  | .running => true
  | .restoring => false
  | .blank => match q with
    | .setTime _ | .format => true
    | _ => false
  | .awaitTime => match q with
    | .setTime _ | .query _ => true
    | _ => false

/-- How a docket starts once it is TAKEN: judged BAD_KIND or NOT_NOW, or handed to its owner (R147). -/
def judge (q : Request) (e : EngineState) : DocketStage :=
  match q with
  | .badKind => .finished (plainAnswer .badKind)
  | _ => if q.allowed e then .handed else .finished (plainAnswer .notNow)

/-- The slot at the cursor, as a sweep reads it (R145). -/
def Part.readSlot (p : Part) : List Byte := p.hostRead (p.slotAddr p.exi.cursor) 64

/-- TAKEN is written, and the docket is in hand (R147). -/
def Part.takeDocket (bs : List Byte) (p : Part) : Part :=
  let q := decodeRequest bs
  (p.hostWrite (p.slotAddr p.exi.cursor) [2]).setInHand
    (some { slot := p.exi.cursor, notify := requestNotify bs, request := q, stage := judge q p.jnc.engine
            givenUp := false, triggers := [], awaitRunning := false, durable := false })

/-! ## Sweeps (R146, R151) -/

/-- The sweep ends and none follows. Ending the intake clears the extra-pass flag also where it was set in RESTORING and no
sweep has begun (DESIGN CHOICE, log 99). -/
def Part.idleSweep (p : Part) : Part := { p with exi := { p.exi with sweeping := false, extraPass := false } }

/-- One read of the slot at the cursor: a POSTED docket is taken, anything else ends the sweep. -/
def Part.sweepRead (onEnd : Part → Part) (p : Part) : Part :=
  let bs := p.readSlot
  if ownerPosted bs then p.takeDocket bs else onEnd p

/-- The sweep goes on: it waits for a docket in hand, and at its end makes the one more pass asked for. -/
def Part.sweep (p : Part) : Part :=
  if p.exi.inHand.isSome then p
  else p.sweepRead fun p =>
    if p.exi.extraPass then
      ({ p with exi := { p.exi with extraPass := false } } : Part).sweepRead Part.idleSweep
    else p.idleSweep

/-- A sweep begins at the cursor. -/
def Part.beginSweep (p : Part) : Part :=
  if p.noTaking then p else Part.sweep { p with exi := { p.exi with sweeping := true } }

/-- A sweep request (R146). -/
def Part.sweepRequest (p : Part) : Part :=
  if p.exi.intake = .on then
    if p.exi.sweeping ∨ p.jnc.engine = .restoring then { p with exi := { p.exi with extraPass := true } }
    else p.beginSweep
  else p

/-- The part as a sweep asked for in RESTORING finds it to begin, once the engine has left that state (R146). -/
def Part.dueSweep (p : Part) : Option Part :=
  if p.jnc.engine ≠ .restoring ∧ p.exi.intake = .on ∧ p.exi.extraPass ∧ p.exi.sweeping = false then
    some { p with exi := { p.exi with extraPass := false } }
  else none

/-- The engine has left RESTORING: a sweep asked for meanwhile begins (R146). -/
def Part.leaveRestoring (p : Part) : Part :=
  match p.dueSweep with
  | some q => q.beginSweep
  | none => p

/-- SWEEP_TIMER_EXPIRY: the timer restarts, and a sweep is requested. -/
def Part.sweepExpiry (p : Part) : Part :=
  if p.exi.intake = .on ∧ p.exi.sweepTimer.isSome then
    ({ p with exi := { p.exi with sweepTimer := some p.sweepPeriod } } : Part).sweepRequest
  else p

/-! ## Ending the work for a reset (R174, R175) -/

/-- A movement list is ended: its images are staged, and its docket is not answered (R117). -/
def Part.cutList (p : Part) : Part :=
  match p.openList with
  | some _ =>
    let p := p.offerTouched
    { p with ctu := { p.ctu with list := none } }
  | none => p

/-- The reset that follows once everything has been committed; with the journal FAILED it follows at once (R175). -/
def Part.recover (p : Part) : Part :=
  if p.jnc.journal = .failed ∧ p.jnc.format = none then p.powerOn
  else
    (p.onJnc fun j => { j with closing := some (match j.closing with
      | some c => { recover := true, marked := c.marked && j.format.isNone }
      | none => { recover := true, marked := false }) }).pump

/-- The steps of a soft reset: no further docket, the list ended, the queue closed and committed, then as at main power-on
(R175). -/
def Part.resetSteps (p : Part) : Part :=
  let p := p.idleSweep.cutList
  (if p.jnc.closing.isSome then p else p.closeStaging true).recover

/-- A soft reset that has waited for a FORMAT can take its steps: the FORMAT has ended, and no power-fail warning has
closed staging (R175). The FORMAT's docket is answered first (DESIGN CHOICE, log 83). -/
def Jnc.resetDue (j : Jnc) : Bool := j.resetWaits && j.format.isNone && j.closing.isNone

/-- The docket in hand has ended: a soft reset that waited for it takes its steps. -/
def Part.resetAfterFormat (p : Part) : Part :=
  if p.jnc.resetDue then (p.onJnc fun j => { j with resetWaits := false }).resetSteps else p

/-! ## Answering (R149, R157) -/

/-- The docket is no longer in hand; its list record goes with it (R102). -/
def Part.dropDocket (p : Part) : Part := ({ p with ctu := { p.ctu with list := none } } : Part).setInHand none

/-- After a docket the sweep reads the next slot, unless it has been ended. -/
def Part.nextDocket (p : Part) : Part :=
  if p.exi.sweeping then (if p.noTaking then p.idleSweep else p.sweep) else p

/-- The docket in hand has finished, and its commits are not waited for: they are made, or the journal is FAILED (steps
1 and 2). -/
def Part.readyAnswer (p : Part) : Option (InHand × Answer) :=
  if p.jnc.journal = .failed ∨ p.docketCommitted then p.finishedDocket else none

/-- NOT_DURABLE: the journal was FAILED when the docket finished, or became so while it waited for its commits (step
2). -/
def Part.notDurable (d : InHand) (p : Part) : Bool := p.jnc.journal == .failed && !d.durable

/-- Steps 3 and 4: the answer fields, then ANSWERED. -/
def Part.writeAnswerFields (d : InHand) (a : Answer) (p : Part) : Part :=
  p.hostWrite (p.slotAddr d.slot + 48) (a.bytes (p.notDurable d))

def Part.writeAnswered (d : InHand) (p : Part) : Part := p.hostWrite (p.slotAddr d.slot) [3]

/-- Step 5: the cursor moves on, modulo D. -/
def Part.advanceCursor (p : Part) : Part :=
  Part.postHeader { p with exi := { p.exi with cursor := (p.exi.cursor + 1) % p.docketCount } }

/-- The docket in hand is answered, or ends with no write when it was given up at a bus reset, and is no longer in hand
(R149, R157; log 11). None while it is not ready, and after a power-fail warning or with a soft reset under way, when
it is not answered (R143). -/
def Part.answered (p : Part) : Option Part :=
  match p.readyAnswer with
  | some (d, a) =>
    if d.givenUp then some p.dropDocket
    else if p.tbu.powerFail ∨ p.jnc.closing.isSome then none
    else
      let p := (((p.writeAnswerFields d a).writeAnswered d).advanceCursor).dropDocket
      some (if d.notify then p.raise .docket else p)
  | none => none

/-- ANSWER_DOCKET: an access fault that waited for the docket is taken, a soft reset that waited for it takes its steps, or
the sweep goes on. An access fault that waited goes before a turn-off that is pending, and ends it (DESIGN CHOICE, log
86). -/
def Part.answerDocket (p : Part) : Part :=
  match p.answered with
  | some q =>
    if q.exi.faultAfter then q.enterAccessFault.resetAfterFormat
    else if q.jnc.resetDue then q.resetAfterFormat
    else q.nextDocket
  | none => p

/-! ## Registers and intake (R141 to R143) -/

/-- The checks of R142 on the configuration. -/
def Part.configOk (p : Part) : Bool :=
  p.exbase != 0 && p.exbase.toNat % 4096 == 0 && decide (p.exi.docketCode.toNat ≤ 5) &&
    decide (1 ≤ p.exi.periodCode.toNat)

/-- Intake turns ON: the cursor is 0, the sweep timer starts, and the whole board is marked (R143, R154). No sweep asked for
before stands over, one asked for in RESTORING included (DESIGN CHOICE, log 99). -/
def Part.intakeOn (p : Part) : Part :=
  Part.postAll { p with exi := { p.exi with
    intake := .on, turnOff := false, faultAfter := false, configError := false, sweeping := false
    extraPass := false, cursor := 0, sweepTimer := some p.sweepPeriod } }

/-- ENGCTL written with INTAKE set (R142). -/
def Part.intakeSet (p : Part) : Part :=
  if p.exi.intake = .on then { p with exi := { p.exi with turnOff := false } }
  else if p.configOk then p.intakeOn
  else { p with exi := { p.exi with configError := true } }

/-- ENGCTL written with INTAKE clear (R142). -/
def Part.intakeClear (p : Part) : Part :=
  match p.exi.intake with
  | .on => if p.exi.turnOff then p else Part.idleSweep { p with exi := { p.exi with turnOff := true } }
  | .accessFault => { p with exi := { p.exi with intake := .off } }
  | .off => p

/-- A write of a register that has no command of its own: EXBASE and EXCFG are ignored while intake is ON, and the
read-only registers always (R141). -/
def Part.registerWrite (reg : WindowReg) (value : Word32) (p : Part) : Part :=
  if p.exi.intake = .on then p
  else match reg with
    | .exbaseL => { p with exi := { p.exi with exbaseL := value } }
    | .exbaseH => { p with exi := { p.exi with exbaseH := value } }
    | .excfg => { p with exi := { p.exi with docketCode := value.extractLsb' 0 3
                                             periodCode := value.extractLsb' 8 8 } }
    | .engstat | .etime => p

/-! ## Interrupts (R155) -/

/-- A write of INTCAUSE clears each cause written 1. -/
def Part.writeCause (value : Word32) (p : Part) : Part :=
  { p with exi := { p.exi with cause := p.exi.cause &&& ~~~(value.setWidth 4) } }

/-- The causes that are set and that a mask write newly enables. -/
def Exi.newlyEnabled (e : Exi) (mask : BitVec 4) : List IrqCause :=
  [IrqCause.docket, .alert, .engine, .access].filter fun c =>
    e.cause.getLsbD c.bit && mask.getLsbD c.bit && !e.mask.getLsbD c.bit

/-- A write of INTMASK: a message for each cause that becomes set and enabled. -/
def Part.writeMask (value : Word32) (p : Part) : Part :=
  let mask := value.setWidth 4
  { p with exi := { p.exi with mask := mask, messages := p.exi.messages ++ p.exi.newlyEnabled mask } }

/-! ## The board (R152 to R154) -/

/-- The writes of a group: the generation before and after, and the entries between. -/
inductive GroupWrite where
  | generation (odd : Bool)
  | zone (z : Fin 64)
  | slot (i : Fin 2048)
  | header
  deriving DecidableEq, Repr

/-- Whether some mark is set. -/
def Exi.marked (e : Exi) : Bool := e.headerMark || !e.zoneMarks.isEmpty || !e.slotMarks.isEmpty

/-- The writes of the group that the marks call for: the zones, the containers, the header. Zones and containers are each
taken in ascending number (DESIGN CHOICE, log 58). -/
def Exi.groupWrites (e : Exi) : List GroupWrite :=
  .generation true :: (e.zoneMarks.map .zone ++ e.slotMarks.map .slot ++
    (if e.headerMark then [.header] else []) ++ [.generation false])

/-- The offset and the bytes of one write; `base` is the generation before the group. -/
def Part.groupBytes (p : Part) (intake : IntakeState) (base : Word32) : GroupWrite → Nat × List Byte
  | .generation true => (0, leBytes 4 (base + 1).toNat)
  | .generation false => (0, leBytes 4 (base + 2).toNat)
  | .zone z => (256 + 16 * z.val, p.zoneSummary z)
  | .slot i => (4096 + 16 * i.val, (containerSummary p.classDef (p.slot i)).bytes)
  | .header => (8, p.headerBytes intake)

/-- Make some writes of a group. -/
def Part.writeGroupItems (intake : IntakeState) (base : Word32) (items : List GroupWrite) (p : Part) : Part :=
  items.foldl (fun p w =>
    let (off, bytes) := p.groupBytes intake base w
    p.hostWrite (p.areaAddr off) bytes) p

/-- The zone writes of a group are complete: pending-open is cleared on each line of a written zone that had it set
(R92), of a zone made UNUSED too, whose summary shows no flag (DESIGN CHOICE, log 97). -/
def Part.clearOpened (zs : List (Fin 64)) (p : Part) : Part :=
  (List.finRange 16).foldl (fun p n =>
    let l := p.line n
    match l.zone with
    | some z => if l.pendingOpen && zs.contains z then p.setLine n { l with pendingOpen := false } else p
    | none => p) p

/-- One whole group: the generation goes up by two, the marks it took are clear, and ALERT follows a rise it carried
(R153). -/
def Part.writeBoard (intake : IntakeState) (p : Part) : Part :=
  let e := p.exi
  let p := (p.writeGroupItems intake e.generation e.groupWrites).clearOpened e.zoneMarks
  let p := { p with exi := { p.exi with generation := e.generation + 2, headerMark := false, zoneMarks := []
                                        slotMarks := [], rise := false } }
  if e.rise then p.raise .alert else p

/-- BOARD_GROUP_WRITE. -/
def Part.boardGroup (p : Part) : Part :=
  if p.exi.intake = .on ∧ p.exi.marked then p.writeBoard .on else p

/-- INTAKE_OFF_COMPLETE: no docket is in hand; one last group is written, whose header shows OFF (R143). An engine time write
that still waits is dropped (DESIGN CHOICE, log 76), and so is a sweep asked for in RESTORING (DESIGN CHOICE, log 99). -/
def Part.intakeOff (p : Part) : Part :=
  if p.exi.intake = .on ∧ p.exi.turnOff ∧ p.exi.inHand = none then
    let p := p.postHeader.writeBoard .off
    { p with exi := { p.exi with intake := .off, turnOff := false, faultAfter := false, sweeping := false
                                 extraPass := false, sweepTimer := none, timeWrite := none } }
  else p

/-- ENGINE_TIME_WRITE: a write of its own, outside the generation (R153). -/
def Part.writeTime (p : Part) : Part :=
  match p.exi.timeWrite with
  | some t =>
    if p.exi.intake = .on then
      let p := p.hostWrite (p.areaAddr 4) (leBytes 4 t)
      { p with exi := { p.exi with timeWrite := none } }
    else p
  | none => p

/-! ## A group cut short (R156, R157) -/

/-- The first `done` writes of a group, at most all but the last: what a group cut short has written. -/
def Exi.writtenOf (e : Exi) (done : Nat) : List GroupWrite := e.groupWrites.take (min done (e.groupWrites.length - 1))

/-- The EXI as the group that can be under way finds it: intake is ON and a mark is set, or, for the last group of a
turn-off, no docket is in hand and the header's mark is set first (R143). -/
def Exi.groupUnderWay (e : Exi) (last : Bool) : Option Exi :=
  if last then (if e.intake = .on ∧ e.turnOff ∧ e.inHand = none then some { e with headerMark := true } else none)
  else if e.intake = .on ∧ e.marked then some e
  else none

/-- A group is cut short: what it has written stands, and the generation goes to the next even value unwritten; with what
it wrote, and the EXI as it found it. -/
def Part.cutGroup (cut : GroupCut) (p : Part) : Option (Part × Exi × List GroupWrite) :=
  match p.exi.groupUnderWay cut.last with
  | some e =>
    let made := e.writtenOf cut.done
    let p := p.writeGroupItems (if cut.last then .off else .on) e.generation made
    some ({ p with exi := { p.exi with generation := e.generation + 2 } }, e, made)
  | none => none

/-- A write of a group fails: ACCESS at once, the marks of the entries not written are set again, and ALERT is set if the
group carried a rise. The marks set again carry none (DESIGN CHOICE, log 94). -/
def Part.groupFails (cut : GroupCut) (p : Part) : Part :=
  match p.cutGroup cut with
  | some (p, e, made) =>
    let p := Part.accessFailed { p with exi := { p.exi with
        headerMark := e.headerMark && !made.contains .header
        zoneMarks := e.zoneMarks.filter fun z => !made.contains (.zone z)
        slotMarks := e.slotMarks.filter fun i => !made.contains (.slot i)
        rise := false } }
    if e.rise then p.raise .alert else p
  | none => p

/-! ## Bus reset (R157) -/

/-- BUS_RESET: the registers and the sweep take their reset values, the marks are cleared, the generation is kept, and a
docket in hand is given up. A group cut after some writes leaves them made and its generation raised, unwritten. SOFT_RESET
reads clear from then on, though a soft reset under way goes on (DESIGN CHOICE, log 75). -/
def Part.busReset (cut : Option GroupCut) (p : Part) : Part :=
  let q := match cut.bind p.cutGroup with
    | some (q, _, _) => q
    | none => p
  { q with exi := { Exi.reset with
      generation := q.exi.generation
      inHand := q.exi.inHand.map fun d => { d with givenUp := true }
      messages := q.exi.messages } }

/-! ## The commands -/

/-- NUDGE (R146). -/
def execNudge (_value : Word32) (stores : Stores) (s : State) : Host.Outcome State Fault Refusal :=
  .next (s.powered fun p => (p.hostStores stores).sweepRequest)

/-- SWEEP_TIMER_EXPIRY (R146). -/
def execSweepTimerExpiry (stores : Stores) (s : State) : Host.Outcome State Fault Refusal :=
  .next (s.powered fun p => (p.hostStores stores).sweepExpiry)

/-- ANSWER_DOCKET (R149). -/
def execAnswerDocket (stores : Stores) (s : State) : Host.Outcome State Fault Refusal :=
  .next (s.powered fun p => (p.hostStores stores).answerDocket)

/-- INTAKE_SET (R142). -/
def execIntakeSet (s : State) : Host.Outcome State Fault Refusal := .next (s.powered fun p => p.intakeSet)

/-- INTAKE_CLEAR (R142). -/
def execIntakeClear (s : State) : Host.Outcome State Fault Refusal := .next (s.powered fun p => p.intakeClear)

/-- INTAKE_OFF_COMPLETE (R143). -/
def execIntakeOffComplete (s : State) : Host.Outcome State Fault Refusal := .next (s.powered fun p => p.intakeOff)

/-- INTCAUSE_WRITE (R155). -/
def execIntcauseWrite (value : Word32) (s : State) : Host.Outcome State Fault Refusal :=
  .next (s.powered fun p => p.writeCause value)

/-- INTMASK_WRITE (R155). -/
def execIntmaskWrite (value : Word32) (s : State) : Host.Outcome State Fault Refusal :=
  .next (s.powered fun p => p.writeMask value)

/-- REGISTER_WRITE (R141). -/
def execRegisterWrite (reg : WindowReg) (value : Word32) (s : State) : Host.Outcome State Fault Refusal :=
  .next (s.powered fun p => p.registerWrite reg value)

/-- BOARD_GROUP_WRITE (R153). -/
def execBoardGroupWrite (s : State) : Host.Outcome State Fault Refusal := .next (s.powered fun p => p.boardGroup)

/-- ENGINE_TIME_WRITE (R153). -/
def execEngineTimeWrite (s : State) : Host.Outcome State Fault Refusal := .next (s.powered fun p => p.writeTime)

/-- BUS_RESET (R157). -/
def execBusReset (cut : Option GroupCut) (s : State) : Host.Outcome State Fault Refusal :=
  .next (s.powered fun p => p.busReset cut)

end Sys2Proof.Machine
end

