-- ==== Sys2Proof/Machine/Restore.lean ====
section
/-! DEFINITION. Restore, reconciliation, entry to RUNNING, SET_TIME, FORMAT, and what supplies and resets do
(R4, R7, R43 to R45, R70 to R72, R75, R95, R127, R139, R168 to R175). -/

namespace Sys2Proof.Machine

/-! ## Finding the journal (R161, R170) -/

/-- The entry at a position of a sector. -/
def Flash.entry (f : Flash) (sector pos : Nat) : EntryRead := decodeEntry (f.entryBytes sector pos)

/-- The serial and time of a committed FORMAT entry (R169). -/
def Flash.formatEntry (f : Flash) : Option (Nat × Nat) :=
  let e := f.entry 0 0
  match e.payload with
  | some (.formatEntry serial) => if e.marked then some (serial, e.time) else none
  | _ => none

/-- The first sequence number of a headed sector: its first position holds a committed SECTOR_HEAD of the present
format. -/
def Flash.headed (f : Flash) (serial sector : Nat) : Option Nat :=
  let e := f.entry sector 0
  match e.payload with
  | some (.sectorHead s first) => if e.marked && s == serial then some first else none
  | _ => none

/-- A sector of the journal found: its number and its first sequence number. -/
structure FoundSector where
  sector : Nat
  first : Nat
  deriving DecidableEq, Repr

/-- The headed sectors, ascending. -/
def Flash.headedSectors (f : Flash) (serial : Nat) : List FoundSector :=
  (List.range' 1 1023).filterMap fun n => (f.headed serial n).map fun s => { sector := n, first := s }

/-- The head sector: the headed one with the greatest first sequence number; of several with that number, the lowest (DESIGN
CHOICE, log 100). -/
def greatestFirst : List FoundSector → Option FoundSector
  | [] => none
  | s :: rest => match greatestFirst rest with
    | some r => if s.first < r.first then some r else some s
    | none => some s

def prevSector (n : Nat) : Nat := if n = 1 then 1023 else n - 1

/-- The walk back through the ring from a sector of the journal: each earlier sector joins while it is headed with a
lower first sequence number. -/
def walkBack (headed : List FoundSector) : Nat → FoundSector → List FoundSector
  | 0, s => [s]
  | fuel + 1, s =>
    match headed.find? fun r => r.sector == prevSector s.sector && decide (r.first < s.first) with
    | some r => s :: walkBack headed fuel r
    | none => [s]

/-- The committed entries of one sector of the journal, in position order; `bound` is the first sequence number of the
next sector (R161). SECTOR_HEADs are not among them, so T_last does not count their entry times (DESIGN CHOICE, log 96). -/
def Flash.sectorEntries (f : Flash) (s : FoundSector) (bound : Option Nat) : List (Nat × Payload × EntryRead) :=
  (List.range' 1 63).filterMap fun pos =>
    let e := f.entry s.sector pos
    match e.payload with
    | some (.sectorHead ..) | some (.formatEntry _) | none => none
    | some pl =>
      if e.marked && decide (s.first ≤ e.seq) && (match bound with
          | some b => decide (e.seq < b)
          | none => true) then some (s.sector, pl, e) else none

/-- The committed entries of the journal, oldest first; the sectors are given newest first. -/
def Flash.journalEntries (f : Flash) : List FoundSector → Option Nat → List (Nat × Payload × EntryRead)
  | [], _ => []
  | s :: older, bound => f.journalEntries older (some s.first) ++ f.sectorEntries s bound

/-- The retiring sector of the newest TIME_MARK that names one. -/
def retiringSector (es : List (Nat × Payload × EntryRead)) : Option Nat :=
  (es.foldl (fun (best : Option (Nat × Nat)) e => match e.2.1 with
    | .timeMark (some r) => match best with
      | some (seq, _) => if seq ≤ e.2.2.seq then some (e.2.2.seq, r) else best
      | none => some (e.2.2.seq, r)
    | _ => best) none).map (·.2)

/-- The journal's sectors, newest first, with the retiring sector and any beyond it cut. -/
def cutRetiring (ss : List FoundSector) : Option Nat → List FoundSector
  | some r => ss.takeWhile fun s => s.sector != r
  | none => ss

/-- The position after the last one of a sector that does not read all ones. -/
def Flash.nextPosition (f : Flash) (sector : Nat) : Nat :=
  (List.range 64).foldl (fun k pos => if f.positionErased sector pos then k else pos + 1) 0

/-- The journal sectors outside the journal that are not known to be erased. -/
def Flash.unerased (f : Flash) (inUse : List Nat) : List Nat :=
  (List.range' 1 1023).filter fun n => !inUse.contains n && !f.positionErased n 0

/-- The journal state that restore finds, with the committed entries to replay. Where the sectors walked hold no committed
entry, the next sequence is the first sequence number of the head sector, as of an entry still to follow its SECTOR_HEAD
(DESIGN CHOICE, log 101). -/
def Part.findJournal (serial : Nat) (p : Part) : Part × List (Nat × Payload × EntryRead) :=
  let headed := p.flash.headedSectors serial
  match greatestFirst headed with
  | none =>
    (p.onJnc fun j => { j with serial := BitVec.ofNat 32 serial, notErased := p.flash.unerased [] }, [])
  | some h =>
    let walked := walkBack headed 1022 h
    let found := p.flash.journalEntries walked none
    let ss := cutRetiring walked (retiringSector found)
    let inUse := ss.map (·.sector)
    let next := if found.isEmpty then h.first else found.foldl (fun n e => max n e.2.2.seq) 0 + 1
    (p.onJnc fun j => { j with
        serial := BitVec.ofNat 32 serial, headSector := h.sector, headPos := p.flash.nextPosition h.sector
        sectorOpen := true, sectorCounted := true
        tail := (ss.getLast?.map (·.sector)).getD h.sector, nextSeq := BitVec.ofNat 32 next
        freeCount := 1023 - ss.length, notErased := p.flash.unerased inUse },
      p.flash.journalEntries ss none)

/-! ## Replay (R4, R44, R71, R75, R86, R95, R96, R98, R170) -/

/-- What replay carries from entry to entry. -/
structure Replay where
  part : Part
  last : Nat
  tLast : Nat
  openDrop : Option Nat
  dropAt : Option (Nat × Nat)
  imagedAfter : List (Fin 2048)
  lower : Option (Vector Cell 24)
  upper : Option (Vector Cell 24)

/-- A container's record from its image: BAKING comes back OPEN, and one OPEN at its limit is EXPIRED (R44, R127). -/
def ContainerImage.record (k : ClassDef) (i : ContainerImage) : Container :=
  limitRule k
    { id := i.id, cls := i.cls, custody := if i.custody = .baking then .opened else i.custody, zone := i.zone
      mode := .hold, exposure := i.exposure, settled := i.settled, zoneEntry := i.zoneEntry
      lastMove := i.lastMoveZone.map fun z => (z, i.zoneEntry), warned := i.warned, bakeCount := i.bakeCount
      bakedThisStay := i.bakedThisStay, bakeProgress := none, bakeRunStart := none
      quarantineCause := i.quarantineCause, parent := i.parent, enrolled := i.enrolled, warnDue := none
      expireDue := none, dirty := false }

/-- Take the mode that custody and zone give, with a fresh credit decision (R44, R45). -/
def Part.withMode (p : Part) (c : Container) : Container :=
  c.setMode (deriveMode (p.classDef c.cls) (p.zone c.zone).condition (p.zone c.zone).held false c)

/-- R44: a container image replaces its slot; another slot that held the ID is freed first. -/
def Part.replayImage (i : ContainerImage) (p : Part) : Part :=
  let p := match p.findId i.id with
    | some j => if j = i.slot then p else p.setSlot j none
    | none => p
  p.setSlot i.slot (some (p.withMode (i.record (p.classDef i.cls))))

/-- R44: a retire entry frees its slot if that slot holds the ID. -/
def Part.replayRetire (i : Fin 2048) (id : ContainerId) (p : Part) : Part :=
  match p.slot i with
  | some c => if c.id = id then p.setSlot i none else p
  | none => p

/-- A replayed condition change: the containers the table holds in the zone are settled at the old condition to its time
and take the new one, with the warn test (R71). No replayed record holds a due before reconciliation computes it
(DESIGN CHOICE, log 50). -/
def Part.replayChange (z : Fin 64) (t : Nat) (condition : Option Condition) (p : Part) : Part :=
  let old := (p.zone z).condition
  let p := p.putZone z { p.zone z with condition := condition, conditionTime := t }
  p.liveSlots.foldl (fun p i => match p.slot i with
    | some c =>
      if c.zone = z then
        let c := (p.deriveRecord (staysDrying old condition) (settleRecord (p.classDef c.cls) t c).1).1
        p.setSlot i (some { c with warnDue := none, expireDue := none })
      else p
    | none => p) p

/-- R71: a zone image. -/
def Part.replayZone (z : Fin 64) (i : ZoneImage) (p : Part) : Part :=
  let r := p.zone z
  let p := p.putZone z { r with config := i.config, doorOpen := i.doorOpen, held := i.held, bands := i.bands
                                walked := i.walked }
  let t := i.conditionTime.getD 0
  if i.condition = r.condition then p.putZone z { p.zone z with conditionTime := t }
  else p.replayChange z t i.condition

/-- R71: a ZONE_CONDITION. -/
def Part.replayCondition (z : Fin 64) (i : ZoneConditionImage) (p : Part) : Part :=
  let p := p.putZone z { p.zone z with held := i.held, bands := i.bands, walked := i.walked }
  p.replayChange z i.time i.condition

/-- A probe's configuration; it is left OFF or configured (R75). -/
def Probe.replayed (r : Probe) (c : Option ProbeConfig) : Probe :=
  { r with config := c, state := if c.isSome then .doubtful else .off }

/-- Group modes, lead times and bus speeds (R86). -/
def Part.replayGroups (g : GroupsImage) (p : Part) : Part :=
  let p := (List.finRange 4).foldl (fun p n =>
    p.setGroup n { p.group n with cycled := g.modes[n], lead := g.leads[n] }) p
  (p.setBus .busA { p.bus .busA with fast := g.fastA }).setBus .busB { p.bus .busB with fast := g.fastB }

/-- A door line's configuration alone (R95). -/
def DoorLine.replayed (l : DoorLine) (d : DoorImage) : DoorLine :=
  { l with zone := d.zone, openLow := d.openLow, filterTime := d.filterTime, openLimit := d.openLimit }

/-- Overrides, lamp bindings, patterns and the step period (R96, R98). -/
def Part.replayOutputs (o : OutputsImage) (p : Part) : Part :=
  let p := (List.finRange 8).foldl (fun p n => p.setLineHold n { p.lineHold n with override := o.overrides[n] }) p
  let p := (List.finRange 8).foldl (fun p n => p.setLamp n { p.lamp n with zone := o.lampZones[n] }) p
  { p with dou := { p.dou with calm := o.calm, warn := o.warn, hold := o.hold, stepPeriod := o.stepPeriod } }

/-- The cells of the two halves, and the edges. -/
def Part.replayDerating (lower upper : Vector Cell 24) (temp : Vector Int 5) (rh : Vector Nat 7) (p : Part) : Part :=
  { p with znu := { p.znu with cells := lower ++ upper, tempEdges := temp, rhEdges := rh } }

/-- One entry's effect on the tables. -/
def Part.replayEntry (pl : Payload) (p : Part) : Part :=
  match pl with
  | .containerImage i => p.replayImage i
  | .retireEntry i id => p.replayRetire i id
  | .zoneImage z i => p.replayZone z i
  | .zoneCondition z i => p.replayCondition z i
  | .classImage n i => p.setCls n { p.cls n with defn := i.map ClassImage.define }
  | .engineImage s => { p with znu := { p.znu with settings := s } }
  | .probeImage n c => p.setProbe n ((p.probe n).replayed c)
  | .groupsImage g => p.replayGroups g
  | .doorImage n d => p.setLine n ((p.line n).replayed d)
  | .outputsImage o => p.replayOutputs o
  | .cellsImage .. | .edgesImage .. | .sectorHead .. | .timeMark _ | .dropMark _ | .resyncEnd | .formatEntry _ => p

/-- The parts of a derating image wait for one another: the three are applied when all have committed (R162). -/
def Replay.derating (r : Replay) (pl : Payload) : Replay :=
  match pl with
  | .cellsImage false c => { r with lower := some c, upper := none }
  | .cellsImage true c => { r with upper := if r.lower.isSome then some c else none }
  | .edgesImage t h => match r.lower, r.upper with
    | some a, some b => { r with part := r.part.replayDerating a b t h, lower := none, upper := none }
    | _, _ => r
  | _ => r

/-- The marks of a resync (R170). -/
def Replay.marks (r : Replay) (sector : Nat) (pl : Payload) : Replay :=
  match pl with
  | .dropMark t => { r with openDrop := some t, dropAt := some (sector, t), imagedAfter := [] }
  | .resyncEnd => { r with openDrop := none, dropAt := none }
  | .containerImage i => { r with imagedAfter := insertFin i.slot r.imagedAfter }
  | _ => r

/-- Replay begins with each class as its newest image has it, so that a container image that compaction has left ahead
of its class's image is replayed under that class (R3, R4). -/
def Part.seedClasses (es : List (Nat × Payload × EntryRead)) (p : Part) : Part :=
  es.foldl (fun p e => match e.2.1 with
    | .classImage n i => p.setCls n { p.cls n with defn := i.map ClassImage.define }
    | _ => p) p

/-- Replay one committed entry; one whose sequence number is not above the last applied is passed over. A part of a derating
image whose later parts never committed is passed over too, and the newest-entry record names its sector all the same
(DESIGN CHOICE, log 87). -/
def Replay.step (r : Replay) (e : Nat × Payload × EntryRead) : Replay :=
  let (sector, pl, read) := e
  if read.seq ≤ r.last then r
  else
    let part := (r.part.replayEntry pl).onJnc fun j => { j with newest := match pl.object with
      | some o => (o, sector) :: j.newest.filter fun x => x.1 != o
      | none => j.newest }
    ({ r with part := part, last := read.seq, tLast := max r.tLast read.time }.derating pl).marks sector pl

/-! ## What the tables imply (R4, R45, R72, R96, R97, R139) -/

/-- Insert a slot into a member list ordered by zone entry time, then slot. -/
def insertMember (x : Nat × Fin 2048) : List (Nat × Fin 2048) → List (Nat × Fin 2048)
  | [] => [x]
  | y :: ys => if x.1 < y.1 ∨ (x.1 = y.1 ∧ x.2 < y.2) then x :: y :: ys else y :: insertMember x ys

/-- The LIVE slots with their records. -/
def Part.records (p : Part) : List (Fin 2048 × Container) :=
  p.liveSlots.filterMap fun i => (p.slot i).map fun c => (i, c)

/-- CEILING_USED as a replayed condition implies it (R60, R61). -/
def Zone.impliedCeiling (r : Zone) : Bool :=
  match r.config.kind, r.condition with
  | .floor, _ | .line, _ => r.walked.isNone
  | .dry, some (.dryFailed _) => r.config.reference.isNone
  | _, _ => false

/-- A zone's working part before RUNNING, with its member list and counts (R45, R72). -/
def Zone.rebuilt (r : Zone) (z : Fin 64) (records : List (Fin 2048 × Container)) : Zone :=
  let mine := records.filter fun x => x.2.zone == z
  { r with
    basis := false, stale := false, ajar := false, change := none, waitReading := none, waitDoor := none
    waitConfig := none, dirty := false, ceilingUsed := r.impliedCeiling
    members := (mine.foldl (fun ms x => insertMember (x.2.zoneEntry, x.1) ms) []).map (·.2)
    blocking := (mine.filter fun x => x.2.blocks).length
    warnedCount := (mine.filter fun x => x.2.countsWarned).length }

/-- Bind a line output to the zone that names it (R96). -/
def Part.bindOutput (z : Fin 64) (p : Part) : Part :=
  match (p.zone z).config.lineOutput with
  | some o => p.setLineHold o { p.lineHold o with zone := some z }
  | none => p

/-- The tables rebuilt from the finished container table: modes, use counts, zones, output bindings and drives, and the
alert counts, which set no ALERT (R45, R139). -/
def Part.rebuild (p : Part) : Part :=
  let p := p.liveSlots.foldl (fun p i => match p.slot i with
    | some c => p.setSlot i (some (p.withMode c))
    | none => p) p
  let records := p.records
  let p := (List.finRange 16).foldl (fun p n =>
    p.setCls n { p.cls n with useCount := (records.filter fun x => x.2.cls == n).length }) p
  let p := (List.finRange 64).foldl (fun p z => (p.putZone z ((p.zone z).rebuilt z records)).bindOutput z) p
  let p := (List.finRange 8).foldl (fun p n => (p.deriveHold n).deriveLamp n) p
  let level (l : AlertLevel) : Nat := (records.filter fun x => x.2.level == l).length
  (p.onDlu fun d => { d with warnCount := level .warn, expiredCount := level .expired
                             quarantinedCount := level .quarantined }).postAll

/-! ## Reconciliation (R21, R171) -/

/-- The outage charge of an OPEN container over `seconds`, and S at the restore time; one at its limit is EXPIRED
(R12, R21). -/
def chargeRecord (k : ClassDef) (rate seconds N : Nat) (c : Container) : Container :=
  if c.custody = .opened then
    limitRule k { c with exposure := min k.limit (c.exposure + seconds * rate), settled := N }
  else { c with settled := N }

/-- Settle to T_last, or to the drop time of an unfinished resync, and charge the outage (steps 1 to 3); no second is charged
where N lies before the time settled to (log 102). -/
def reconcileRecord (k : ClassDef) (rate N tLast : Nat) (drop : Option Nat) (c : Container) : Container :=
  match drop with
  | some D =>
    let c := (warnRecord k (settleRecord k D c).1).1
    chargeRecord k rate (N - c.settled) N c
  | none =>
    let c := (warnRecord k (settleRecord k tLast c).1).1
    chargeRecord k rate (N - tLast) N c

/-- Whether a record changed in a field other than S; the dues are computed here for the first time. -/
def changedBeyondS (old new : Container) : Bool :=
  { new with settled := old.settled, warnDue := old.warnDue, expireDue := old.expireDue } != old

/-- Reconcile one container and carry it through (R171 steps 1 to 4). -/
def Part.reconcileSlot (N : Nat) (r : RestoreRecord) (i : Fin 2048) (p : Part) : Part :=
  match p.slot i with
  | some c =>
    let drop := match r.openDrop with
      | some D => if r.imagedAfter.contains i then none else some D
      | none => none
    let c1 := reconcileRecord (p.classDef c.cls) p.znu.settings.outage N r.tLast drop c
    let c2 := (p.deriveRecord true c1).1
    p.commitRecord i c { c2 with dirty := c.dirty || changedBeyondS c c2 }
  | none => p

/-- Some container is marked: the drop time is N and the journal state RESYNC, and the DROP_MARK at N is staged at once
(R171), unless a power-fail warning has closed staging: then it stays unstaged (R174 step 2). A journal already FAILED
stays so, with no drop time and no DROP_MARK (DESIGN CHOICE, log 105). -/
def Part.reconcileMark (N : Nat) (p : Part) : Part :=
  if p.dirtySlot.isSome ∧ p.jnc.journal ≠ .failed then
    let p := (p.onJnc fun j => { j with journal := .resync, dropTime := some N }).postHeader
    if p.stagingOpen then (p.stageDropMark N).pump else p
  else p

/-- Reconciliation at the restore time N. An N below T_last gives the outage 0: nothing is charged, and S becomes N all the
same (DESIGN CHOICE, log 102). -/
def Part.reconcile (N : Nat) (p : Part) : Part :=
  match p.jnc.restore with
  | some r =>
    let p := p.liveSlots.foldl (fun p i => p.reconcileSlot N r i) p
    let O := N - r.tLast
    ((p.reconcileMark N).onJnc fun j => { j with outage := if O ≤ Config.timeNone then O else 0
                                                 restore := some { r with reconciled := true } }).postHeader
  | none => p

/-! ## RESTORE (R169, R170) -/

/-- Find the journal, replay it and rebuild; the door lines then await their samples (R95, R170). -/
def Part.replayAll (serial formatTime : Nat) (p : Part) : Part :=
  let (p, entries) := p.findJournal serial
  let r := entries.foldl Replay.step
    { part := p.seedClasses entries, last := 0, tLast := formatTime, openDrop := none, dropAt := none
      imagedAfter := [], lower := none, upper := none }
  let p := r.part.rebuild.onJnc fun j => { j with
    dropMarkAt := r.dropAt
    restore := some { tLast := r.tLast, openDrop := r.openDrop, imagedAfter := r.imagedAfter, reconciled := false } }
  (List.finRange 16).foldl (fun p n => p.setLine n (p.line n).awaitSample) p

/-- Restore with the identification read: FAILED and BLANK without one, BLANK without a FORMAT entry, and otherwise
replay, followed by reconciliation or by AWAIT_TIME. A head found at position 64 opens the next sector (R160;
log 60). -/
def Part.restoreFlash (p : Part) : Part :=
  if !p.flash.identified then p.failJournal.setEngine .blank
  else match p.flash.formatEntry with
    | none => p.setEngine .blank
    | some (serial, t) =>
      let p := (p.replayAll serial t).pump
      if p.tbu.timeValid then p.reconcile p.now else p.setEngine .awaitTime

/-- Restore has not yet been made. -/
def Part.mayRestore (p : Part) : Bool := p.jnc.engine == .restoring && p.jnc.restore.isNone

/-- What RESTORE leaves, before a sweep asked for meanwhile begins: the JNC reads the identification first, after main
power-on as after a soft reset (R158). -/
def Part.restored (idReply : Byte) (p : Part) : Part :=
  Part.restoreFlash { p with flash := { p.flash with idByte := idReply } }

/-- RESTORE. -/
def Part.restore (idReply : Byte) (p : Part) : Part :=
  if p.mayRestore then (p.restored idReply).leaveRestoring else p

/-- The DROP_MARK of reconciliation is not committed: it stands in the queue, or it could not be staged (R171). With the
journal FAILED there is none to wait for: the queue that held it is discarded (R165), and the engine enters RUNNING without
the commit (DESIGN CHOICE, log 105). -/
def Jnc.awaitsDropMark (j : Jnc) : Bool :=
  (j.journal == .resync && j.dropTime.isSome) || j.queue.any fun e => match e.payload with
    | .dropMark _ => true
    | _ => false

/-- The conditions of R45, R95, R169 and R171 for entry to RUNNING. With intake ON the board has been written once no mark
stands (DESIGN CHOICE, log 59). Time-valid is asked for where replay ends, and not again here: a backup supply that fails
between reconciliation and entry holds nothing up (DESIGN CHOICE, log 95). -/
def Part.mayRun (p : Part) : Bool :=
  (p.jnc.engine == .restoring || p.jnc.engine == .awaitTime) && p.samplesTaken &&
    (match p.jnc.restore with
      | some r => r.reconciled
      | none => false) &&
    !p.jnc.awaitsDropMark && (p.exi.intake != .on || !p.exi.marked)

/-- What the entry to RUNNING leaves, before a sweep asked for meanwhile begins: the probes start over, the STEADY groups
are switched on, and the door samples are delivered. The reports of OFF probes reach the zones before the door samples
(DESIGN CHOICE, log 51). -/
def Part.nowRunning (p : Part) : Part :=
  ((p.onJnc fun j => { j with restore := none, sinceMark := 0 }).setEngine .running).startProbes.switchOnSteady.startDoors

/-- ENTER_RUNNING. -/
def Part.enterRunning (p : Part) : Part :=
  if p.mayRun then (if p.jnc.engine = .restoring then p.nowRunning.leaveRestoring else p.nowRunning) else p

/-! ## SET_TIME (R172) -/

/-- Set the counter and time-valid. -/
def Part.setClock (t : Nat) (p : Part) : Part :=
  Part.postHeader { p with tbu := { p.tbu with counter := t, timeValid := true } }

/-- The docket in hand waits for RUNNING. -/
def Part.awaitRun (p : Part) : Part :=
  match p.exi.inHand with
  | some d => p.setInHand (some { d with awaitRunning := true })
  | none => p

/-- SET_TIME, by the engine state; in RESTORING no docket is in hand, and one that were would be WRONG_STATE (DESIGN
CHOICE, log 61). -/
def Part.setTimeDocket (t : Nat) (p : Part) : Part :=
  match p.jnc.engine with
  | .restoring | .running => p.refuseDocket .wrongState
  | .blank =>
    if Config.lastSecond < t then p.refuseDocket .badArg else (p.setClock t).finishDocket (plainAnswer .ok)
  | .awaitTime =>
    match p.jnc.restore with
    | some r =>
      if Config.lastSecond < t ∨ t < r.tLast then p.refuseDocket .badArg
      else
        let p := ((p.setClock t).offerDocket .timeMark).reconcile t
        (p.finishDocket { result := .ok, first := 0, second := 0, value := t - r.tLast }).awaitRun
    | none => p.refuseDocket .wrongState

/-! ## FORMAT (R173) -/

/-- The serial a FORMAT gives: one above that of the present FORMAT entry, with wrapping, or 1. -/
def Flash.newSerial (f : Flash) : Nat :=
  match f.formatEntry with
  | some (serial, _) => (serial + 1) % 4294967296
  | none => 1

/-- FORMAT may run: BLANK, or RUNNING with no container live; the time valid; the flash identified. In RESTORING and
AWAIT_TIME no FORMAT is in hand, and one that were would be WRONG_STATE (DESIGN CHOICE, log 61). -/
def Part.mayFormat (p : Part) : Bool :=
  (p.jnc.engine == .blank || (p.jnc.engine == .running && p.liveSlots.isEmpty)) && p.tbu.timeValid &&
    p.flash.identified

/-- FORMAT begins: the queue is committed first, and staging then stops. -/
def Part.formatDocket (p : Part) : Part :=
  if p.mayFormat then
    ((p.onJnc fun j => { j with format := some { stage := .drain, serial := p.flash.newSerial
                                                 time := p.now } }).workDocket).pump
  else p.refuseDocket .wrongState

/-! ## Supplies and resets (R168, R174, R175) -/

/-- MAIN_POWER_ON: a backup domain that lost both supplies starts again from 0, not valid; every volatile table takes its
main power-on value; the flash powers up with its identification (R158, R168, R169). -/
def Part.mainPowerOn (idReply : Byte) (backup : Bool) (p : Part) : Part :=
  if p.tbu.mainPower then p
  else
    let tbu := if p.tbu.backupSupply then p.tbu else { p.tbu with counter := 0, timeValid := false }
    Part.powerOn { p with
      tbu := { tbu with backupSupply := backup, timeValid := tbu.timeValid && backup }
      flash := { p.flash with idByte := idReply } }

/-- Sector 0 without a committed FORMAT entry: the commit mark of one that stands reads blank. -/
def Flash.unformatted (f : Flash) : Flash :=
  if f.formatEntry.isSome then { f with cells := f.cells.write flashBlank 63 [flashBlank] } else f

/-- An operation of steps 3 and 4 of a FORMAT (R173). -/
def FlashJob.ofFormat : FlashJob → Bool
  | .erase (.format _) | .program .formatBody | .program .formatMark => true
  | .erase (.opening _) | .erase (.compaction _) | .program .entryBody | .program .entryMark | .program .headBody
  | .program .headMark => false

/-- The bytes that power loss leaves: at the target of the operation in progress, then in a sector whose erase was
suspended. An interrupted program has turned bits from 1 to 0 only; what an interrupted erase leaves is open (log 42).
A FORMAT cut off in its step 3 or 4 leaves no committed FORMAT entry (R173), not even one whose mark was written by a
program that failed on its timer and is being repeated. -/
def Part.interruptFlash (left : List Byte) (p : Part) : Part :=
  let erasing (e : ErasePurpose) (bs : List Byte) (f : Flash) : Flash :=
    { f with cells := f.cells.write flashBlank (flashAddr e.sector 0) (bs.take 4096) }
  let (f, rest) := match p.jnc.port.job with
    | some (.program step) =>
      let (a, bytes) := p.programTarget step
      (p.flash.program a (left.take bytes.length), left.drop bytes.length)
    | some (.erase e) => (erasing e left p.flash, left.drop 4096)
    | none => (p.flash, left)
  let f := match p.jnc.port.suspended with
    | some e => erasing e rest f
    | none => f
  { p with flash := if p.jnc.port.job.any FlashJob.ofFormat then f.unformatted else f }

/-- MAIN_POWER_LOSS: what an interrupted flash operation leaves, and every volatile table gone (R168, R174). -/
def Part.mainPowerLoss (left : List Byte) (p : Part) : Part :=
  let q := (p.interruptFlash left).powerOn
  { q with tbu := { q.tbu with mainPower := false } }

/-- BACKUP_SUPPLY_FAIL: time-valid is cleared, with or without main power (R168). -/
def Part.backupFail (p : Part) : Part :=
  let q := { p with tbu := { p.tbu with backupSupply := false, timeValid := false } }
  if p.tbu.mainPower then q.postHeader else q

/-- POWER_FAIL_WARNING (R174); a FORMAT in progress runs on. A compaction's erase that is running is suspended by
ERASE_SUSPEND, or waited out when that fails. -/
def Part.powerFailWarning (p : Part) : Part :=
  if p.tbu.powerFail then p
  else
    let p := (p.idleSweep.cutList).closeStaging false
    Part.pump { p with tbu := { p.tbu with powerFail := true } }

/-- POWER_RECOVERY: the supply rises back, and the part performs a soft reset (R174). -/
def Part.powerRecovery (p : Part) : Part :=
  if p.tbu.powerFail then Part.recover { p with tbu := { p.tbu with powerFail := false } } else p

/-- SOFT_RESET: its steps, or, while a FORMAT is in progress, the wait for its end (R142, R175). A power-fail warning that
stands has closed staging, and the FORMAT's docket is not answered then (R174); nothing waits for it (log 83). -/
def Part.softReset (p : Part) : Part :=
  let p := { p with exi := { p.exi with softResetBit := true } }
  if (p.jnc.format.isSome || p.jnc.resetWaits) && p.jnc.closing.isNone then
    p.onJnc fun j => { j with resetWaits := true }
  else p.resetSteps

/-! ## The commands -/

/-- MAIN_POWER_ON (R169). -/
def execMainPowerOn (idReply : Byte) (backup : Bool) (s : State) : Host.Outcome State Fault Refusal :=
  .next { s with part := s.part.mainPowerOn idReply backup }

/-- RESTORE (R158, R170). -/
def execRestore (input : RestoreInput) (s : State) : Host.Outcome State Fault Refusal :=
  .next (s.powered fun p => (p.hostStores input.stores).restore input.idReply)

/-- ENTER_RUNNING (R169). -/
def execEnterRunning (stores : Stores) (s : State) : Host.Outcome State Fault Refusal :=
  .next (s.powered fun p => (p.hostStores stores).enterRunning)

/-- POWER_FAIL_WARNING (R174). -/
def execPowerFailWarning (s : State) : Host.Outcome State Fault Refusal :=
  .next (s.powered fun p => p.powerFailWarning)

/-- POWER_RECOVERY (R174). -/
def execPowerRecovery (s : State) : Host.Outcome State Fault Refusal := .next (s.powered fun p => p.powerRecovery)

/-- BACKUP_SUPPLY_FAIL (R168). -/
def execBackupSupplyFail (s : State) : Host.Outcome State Fault Refusal := .next { s with part := s.part.backupFail }

/-- SOFT_RESET (R142, R175). -/
def execSoftReset (s : State) : Host.Outcome State Fault Refusal := .next (s.powered fun p => p.softReset)

/-- SET_TIME (R172). -/
def execSetTime (s : State) : Host.Outcome State Fault Refusal :=
  .next (s.powered fun p => match p.handedRequest with
    | some (.setTime t) => p.setTimeDocket t
    | _ => p)

/-- FORMAT (R173): the identification is read afresh first. -/
def execFormat (idReply : Byte) (s : State) : Host.Outcome State Fault Refusal :=
  .next (s.powered fun p => match p.handedRequest with
    | some .format => Part.formatDocket { p with flash := { p.flash with idByte := idReply } }
    | _ => p)

/-- MAIN_POWER_LOSS (R168, R174). -/
def execMainPowerLoss (left : List Byte) (s : State) : Host.Outcome State Fault Refusal :=
  .next (s.powered fun p => p.mainPowerLoss left)

end Sys2Proof.Machine
end

