-- ==== Sys2Proof/Machine/Failures.lean ====
section
/-! DEFINITION. Failed accesses to host memory: which access fails, and what the part does then (R116, R149, R150,
R156). -/

namespace Sys2Proof.Machine

/-- A sweep request could be reading a slot. -/
def Part.maySweep (p : Part) : Bool :=
  p.exi.intake == .on && !p.noTaking && p.exi.inHand.isNone && p.jnc.engine != .restoring

/-- The part as a sweep's next read of a slot finds it: at a sweep request, or once the docket in hand has been answered
and the sweep goes on; or as a sweep asked for in RESTORING begins at the end of RESTORE or ENTER_RUNNING (R146, R149;
log 10). -/
def Part.atSlotRead (origin : SweepOrigin) (p : Part) : Option Part :=
  match origin with
  | .asked =>
    if p.exi.inHand.isNone then (if p.maySweep then some p else none)
    else p.answered.filter fun q => q.exi.intake == .on && q.exi.sweeping && !q.noTaking && !q.exi.faultAfter &&
      !q.jnc.resetDue
  | .restored idReply =>
    if p.mayRestore then (p.restored idReply).dueSweep.filter fun q => q.exi.inHand.isNone && !q.noTaking else none
  | .entered =>
    if p.mayRun && p.jnc.engine == .restoring then
      p.nowRunning.dueSweep.filter fun q => q.exi.inHand.isNone && !q.noTaking
    else none

/-- An answer write fails: the docket is no longer in hand, its cursor stands, and intake is ACCESS_FAULT (R149). -/
def Part.answerFails (ownerWrite : Bool) (p : Part) : Part :=
  match p.readyAnswer with
  | some (d, a) =>
    if d.givenUp ∨ p.tbu.powerFail ∨ p.jnc.closing.isSome then p
    else (if ownerWrite then p.writeAnswerFields d a else p).dropDocket.accessFailed.resetAfterFormat
  | none => p

/-- A read made for the docket in hand fails. -/
def Part.docketReadFails (notDone : Nat) (p : Part) : Part :=
  match p.handedRequest with
  | some (.setConditions addr) => p.setConditionsDocket addr true
  | some _ => p
  | none => p.entryReadFails notDone

/-- A write made for the docket in hand fails. -/
def Part.docketWriteFails (p : Part) : Part :=
  match p.handedRequest with
  | some (.query a) => p.queryDocket a true
  | some (.queryProbe a) => p.queryProbeDocket a true
  | some _ => p
  | none => p.moveEntry true

/-- HOST_ACCESS_FAILURE, by what fails. -/
def Part.hostAccessFails (access : FailedAccess) (p : Part) : Part :=
  match access with
  | .slotRead origin => match p.atSlotRead origin with
    | some q => q.accessFailed
    | none => p
  | .takenWrite origin => match p.atSlotRead origin with
    | some q => if ownerPosted q.readSlot then q.accessFailed else p
    | none => p
  | .docketRead n => p.docketReadFails n
  | .docketWrite => p.docketWriteFails
  | .answerFields => p.answerFails false
  | .answerOwner => p.answerFails true
  | .groupWrite cut => p.groupFails cut
  | .engineTime =>
    if p.exi.intake = .on ∧ p.exi.timeWrite.isSome then
      Part.accessFailed { p with exi := { p.exi with timeWrite := none } }
    else p

/-! ## The command -/

/-- HOST_ACCESS_FAILURE (R156). -/
def execHostAccessFailure (failure : AccessFailure) (s : State) : Host.Outcome State Fault Refusal :=
  .next (s.powered fun p => (p.hostStores failure.stores).hostAccessFails failure.access)

end Sys2Proof.Machine
end

