-- ==== Sys2Proof/Machine/Clock.lean ====
section
/-! DEFINITION. The 1 ms internal tick, which the part takes while no command waits (log 2): timers run, and nothing
fires. -/

namespace Sys2Proof.Machine

/-- One millisecond less, never below 0. -/
def dec (o : Option Nat) : Option Nat := o.map (· - 1)

/-- The timers of a bus (R73, R80, R82). -/
def BusPhase.tick : BusPhase → BusPhase
  | .awaitFree ms => .awaitFree (ms + 1)
  | .converting ms => .converting (ms - 1)
  | .retryGap ms => .retryGap (ms - 1)
  | ph => ph

def ProbeBus.tick (b : ProbeBus) : ProbeBus := { b with phase := b.phase.tick }

/-- The poll timers run in RUNNING alone (R75). -/
def Prc.tick (running : Bool) (u : Prc) : Prc :=
  { probes := if running then Vector.ofFn fun n => { u.probes[n] with pollTimer := u.probes[n].pollTimer - 1 }
              else u.probes
    busA := u.busA.tick
    busB := u.busB.tick
    groups := Vector.ofFn fun g => { u.groups[g] with ready := u.groups[g].ready - 1 } }

/-- Door filters, restore samples and lamp steps (R90, R95, R99). -/
def Dou.tick (u : Dou) : Dou :=
  { u with
    lines := Vector.ofFn fun n => { u.lines[n] with timer := dec u.lines[n].timer, sample := dec u.lines[n].sample }
    lamps := Vector.ofFn fun n => { u.lamps[n] with timer := dec u.lamps[n].timer } }

/-- The timer of the operation the flash port holds (R159). -/
def FlashPort.tick (r : FlashPort) : FlashPort := if r.job.isSome then { r with elapsed := r.elapsed + 1 } else r

/-- The internal tick, derived from the main clock while main power is present (R168). -/
def Part.idleTick (p : Part) : Part :=
  if p.tbu.mainPower then
    { p with
      exi := { p.exi with sweepTimer := dec p.exi.sweepTimer }
      jnc := { p.jnc with port := p.jnc.port.tick }
      prc := p.prc.tick (p.jnc.engine == .running)
      dou := p.dou.tick }
  else p

end Sys2Proof.Machine
end

