-- ==== Sys2Proof/Machine/Dispatch.lean ====
section
/-! DEFINITION. The dispatch: one arm for each command, in the order of spec/opcode_table.json. -/

namespace Sys2Proof.Machine

def exec (i : Instr) (s : State) : Host.Outcome State Fault Refusal :=
  match i with
  | .mainPowerOn idReply backup => Sys2Proof.Machine.execMainPowerOn idReply backup s
  | .restore input => Sys2Proof.Machine.execRestore input s
  | .restoreDoorSample line => Sys2Proof.Machine.execRestoreDoorSample line s
  | .enterRunning stores => Sys2Proof.Machine.execEnterRunning stores s
  | .busReset cut => Sys2Proof.Machine.execBusReset cut s
  | .powerFailWarning => Sys2Proof.Machine.execPowerFailWarning s
  | .powerRecovery => Sys2Proof.Machine.execPowerRecovery s
  | .backupSupplyFail => Sys2Proof.Machine.execBackupSupplyFail s
  | .softReset => Sys2Proof.Machine.execSoftReset s
  | .intakeSet => Sys2Proof.Machine.execIntakeSet s
  | .intakeClear => Sys2Proof.Machine.execIntakeClear s
  | .intakeOffComplete => Sys2Proof.Machine.execIntakeOffComplete s
  | .nudge value stores => Sys2Proof.Machine.execNudge value stores s
  | .intcauseWrite value => Sys2Proof.Machine.execIntcauseWrite value s
  | .intmaskWrite value => Sys2Proof.Machine.execIntmaskWrite value s
  | .registerWrite reg value => Sys2Proof.Machine.execRegisterWrite reg value s
  | .sweepTimerExpiry stores => Sys2Proof.Machine.execSweepTimerExpiry stores s
  | .answerDocket stores => Sys2Proof.Machine.execAnswerDocket stores s
  | .enroll => Sys2Proof.Machine.execEnroll s
  | .split => Sys2Proof.Machine.execSplit s
  | .retire => Sys2Proof.Machine.execRetire s
  | .quarantine => Sys2Proof.Machine.execQuarantine s
  | .release => Sys2Proof.Machine.execRelease s
  | .query => Sys2Proof.Machine.execQuery s
  | .moveList => Sys2Proof.Machine.execMoveList s
  | .moveEntry stores => Sys2Proof.Machine.execMoveEntry stores s
  | .setClass => Sys2Proof.Machine.execSetClass s
  | .setEngine => Sys2Proof.Machine.execSetEngine s
  | .setZone => Sys2Proof.Machine.execSetZone s
  | .setConditions stores => Sys2Proof.Machine.execSetConditions stores s
  | .setProbe => Sys2Proof.Machine.execSetProbe s
  | .setGroup => Sys2Proof.Machine.execSetGroup s
  | .queryProbe => Sys2Proof.Machine.execQueryProbe s
  | .setDoor => Sys2Proof.Machine.execSetDoor s
  | .setOutput => Sys2Proof.Machine.execSetOutput s
  | .setTime => Sys2Proof.Machine.execSetTime s
  | .format idReply => Sys2Proof.Machine.execFormat idReply s
  | .secondTick => Sys2Proof.Machine.execSecondTick s
  | .engineTimeWrite => Sys2Proof.Machine.execEngineTimeWrite s
  | .pendingPassStart => Sys2Proof.Machine.execPendingPassStart s
  | .warnDue => Sys2Proof.Machine.execWarnDue s
  | .expireDue => Sys2Proof.Machine.execExpireDue s
  | .bakeDue => Sys2Proof.Machine.execBakeDue s
  | .staleTimeReached probe reach => Sys2Proof.Machine.execStaleTimeReached probe reach s
  | .doorAjarLimit zone => Sys2Proof.Machine.execDoorAjarLimit zone s
  | .timeMarkInterval => Sys2Proof.Machine.execTimeMarkInterval s
  | .pollTimerExpiry probe => Sys2Proof.Machine.execPollTimerExpiry probe s
  | .groupReadyPoint group => Sys2Proof.Machine.execGroupReadyPoint group s
  | .pollAttemptStart bus reply reach => Sys2Proof.Machine.execPollAttemptStart bus reply reach s
  | .conversionTimeExpiry bus ack reach => Sys2Proof.Machine.execConversionTimeExpiry bus ack reach s
  | .probeResponse bus bytes reach => Sys2Proof.Machine.execProbeResponse bus bytes reach s
  | .busHeld bus reach => Sys2Proof.Machine.execBusHeld bus reach s
  | .retryGapExpiry bus dataLow => Sys2Proof.Machine.execRetryGapExpiry bus dataLow s
  | .doorInputChange line high => Sys2Proof.Machine.execDoorInputChange line high s
  | .doorFilterExpiry line reach => Sys2Proof.Machine.execDoorFilterExpiry line reach s
  | .lampStepExpiry lamp => Sys2Proof.Machine.execLampStepExpiry lamp s
  | .waitingTriggerTaken zone reach => Sys2Proof.Machine.execWaitingTriggerTaken zone reach s
  | .boardGroupWrite => Sys2Proof.Machine.execBoardGroupWrite s
  | .hostAccessFailure failure => Sys2Proof.Machine.execHostAccessFailure failure s
  | .docketStagingResume => Sys2Proof.Machine.execDocketStagingResume s
  | .programComplete reply => Sys2Proof.Machine.execProgramComplete reply s
  | .eraseSuspend => Sys2Proof.Machine.execEraseSuspend s
  | .flashTimeout op => Sys2Proof.Machine.execFlashTimeout op s
  | .resyncStage => Sys2Proof.Machine.execResyncStage s
  | .compactionImages => Sys2Proof.Machine.execCompactionImages s
  | .compactionTimeMark => Sys2Proof.Machine.execCompactionTimeMark s
  | .compactionErase => Sys2Proof.Machine.execCompactionErase s
  | .eraseComplete reply => Sys2Proof.Machine.execEraseComplete reply s
  | .mainPowerLoss left => Sys2Proof.Machine.execMainPowerLoss left s
  | .probeBusFree bus ack reach => Sys2Proof.Machine.execProbeBusFree bus ack reach s
  | .busyOutlastsBound => Sys2Proof.Machine.execBusyOutlastsBound s

end Sys2Proof.Machine
end

