-- ==== Sys2Proof/Machine/Step.lean ====
section
/-! DEFINITION. One step: the command at the front of the queue, or the internal tick when none waits. -/

namespace Sys2Proof.Machine

/-- The command at the front leaves the queue and has its effect; on an empty queue the part takes one 1 ms internal
tick (log 2). -/
def step (s : State) : Host.Outcome State Fault Refusal :=
  match s.pending with
  | c :: rest => exec c { s with pending := rest }
  | [] => .next { s with part := s.part.idleTick }

/-- The command that a word spells put at the front of the queue; no word spells one (98_reader.md). -/
def State.withFetchWord (s : State) (nbits w : Nat) : State :=
  match decodeTableWord nbits w with
  | some c => { s with pending := c :: s.pending }
  | none => s

end Sys2Proof.Machine
end

