-- ==== Sys2Proof/Safety.lean ====
section
/-! DEFINITION. The words the statements use: what stands between commands (the laws of the device as predicates of the
state), what a command leaves alone, and which values fit a journal entry. -/

namespace Sys2Proof.Machine

/-! ## What stands between commands -/

/-- Host memory and flash stand in their canonical form. -/
def Part.memoriesCanonical (p : Part) : Prop :=
  Memory.wf hostBlank p.host = true ∧ Memory.wf flashBlank p.flash.cells = true

/-- The third law (R24): no container ID is held by more than one live slot. An ID of zero is never entered. -/
def Part.idsUnique (p : Part) : Prop :=
  ∀ (i j : Fin 2048) (c d : Container), p.slot i = some c → p.slot j = some d → c.id = d.id → c.id ≠ 0 → i = j

/-- The ninth law (R97): each line-hold output's drive is that of its override and its zone's blocking count. -/
def Part.holdsDriven (p : Part) : Prop :=
  ∀ n : Fin 8, (p.lineHold n).asserted =
    holdDrive (p.lineHold n).override ((p.lineHold n).zone.map fun z => (p.zone z).blocking)

/-- The tenth law between commands (R153): no group is being written, and the generation is even. -/
def Part.generationEven (p : Part) : Prop := p.exi.generation.getLsbD 0 = false

/-- The order of the deadline list and its one entry per slot (R129, the fifth law). -/
def Part.deadlinesOrdered (p : Part) : Prop :=
  p.dlu.entries.Pairwise (fun a b => a.before b = true) ∧ (p.dlu.entries.map (·.slot)).Nodup

/-- The engine time is never the value that marks none (R168). -/
def Part.timeCounted (p : Part) : Prop := p.tbu.counter ≤ Config.lastSecond

/-! ## What a command leaves alone -/

/-- The host's memory, the flash and the backup domain stand as they were. -/
def Part.sameOutside (p q : Part) : Prop := q.host = p.host ∧ q.flash = p.flash ∧ q.tbu = p.tbu

/-- Every slot but `i` stands as it was. -/
def Part.sameOtherSlots (i : Fin 2048) (p q : Part) : Prop := ∀ j, j ≠ i → q.slot j = p.slot j

/-- The zones' configurations and the derating table and settings stand as they were. -/
def Part.sameConfig (p q : Part) : Prop :=
  (∀ z, (q.zone z).config = (p.zone z).config) ∧ q.znu.cells = p.znu.cells ∧ q.znu.tempEdges = p.znu.tempEdges ∧
    q.znu.rhEdges = p.znu.rhEdges ∧ q.znu.settings = p.znu.settings

/-- The registers, the intake and the generation of the Exchange Interface stand as they were. -/
def Part.sameWindow (p q : Part) : Prop :=
  q.exi.exbaseL = p.exi.exbaseL ∧ q.exi.exbaseH = p.exi.exbaseH ∧ q.exi.docketCode = p.exi.docketCode ∧
    q.exi.periodCode = p.exi.periodCode ∧ q.exi.mask = p.exi.mask ∧ q.exi.intake = p.exi.intake ∧
    q.exi.generation = p.exi.generation ∧ q.exi.cursor = p.exi.cursor

/-- A byte address that a run of `n` bytes from `a` does not hold. -/
def outsideRun (a n x : Nat) : Prop := x < a ∨ a + n ≤ x

/-- Every byte of `m'` outside the run of `n` bytes from `a` reads as in `m`. -/
def Memory.sameOutsideRun (blank : Byte) (a n : Nat) (m m' : Memory) : Prop :=
  ∀ x, outsideRun a n x → m'.read blank x = m.read blank x

/-- An address that no write of the group the marks call for covers. -/
def Part.outsideGroup (p : Part) (intake : IntakeState) (x : Nat) : Prop :=
  ∀ w ∈ p.exi.groupWrites,
    let r := p.groupBytes intake p.exi.generation w
    outsideRun (p.areaAddr r.1).toNat r.2.length x

/-- The journal port has no operation, nothing waits for it, and no reset, FORMAT or failure is under way. -/
def Part.journalIdle (p : Part) : Prop :=
  p.jnc.port.job = none ∧ p.jnc.port.suspended = none ∧ p.jnc.queue = [] ∧ p.jnc.waiting = [] ∧
    p.jnc.closing = none ∧ p.jnc.format = none ∧ p.jnc.resetWaits = false ∧ p.jnc.journal = .ok

/-! ## Dockets and outcomes -/

/-- The state with another part; the queue of commands stands. -/
def State.withPart (s : State) (p : Part) : State := { s with part := p }

/-- The docket in hand is `d`, handed to its owner with the request `q`. -/
def Part.hands (p : Part) (d : InHand) (q : Request) : Prop :=
  p.exi.inHand = some d ∧ d.stage = .handed ∧ d.request = q

/-- The docket `d` is in hand, performed with the answer `a`. -/
def Part.finishes (p : Part) (d : InHand) (a : Answer) : Prop := p.exi.inHand = some { d with stage := .finished a }

/-- A docket refused with a result code, with both counts and the value 0 (log 64): nothing but the docket in hand
changes. -/
def Part.refusedWith (p : Part) (d : InHand) (r : ResultCode) : Part :=
  { p with exi := { p.exi with inHand := some { d with stage := .finished (plainAnswer r) } } }

/-- How the journal's failure leaves the docket in hand (R149 step 2): one that has finished, with every entry of it
committed, is durable; any other stands as it was. -/
def Part.handAfterFailure (p q : Part) : Prop :=
  let committed : Prop := p.jnc.waiting = [] ∧ ∀ e ∈ p.jnc.queue, e.owner ≠ .docket
  (p.exi.inHand = none → q.exi.inHand = none) ∧
  ∀ d, p.exi.inHand = some d →
    let finished : Prop := (∃ a, d.stage = .finished a) ∧ d.triggers = [] ∧
      (d.awaitRunning = false ∨ p.jnc.engine = .running)
    (finished ∧ committed → q.exi.inHand = some { d with durable := true }) ∧
    (¬(finished ∧ committed) → q.exi.inHand = some d)

/-- A slot holds a live container with an ID. -/
def Part.holdsId (p : Part) (i : Fin 2048) (id : ContainerId) : Prop := ∃ c, p.slot i = some c ∧ c.id = id

/-- The journal takes docket-caused entries into the queue at once: it is OK, with nothing waiting, no
reset and no FORMAT. -/
def Part.journalTakes (p : Part) : Prop :=
  p.jnc.journal = .ok ∧ p.jnc.waiting = [] ∧ p.jnc.closing = none ∧ p.jnc.format = none ∧
    Config.holdFree < p.jnc.freeCount ∧ p.jnc.queue.length + 5 ≤ Config.docketPlaces

/-- The entries a docket adds to the queue now, each stamped with the engine second. -/
def Part.stagedNow (p : Part) (pls : List Payload) : List Staged :=
  pls.map fun pl => { payload := pl, time := p.now, owner := .docket }

/-! ## What fits a journal entry (11.9) -/

/-- A 32-bit field. -/
def fits32 (n : Nat) : Prop := n < 4294967296

/-- A reading that the two fields can hold and that is not the mark of none. -/
def readingFits (o : Option Reading) : Prop :=
  ∀ r, o = some r → -32768 < r.temp ∧ r.temp ≤ 32767 ∧ r.rh ≤ 65535

def conditionFits (o : Option Condition) : Prop := conditionRate o ≤ 65535

def patternFits (q : Pattern) : Prop := q.length ≤ 255

/-- The payloads whose every field lies in the range that 11.9 gives it. -/
def Payload.fits : Payload → Prop
  | .sectorHead serial first => fits32 serial ∧ fits32 first
  | .timeMark r => ∀ n, r = some n → n < 65535
  | .containerImage i => i.exposure < 1099511627776 ∧ fits32 i.settled ∧ fits32 i.zoneEntry ∧ fits32 i.enrolled ∧
      i.bakeCount ≤ 255 ∧ i.parent ≠ some 0
  | .retireEntry _ _ => True
  | .zoneImage _ i => readingFits i.config.fixed ∧ i.config.dryThreshold ≤ 65535 ∧ i.config.creditRate ≤ 255 ∧
      conditionFits i.condition ∧ (∀ t, i.conditionTime = some t → t < Config.timeNone) ∧ readingFits i.held
  | .zoneCondition _ i => fits32 i.time ∧ conditionFits i.condition ∧ readingFits i.held
  | .classImage _ i => ∀ c, i = some c → fits32 c.allowance ∧ fits32 c.warnMargin ∧ c.ceiling ≤ 255 ∧
      c.maxBakes ≤ 255 ∧ c.bakeTemp ≤ 65535 ∧ c.bakeMax ≤ 65535 ∧ c.bakeDuration ≤ 65535
  | .cellsImage _ cells => ∀ k : Fin 24, cells[k].mult ≤ 2047
  | .edgesImage t h => (∀ k : Fin 5, -32768 ≤ t[k] ∧ t[k] ≤ 32767) ∧ ∀ k : Fin 7, h[k] ≤ 65535
  | .engineImage s => s.ceiling ≤ 65535 ∧ s.outage ≤ 65535 ∧ s.backdate ≤ 65535 ∧ s.repeatWindow ≤ 255 ∧
      s.tempHyst ≤ 255 ∧ s.rhHyst ≤ 255
  | .probeImage _ c => ∀ d, c = some d → d.address ≤ 255 ∧ d.interval ≤ 65535 ∧ d.conversion ≤ 65535
  | .groupsImage g => ∀ k : Fin 4, g.leads[k] ≤ 65535
  | .doorImage _ d => d.filterTime ≤ 65535 ∧ d.openLimit ≤ 65535
  | .outputsImage o => o.stepPeriod ≤ 65535 ∧ patternFits o.calm ∧ patternFits o.warn ∧ patternFits o.hold
  | .dropMark t => fits32 t
  | .resyncEnd => True
  | .formatEntry serial => fits32 serial

end Sys2Proof.Machine
end

