-- ==== Sys2Proof/Certificates/Slice0/Obligations.lean ====
section
/-! DEFINITION. The statements for the provers: what the commands do and leave alone, by the rules of spec/, and the laws
that every step keeps. -/

open Sys2Proof Sys2Proof.Machine

/-! ## The machine -/

/-- 95_what_each_step_holds.md: a command is whole; a step takes the one at the front of the queue and runs it. -/
def Obligations.StepRunsFrontCommand : Prop :=
  ∀ (c : Instr) (rest : List Instr) (s : State),
    step { s with pending := c :: rest } = exec c { s with pending := rest }

/-- The model's choice (log 2): with no command waiting, one 1 ms internal tick of R168 passes. Timers run, and nothing
else of the part changes: the sweep, filter, sample, lamp, poll, conversion, retry-gap and ready-point timers go down by
one, never below 0, and the timers of a flash operation and of a wait for a free bus go up by one. -/
def Obligations.EmptyQueueStepRunsTimersOnly : Prop :=
  ∀ s : State, s.pending = [] → s.part.tbu.mainPower = true →
    let p := s.part
    ∃ q, step s = .next (s.withPart q) ∧
      q = { p with exi := { p.exi with sweepTimer := p.exi.sweepTimer.map (· - 1) }
                   jnc := { p.jnc with port := q.jnc.port }, prc := q.prc
                   dou := { p.dou with lines := q.dou.lines, lamps := q.dou.lamps } } ∧
      q.jnc.port = (if p.jnc.port.job = none then p.jnc.port
                    else { p.jnc.port with elapsed := p.jnc.port.elapsed + 1 }) ∧
      (∀ n, q.line n = { p.line n with timer := (p.line n).timer.map (· - 1)
                                       sample := (p.line n).sample.map (· - 1) }) ∧
      (∀ n, q.lamp n = { p.lamp n with timer := (p.lamp n).timer.map (· - 1) }) ∧
      (∀ n, q.probe n = if p.jnc.engine = .running then
          { p.probe n with pollTimer := (p.probe n).pollTimer - 1 } else p.probe n) ∧
      (∀ b, q.bus b = { p.bus b with phase := match (p.bus b).phase with
        | .awaitFree ms => .awaitFree (ms + 1)
        | .converting ms => .converting (ms - 1)
        | .retryGap ms => .retryGap (ms - 1)
        | phase => phase }) ∧
      (∀ g, q.group g = { p.group g with ready := (p.group g).ready - 1 })

/-- What reset leaves, by R141 (registers), R169 (engine), R160 (journal state), R168 and 12.1 (time), R22, R47, R70, R75,
R86, R96, R129 (tables), and no command waiting. -/
def Obligations.ResetLeavesStatedValues : Prop :=
  let p := State.reset.part
  State.reset.pending = [] ∧ p.jnc.engine = .restoring ∧ p.jnc.journal = .ok ∧ p.exi.intake = .off ∧
    p.readRegister 0x00 = 0 ∧ p.readRegister 0x04 = 0 ∧ p.readRegister 0x08 = 0 ∧ p.readRegister 0x0C = 0 ∧
    p.readRegister 0x10 = 0x0A00#32 ∧ p.readRegister 0x14 = 0 ∧ p.readRegister 0x18 = 0 ∧ p.readRegister 0x1C = 0 ∧
    p.readRegister 0x20 = 0 ∧ p.tbu.timeValid = false ∧ p.exi.generation = 0 ∧ p.exi.inHand = none ∧
    (∀ i, p.slot i = none) ∧ (∀ n, p.cls n = { defn := none, useCount := 0 }) ∧
    (∀ z, (p.zone z).config.kind = .unused) ∧ (∀ n, (p.probe n).state = .off) ∧
    (∀ g, (p.group g).cycled = false ∧ (p.group g).on = false) ∧
    (∀ n, (p.lineHold n).override = .auto ∧ (p.lineHold n).asserted = false) ∧
    p.dlu.entries = [] ∧ p.jnc.queue = [] ∧
    p.znu.settings = { ceiling := 1023, outage := 512, backdate := 900, repeatWindow := 5, tempHyst := 5, rhHyst := 10 }

/-- The model's choice (log 49), from R168: without main power only the pins, the second counter, the backup supply and
MAIN_POWER_ON act. -/
def Obligations.UnpoweredPartStandsStill : Prop :=
  ∀ (c : Instr) (s : State), s.part.tbu.mainPower = false →
    (∀ id b, c ≠ .mainPowerOn id b) → (∀ n h, c ≠ .doorInputChange n h) → c ≠ .secondTick → c ≠ .backupSupplyFail →
    exec c s = .next s

/-! ## Laws that every step keeps -/

/-- The canonical form of host memory and flash is kept by every step. -/
def Obligations.StepKeepsMemoriesCanonical : Prop :=
  ∀ s t : State, s.part.memoriesCanonical → step s = .next t → t.part.memoriesCanonical

/-- R24: no container ID is held by more than one live slot; every step keeps it. -/
def Obligations.StepKeepsIdsUnique : Prop :=
  ∀ s t : State, s.part.idsUnique → step s = .next t → t.part.idsUnique

/-- R97: the drive of each line-hold output follows its override and its zone's blocking count; every step keeps it.
R97: while the law of the drives stands, an AUTO output bound to a zone is asserted exactly while that zone's blocking
count is above 0; FORCE_ON asserts and FORCE_OFF releases any output, and an unbound AUTO output is released. -/
def Obligations.StepKeepsHoldsDriven : Prop :=
  (∀ s t : State, s.part.holdsDriven → step s = .next t → t.part.holdsDriven) ∧
  (∀ (s t : State) (n : Fin 8), s.part.holdsDriven → step s = .next t →
     (∀ z, (t.part.lineHold n).override = .auto → (t.part.lineHold n).zone = some z →
       ((t.part.lineHold n).asserted = true ↔ 0 < (t.part.zone z).blocking)) ∧
     ((t.part.lineHold n).override = .auto → (t.part.lineHold n).zone = none → (t.part.lineHold n).asserted = false) ∧
     ((t.part.lineHold n).override = .forceOn → (t.part.lineHold n).asserted = true) ∧
     ((t.part.lineHold n).override = .forceOff → (t.part.lineHold n).asserted = false))

/-- R153, with the group as one command (the model's choice, log 25): the board generation is even between commands; every
step keeps it. -/
def Obligations.StepKeepsGenerationEven : Prop :=
  ∀ s t : State, s.part.generationEven → step s = .next t → t.part.generationEven

/-- R129: the deadline list is ordered by due and then slot, with at most one entry for each slot; every step keeps it. -/
def Obligations.StepKeepsDeadlinesOrdered : Prop :=
  ∀ s t : State, s.part.deadlinesOrdered → step s = .next t → t.part.deadlinesOrdered

/-- R168: an engine time is never the value that marks none; every step keeps it. -/
def Obligations.StepKeepsTimeCounted : Prop :=
  ∀ s t : State, s.part.timeCounted → step s = .next t → t.part.timeCounted

/-- The six laws stand at reset. -/
def Obligations.ResetMeetsEveryLaw : Prop :=
  let p := State.reset.part
  p.memoriesCanonical ∧ p.idsUnique ∧ p.holdsDriven ∧ p.generationEven ∧ p.deadlinesOrdered ∧ p.timeCounted

/-- R160, R161, 11.9: an entry written with both its programs reads back as committed, with its payload, its sequence
number and its time, whatever the payload, for every payload whose fields lie in the ranges of 11.9. -/
def Obligations.JournalEntryReadsBack : Prop :=
  ∀ (pl : Payload) (docket : Bool) (seq time : Nat), pl.fits → fits32 seq → fits32 time →
    (entryBody pl docket seq time).length = 63 ∧
    decodeEntry (entryBody pl docket seq time ++ [0x00#8]) =
      { payload := some pl, seq := seq, time := time, marked := true } ∧
    (decodeEntry (entryBody pl docket seq time ++ [0xFF#8])).marked = false

/-! ## Supplies and time -/

/-- R169, R168: main power-on returns every volatile table to its reset value, keeps the backup domain (or starts it
from 0 when both supplies were lost), with the backup supply and the flash's identification as its operands say (logs 27
and 41), and keeps the flash's contents, the host's memory and the levels of the door pins (log 6).
R168, R174: a loss of main power leaves the counter, time-valid, the host's memory and the levels of the door pins; every
volatile table is gone, and of the flash only the target of an operation in progress or suspended can change (log 42) and,
in steps 3 and 4 of a FORMAT, the commit mark of its entry. The power groups have 0 ms to their ready points (the model's
choice, log 91).
R173: one that cuts off an erase of a FORMAT, or a program of its entry or of its mark, leaves no committed FORMAT entry. -/
def Obligations.MainPowerOnAndLoss : Prop :=
  (∀ (s : State) (idReply : Byte) (backup : Bool), s.part.tbu.mainPower = false →
     exec (.mainPowerOn idReply backup) s = .next (s.withPart { Part.reset with
       tbu := { mainPower := true, backupSupply := backup
                counter := if s.part.tbu.backupSupply then s.part.tbu.counter else 0
                timeValid := s.part.tbu.backupSupply && s.part.tbu.timeValid && backup
                powerFail := false }
       exi := { Exi.reset with messages := s.part.exi.messages }
       dou := { Dou.reset with lines := Vector.ofFn fun n => DoorLine.defaults (s.part.line n).high }
       flash := { s.part.flash with idByte := idReply }
       host := s.part.host })) ∧
  (∀ (s : State) (left : List Byte), s.part.tbu.mainPower = true →
     let formats : Prop := (∃ n, s.part.jnc.port.job = some (.erase (.format n))) ∨
       s.part.jnc.port.job = some (.program .formatBody) ∨ s.part.jnc.port.job = some (.program .formatMark)
     ∃ q, exec (.mainPowerLoss left) s = .next (s.withPart q) ∧
       q.tbu = { s.part.tbu with mainPower := false, powerFail := false } ∧ q.host = s.part.host ∧
       q.jnc = Jnc.reset ∧ q.ctu = Ctu.reset ∧ q.znu = Znu.reset ∧ q.prc = Prc.reset ∧ q.dlu = Dlu.reset ∧
       q.dou = { Dou.reset with lines := Vector.ofFn fun n => DoorLine.defaults (s.part.line n).high } ∧
       q.exi = { Exi.reset with messages := s.part.exi.messages } ∧ q.flash.idByte = s.part.flash.idByte ∧
       (formats → q.flash.formatEntry = none) ∧
       ∀ x, (formats → x ≠ 63) →
         (∀ step, s.part.jnc.port.job = some (.program step) →
           outsideRun (s.part.programTarget step).1 (s.part.programTarget step).2.length x) →
         (∀ e, s.part.jnc.port.job = some (.erase e) → outsideRun (flashAddr e.sector 0) 4096 x) →
         (∀ e, s.part.jnc.port.suspended = some e → outsideRun (flashAddr e.sector 0) 4096 x) →
         q.flash.cells.read flashBlank x = s.part.flash.cells.read flashBlank x)

/-- R168, R131, R153: at a second the counter rises by one until its last second; in RUNNING the pass and the TIME_MARK
count are ticked, and with intake ON the engine time write is asked for. Nothing else changes.
R168: a failure of the backup supply clears time-valid, whether or not main power is present; the counter stands. -/
def Obligations.SecondTickAndBackupSupply : Prop :=
  (∀ s : State,
     let p := s.part
     let t := p.tbu.counter + 1
     (p.tbu.mainPower = true → p.tbu.counter < Config.lastSecond →
       exec .secondTick s = .next (s.withPart { p with
         tbu := { p.tbu with counter := t }
         dlu := if p.jnc.engine = .running then
             (if p.dlu.pass = none ∧ p.dlu.pendingPass = none then
               Dlu.checkPass { p.dlu with pass := some { time := t, reached := none, moved := [] } }
              else { p.dlu with pendingPass := some t })
           else p.dlu
         jnc := if p.jnc.engine = .running then { p.jnc with sinceMark := p.jnc.sinceMark + 1 } else p.jnc
         exi := if p.exi.intake = .on then { p.exi with timeWrite := some t } else p.exi })) ∧
     (p.tbu.mainPower = false → p.tbu.backupSupply = true → p.tbu.counter < Config.lastSecond →
       exec .secondTick s = .next (s.withPart { p with tbu := { p.tbu with counter := t } })) ∧
     (Config.lastSecond ≤ p.tbu.counter ∨ (p.tbu.mainPower = false ∧ p.tbu.backupSupply = false) →
       exec .secondTick s = .next s)) ∧
  (∀ s : State, exec .backupSupplyFail s = .next (s.withPart { s.part with
     tbu := { s.part.tbu with backupSupply := false, timeValid := false }
     exi := { s.part.exi with headerMark := s.part.exi.headerMark || s.part.tbu.mainPower } }))

/-- R174, R175: in RUNNING, with nothing being committed and a position free, a warning closes staging and stages a last
TIME_MARK, the port then committing it; a soft reset does the same with its bit set, and once that TIME_MARK has committed
the part acts as at main power-on. So does a soft reset at once with the journal FAILED, and the recovery of the supply
after everything is committed. The last TIME_MARK is staged at every free count, also where R163 holds staging for
compaction (the model's choice, log 81). A soft reset during a FORMAT waits with its bit set, and closes staging once the
FORMAT has ended and its docket is answered (the model's choice, log 83). -/
def Obligations.WarningAndSoftResetCloseStaging : Prop :=
  ∀ s : State, s.part.tbu.mainPower = true →
    (s.part.journalIdle → s.part.jnc.engine = .running → s.part.jnc.sectorOpen = true → s.part.jnc.headPos < 64 →
      s.part.ctu.list = none →
      let closed (recover : Bool) : Jnc := { s.part.jnc with
        queue := [{ payload := .timeMark none, time := s.part.now, owner := .internal }], sinceMark := 0
        closing := some { recover := recover, marked := true }
        port := { s.part.jnc.port with job := some (.program .entryBody), since := s.part.now, elapsed := 0
                                       timedOut := false } }
      (s.part.tbu.powerFail = false →
        exec .powerFailWarning s = .next (s.withPart { s.part with
          tbu := { s.part.tbu with powerFail := true }, jnc := closed false
          exi := { s.part.exi with sweeping := false, extraPass := false } })) ∧
      exec .softReset s = .next (s.withPart { s.part with
          jnc := closed true
          exi := { s.part.exi with sweeping := false, extraPass := false, softResetBit := true } })) ∧
    (s.part.tbu.powerFail = true → s.part.jnc.queue = [] → s.part.jnc.port.job = none →
      s.part.jnc.port.suspended = none → s.part.jnc.format = none →
      s.part.jnc.closing = some { recover := false, marked := true } →
      exec .powerRecovery s = .next (s.withPart s.part.powerOn)) ∧
    (∀ t, s.part.jnc.closing = some { recover := true, marked := true } → s.part.jnc.format = none →
      s.part.jnc.journal ≠ .failed → s.part.jnc.queue = [{ payload := .timeMark none, time := t, owner := .internal }] →
      s.part.jnc.port.job = some (.program .entryMark) → s.part.jnc.port.timedOut = false →
      s.part.jnc.port.suspended = none →
      let mark := s.part.jnc.headSector * 4096 + s.part.jnc.headPos * 64 + 63
      exec (.programComplete .done) s = .next (s.withPart (Part.powerOn { s.part with
        flash := { s.part.flash with cells := s.part.flash.cells.write flashBlank mark [0] } }))) ∧
    (s.part.jnc.journal = .failed → s.part.jnc.format = none → s.part.jnc.closing = none → s.part.jnc.waiting = [] →
      s.part.jnc.resetWaits = false → s.part.ctu.list = none →
      exec .softReset s = .next (s.withPart s.part.powerOn)) ∧
    (s.part.jnc.format ≠ none → s.part.jnc.closing = none → exec .softReset s = .next (s.withPart { s.part with
      jnc := { s.part.jnc with resetWaits := true }, exi := { s.part.exi with softResetBit := true } })) ∧
    (∀ stores d a, let p := s.part.hostStores stores
      p.jnc.resetWaits = true → p.exi.inHand = some d → d.stage = .finished a → d.givenUp = false → d.triggers = [] →
      d.awaitRunning = false → p.tbu.powerFail = false → p.jnc.engine = .running → p.jnc.port.job = none →
      p.jnc.port.suspended = none → p.jnc.queue = [] → p.jnc.waiting = [] → p.jnc.closing = none → p.jnc.format = none →
      p.jnc.journal = .ok →
      ∃ q, exec (.answerDocket stores) s = .next (s.withPart q) ∧ q.exi.inHand = none ∧
        q.jnc.closing = some { recover := true, marked := true } ∧ q.jnc.resetWaits = false ∧
        q.jnc.queue = [{ payload := .timeMark none, time := p.now, owner := .internal }] ∧
        q.host = (p.host.write hostBlank (p.slotAddr d.slot + 48).toNat (a.bytes false)).write hostBlank
          (p.slotAddr d.slot).toNat [3])

/-! ## The register window and interrupts -/

/-- R141: EXBASE_L, EXBASE_H and EXCFG take the value written while intake is not ON; while it is ON the write is ignored,
and a write of a read-only register always is. -/
def Obligations.RegisterWritesStoreOrAreIgnored : Prop :=
  ∀ (s : State) (v : Word32), s.part.tbu.mainPower = true →
    (∀ r, s.part.exi.intake = .on → exec (.registerWrite r v) s = .next s) ∧
    exec (.registerWrite .engstat v) s = .next s ∧ exec (.registerWrite .etime v) s = .next s ∧
    (s.part.exi.intake ≠ .on →
      exec (.registerWrite .exbaseL v) s = .next (s.withPart { s.part with exi := { s.part.exi with exbaseL := v } }) ∧
      exec (.registerWrite .exbaseH v) s = .next (s.withPart { s.part with exi := { s.part.exi with exbaseH := v } }) ∧
      exec (.registerWrite .excfg v) s = .next (s.withPart { s.part with
        exi := { s.part.exi with docketCode := v.extractLsb' 0 3, periodCode := v.extractLsb' 8 8 } }))

/-- R155: a write of INTCAUSE clears each cause whose bit is 1 and leaves the others; a write of INTMASK sets the enables
and sends one message for each cause that is set and newly enabled. Nothing else changes.
R155: setting a cause that is already set changes nothing; a cause newly set sends one message exactly when it is
enabled, and leaves the other causes as they were. -/
def Obligations.InterruptCausesAndMessages : Prop :=
  (∀ (s : State) (v : Word32), s.part.tbu.mainPower = true →
     (∃ q, exec (.intcauseWrite v) s = .next (s.withPart q) ∧
       q = { s.part with exi := { s.part.exi with cause := q.exi.cause } } ∧
       ∀ c : IrqCause, q.exi.cause.getLsbD c.bit = (s.part.exi.cause.getLsbD c.bit && !v.getLsbD c.bit)) ∧
     (∃ q sent, exec (.intmaskWrite v) s = .next (s.withPart q) ∧
       q = { s.part with exi := { s.part.exi with mask := q.exi.mask, messages := s.part.exi.messages ++ sent } } ∧
       sent.Nodup ∧
       ∀ c : IrqCause, q.exi.mask.getLsbD c.bit = v.getLsbD c.bit ∧
         (c ∈ sent ↔ s.part.exi.cause.getLsbD c.bit = true ∧ v.getLsbD c.bit = true ∧
           s.part.exi.mask.getLsbD c.bit = false))) ∧
  (∀ (p : Part) (c : IrqCause),
     (p.exi.cause.getLsbD c.bit = true → p.raise c = p) ∧
     (p.exi.cause.getLsbD c.bit = false →
       ∃ cause, p.raise c = { p with exi := { p.exi with
           cause := cause
           messages := if p.exi.mask.getLsbD c.bit then p.exi.messages ++ [c] else p.exi.messages } } ∧
         ∀ d : IrqCause, cause.getLsbD d.bit = (p.exi.cause.getLsbD d.bit || decide (d = c))))

/-- R142, R143: an INTAKE set checks the base, the docket count code and the sweep period code; it turns intake ON with the
cursor 0, the sweep timer started and the whole board marked, or sets the configuration error; while ON it cancels a
pending turn-off.
R142, R143: an INTAKE clear makes a turn-off pending while ON, and the sweep ends; from ACCESS_FAULT it gives OFF; in
OFF it has no effect. The extra-pass flag is cleared with each turn, also where a request in RESTORING has set it and no sweep
has begun (the model's choice, log 99). -/
def Obligations.IntakeTurnsOnAndOff : Prop :=
  (∀ s : State, s.part.tbu.mainPower = true →
     let p := s.part
     let good := (p.exi.exbaseH ++ p.exi.exbaseL).toNat ≠ 0 ∧ (p.exi.exbaseH ++ p.exi.exbaseL).toNat % 4096 = 0 ∧
       p.exi.docketCode.toNat ≤ 5 ∧ 1 ≤ p.exi.periodCode.toNat
     (p.exi.intake = .on → exec .intakeSet s = .next (s.withPart { p with exi := { p.exi with turnOff := false } })) ∧
     (p.exi.intake ≠ .on → good →
       exec .intakeSet s = .next (s.withPart { p with exi := { p.exi with
         intake := .on, turnOff := false, faultAfter := false, configError := false, sweeping := false
         extraPass := false, cursor := 0, sweepTimer := some (p.exi.periodCode.toNat * 10), headerMark := true
         zoneMarks := List.finRange 64, slotMarks := List.finRange 2048 } })) ∧
     (p.exi.intake ≠ .on → ¬good →
       exec .intakeSet s = .next (s.withPart { p with exi := { p.exi with configError := true } }))) ∧
  (∀ s : State, s.part.tbu.mainPower = true →
     let p := s.part
     (p.exi.intake = .on → p.exi.turnOff = false →
       exec .intakeClear s = .next (s.withPart { p with
         exi := { p.exi with turnOff := true, sweeping := false, extraPass := false } })) ∧
     (p.exi.intake = .on → p.exi.turnOff = true → exec .intakeClear s = .next s) ∧
     (p.exi.intake = .accessFault →
       exec .intakeClear s = .next (s.withPart { p with exi := { p.exi with intake := .off } })) ∧
     (p.exi.intake = .off → exec .intakeClear s = .next s))

/-! ## Dockets: taking, answering, losing -/

/-- R146, R147, R148: with intake ON, no sweep running, the engine not RESTORING, no docket in hand and dockets being taken,
a NUDGE or an expiry of the sweep timer reads the slot at the cursor. A POSTED docket is taken: TAKEN is written, and the
docket is answered BAD_KIND, answered NOT_NOW or handed to its owner by its kind and the engine state. Any other owner ends
the sweep. `q` is the part after the host's own stores.
R146: a sweep request during a sweep or in RESTORING sets the extra-pass flag; with intake not ON it has no effect.
R148: RUNNING allows every kind, BLANK SET_TIME and FORMAT, AWAIT_TIME SET_TIME and QUERY, and RESTORING none.
R147, 11.4, 11.5: a request's kind is its byte 1 and its arguments stand where 11.5 gives them. -/
def Obligations.SweepTakesPostedDocket : Prop :=
  (∀ (s : State) (v : Word32) (stores : Stores), s.part.tbu.mainPower = true →
     let q := s.part.hostStores stores
     let bs := q.hostRead (q.slotAddr q.exi.cursor) 64
     let request := decodeRequest bs
     let taken (timer : Option Nat) : Part := { q with
       host := q.host.write hostBlank (q.slotAddr q.exi.cursor).toNat [2]
       exi := { q.exi with
         sweeping := true, sweepTimer := timer
         inHand := some { slot := q.exi.cursor, notify := requestNotify bs, request := request
                          stage := if request = .badKind then .finished (plainAnswer .badKind)
                                   else if request.allowed q.jnc.engine then .handed
                                   else .finished (plainAnswer .notNow)
                          givenUp := false, triggers := [], awaitRunning := false, durable := false } } }
     q.exi.intake = .on → q.exi.sweeping = false → q.jnc.engine ≠ .restoring → q.exi.inHand = none →
     q.exi.turnOff = false → q.tbu.powerFail = false → q.jnc.closing = none →
     (fieldAt bs 0 1 = 1 →
       exec (.nudge v stores) s = .next (s.withPart (taken q.exi.sweepTimer)) ∧
       (q.exi.sweepTimer ≠ none →
         exec (.sweepTimerExpiry stores) s = .next (s.withPart (taken (some q.sweepPeriod))))) ∧
     (fieldAt bs 0 1 ≠ 1 →
       exec (.nudge v stores) s = .next (s.withPart { q with exi := { q.exi with extraPass := false } }) ∧
       (q.exi.sweepTimer ≠ none →
         exec (.sweepTimerExpiry stores) s = .next (s.withPart { q with
           exi := { q.exi with extraPass := false, sweepTimer := some q.sweepPeriod } })))) ∧
  (∀ (s : State) (v : Word32) (stores : Stores), s.part.tbu.mainPower = true →
     let q := s.part.hostStores stores
     (q.exi.intake ≠ .on → exec (.nudge v stores) s = .next (s.withPart q) ∧
       exec (.sweepTimerExpiry stores) s = .next (s.withPart q)) ∧
     (q.exi.intake = .on → q.exi.sweeping = true ∨ q.jnc.engine = .restoring →
       exec (.nudge v stores) s = .next (s.withPart { q with exi := { q.exi with extraPass := true } }) ∧
       (q.exi.sweepTimer ≠ none →
         exec (.sweepTimerExpiry stores) s = .next (s.withPart { q with
           exi := { q.exi with extraPass := true, sweepTimer := some q.sweepPeriod } })))) ∧
  (∀ (q : Request) (e : EngineState), q.allowed e = true ↔ e = .running ∨
     (e = .blank ∧ ((∃ t, q = .setTime t) ∨ q = .format)) ∨
     (e = .awaitTime ∧ ((∃ t, q = .setTime t) ∨ ∃ a, q = .query a))) ∧
  (∀ bs : List Byte,
     let n (off len : Nat) : Nat := fieldAt bs off len
     let id (off : Nat) : BitVec 64 := BitVec.ofNat 64 (n off 8)
     let pattern (off : Nat) : Pattern := { length := n off 1, steps := BitVec.ofNat 16 (n (off + 1) 2) }
     let is (kind : Nat) (r : Request) : Prop := n 1 1 = kind → decodeRequest bs = r
     is 1 (.enroll { id := id 8, cls := n 16 1, zone := n 17 1, custody := n 18 1, minutes := n 20 4 }) ∧
     is 2 (.split { parent := id 8, count := n 3 1 % 8, retireParent := n 3 1 / 128 == 1
                    children := [id 16, id 24, id 32, id 40] }) ∧
     is 3 (.retire (id 8)) ∧ is 4 (.quarantine (id 8)) ∧ is 5 (.release { id := id 8, resume := n 16 1 }) ∧
     is 6 (.query { id := id 8, reply := id 16 }) ∧ is 7 (.moveList { addr := id 8, count := n 16 2 }) ∧
     is 8 (.setClass { cls := n 8 1, defined := n 9 1, allowance := n 12 4, warnMargin := n 16 4, ceiling := n 20 1
                       maxBakes := n 21 1, bakeTemp := n 22 2, bakeMax := n 24 2, bakeDuration := n 26 2 }) ∧
     is 9 (.setEngine { mask := BitVec.ofNat 8 (n 8 1), ceiling := n 10 2, outage := n 12 2, backdate := n 14 2
                        repeatWindow := n 16 1, tempHyst := n 17 1, rhHyst := n 18 1 }) ∧
     is 10 (.setZone { zone := n 8 1, kind := n 9 1, probe := n 10 1, reference := n 11 1, lineOutput := n 12 1
                       creditRate := n 13 1, dryThreshold := n 14 2, fixedTemp := ofSigned16 (n 16 2)
                       fixedRh := n 18 2 }) ∧
     is 11 (.setConditions (id 8)) ∧
     is 12 (.setProbe { probe := n 8 1, enable := n 9 1, bus := n 10 1, address := n 11 1, group := n 12 1
                        interval := n 14 2, conversion := n 16 2 }) ∧
     is 13 (.setGroup { mask := BitVec.ofNat 8 (n 8 1), modes := #v[n 10 1, n 14 1, n 18 1, n 22 1]
                        leads := #v[n 12 2, n 16 2, n 20 2, n 24 2], speedA := n 26 2, speedB := n 28 2 }) ∧
     is 14 (.queryProbe { probe := n 8 1, clearLate := n 9 1 % 2 == 1, reply := id 16 }) ∧
     is 15 (.setDoor { line := n 8 1, zone := n 9 1, polarity := n 10 1, filterTime := n 12 2, openLimit := n 14 2 }) ∧
     is 16 (.setOutput { mask := BitVec.ofNat 32 (n 8 4)
                         overrides := #v[n 12 1, n 13 1, n 14 1, n 15 1, n 16 1, n 17 1, n 18 1, n 19 1]
                         lampZones := #v[n 20 1, n 21 1, n 22 1, n 23 1, n 24 1, n 25 1, n 26 1, n 27 1]
                         stepPeriod := n 28 2, calm := pattern 30, warn := pattern 33, hold := pattern 36 }) ∧
     is 17 (.setTime (n 8 4)) ∧ is 18 .format ∧ (n 1 1 = 0 ∨ 18 < n 1 1 → decodeRequest bs = .badKind))

/-- R149: a docket that is done is answered once its docket-caused entries are committed, or the journal is FAILED: the
answer bytes, then ANSWERED; the cursor moves on modulo D and is posted; DOCKET is set for NOTIFY. NOT_DURABLE is set
exactly when the journal is FAILED and was so when the docket finished, or became so before every entry of it was committed
(`durable` clear: ProgramsCommitTheOldestEntry and FlashFailuresAndSuspend say when a failure sets it). A sweep under way
then reads the next slot: a POSTED docket is taken, and any other owner ends the sweep. With no sweep under way, no other
byte of host memory changes.
R157: a docket given up at a bus reset ends with no write, no step of the cursor and no DOCKET cause (log 11).
R149, the eighth law: while a docket-caused entry waits or is not committed, and the journal is not FAILED, the docket
in hand is not answered; host memory changes by the host's own stores alone. -/
def Obligations.AnswerWaitsThenWrites : Prop :=
  (∀ (s : State) (stores : Stores) (d : InHand) (a : Answer), s.part.tbu.mainPower = true →
     let p := s.part.hostStores stores
     p.exi.inHand = some d → d.stage = .finished a → d.givenUp = false → d.triggers = [] → d.awaitRunning = false →
     p.jnc.journal = .failed ∨ (p.jnc.waiting = [] ∧ ∀ e ∈ p.jnc.queue, e.owner ≠ .docket) →
     p.tbu.powerFail = false → p.jnc.closing = none → p.jnc.resetWaits = false → p.exi.turnOff = false →
     p.exi.faultAfter = false →
     let host := (p.host.write hostBlank (p.slotAddr d.slot + 48).toNat
       (a.bytes (p.jnc.journal == .failed && !d.durable))).write hostBlank (p.slotAddr d.slot).toNat [3]
     let cursor := (p.exi.cursor + 1) % p.docketCount
     let next := (p.slotAddr cursor).toNat
     let bs := Memory.readBlock hostBlank host next 64
     let request := decodeRequest bs
     ∃ q, exec (.answerDocket stores) s = .next (s.withPart q) ∧
       (d.notify = true → q.exi.cause.getLsbD 0 = true) ∧
       (d.notify = false → q.exi.cause = p.exi.cause ∧ q.exi.messages = p.exi.messages) ∧
       (let base : Part := { p with
          host := host, ctu := { p.ctu with list := none }
          exi := { p.exi with inHand := none, cursor := cursor, headerMark := true, cause := q.exi.cause
                              messages := q.exi.messages } }
        (p.exi.sweeping = false → q = base) ∧
        (p.exi.sweeping = true → p.exi.extraPass = false → fieldAt bs 0 1 ≠ 1 →
          q = { base with exi := { base.exi with sweeping := false } }) ∧
        (p.exi.sweeping = true → fieldAt bs 0 1 = 1 →
          q = { base with
            host := host.write hostBlank next [2]
            exi := { base.exi with inHand := some {
              slot := cursor, notify := requestNotify bs, request := request
              stage := if request = .badKind then .finished (plainAnswer .badKind)
                       else if request.allowed p.jnc.engine then .handed
                       else .finished (plainAnswer .notNow)
              givenUp := false, triggers := [], awaitRunning := false, durable := false } } }))) ∧
  (∀ (s : State) (stores : Stores) (d : InHand) (a : Answer), s.part.tbu.mainPower = true →
     let p := s.part.hostStores stores
     p.exi.inHand = some d → d.stage = .finished a → d.givenUp = true → d.triggers = [] → d.awaitRunning = false →
     p.jnc.journal = .failed ∨ (p.jnc.waiting = [] ∧ ∀ e ∈ p.jnc.queue, e.owner ≠ .docket) →
     p.exi.sweeping = false → p.exi.faultAfter = false → p.jnc.resetWaits = false →
     exec (.answerDocket stores) s = .next (s.withPart { p with
       ctu := { p.ctu with list := none }, exi := { p.exi with inHand := none } })) ∧
  (∀ (s : State) (stores : Stores), s.part.tbu.mainPower = true →
     let p := s.part.hostStores stores
     p.jnc.journal ≠ .failed → (p.jnc.waiting ≠ [] ∨ ∃ e ∈ p.jnc.queue, e.owner = .docket) →
     exec (.answerDocket stores) s = .next (s.withPart p))

/-- R156: a failed access sets ACCESS. With no docket in hand a failed slot read or TAKEN write takes intake to
ACCESS_FAULT, the sweep ended; so does that of a sweep asked for in RESTORING, as it begins where RESTORE ends in BLANK or
ENTER_RUNNING in RUNNING, with all else that the command does (R146, log 10). With one in hand a failed engine time write
leaves intake ON until the docket is done, as does a failed group. A failed read or write made for the docket gives
BUS_ERROR; the settle of a QUERY stands (R38). A failed answer write leaves the cursor, and the docket is no longer in hand.
R116: a failed read of a movement entry ends the list with NOT_DONE in that entry and the later ones; after a failed outcome
write the entry's effects stand, it counts as applied when it was and not as handled (log 40). Both stage the images of the
touched list and answer BUS_ERROR with the list's counts.
R156, R143: a failed group write leaves its first writes made, the other marks set and the generation at the next even
value unwritten, and ALERT set for a rise; so does that of the last group of a turn-off, whose header shows OFF.
R157: a bus reset returns the registers, intake, sweep and marks to their reset values, keeps the generation and gives up
the docket in hand; every other block goes on. A group it cuts leaves its first writes made and the generation at the next
even value. The model's choices: the order of a group's writes (log 58); both counts and the value of another BUS_ERROR are 0
(log 64); SOFT_RESET reads clear after a bus reset, though a soft reset under way goes on (log 75); an engine time write that
waits is dropped at ACCESS_FAULT and bus reset (log 76); a failure while a fault waits sets ACCESS again (log 77); the marks
that a failed group sets again carry no rise (log 94); an extra-pass flag set in RESTORING is cleared as intake leaves ON
(log 99). -/
def Obligations.FailedAccessAndBusReset : Prop :=
  let fault (p q : Part) (e : Exi) : Prop := q.exi.cause.getLsbD 3 = true ∧ q = { p with
    host := q.host
    exi := { e with intake := .accessFault, turnOff := false, faultAfter := false, sweeping := false, extraPass := false
                    sweepTimer := none, timeWrite := none, cause := q.exi.cause, messages := q.exi.messages } }
  let items (p : Part) (last : Bool) : List GroupWrite :=
    (if last then { p.exi with headerMark := true } else p.exi).groupWrites
  let made (p : Part) (cut : GroupCut) : List GroupWrite :=
    (items p cut.last).take (min cut.done ((items p cut.last).length - 1))
  let memory (p : Part) (cut : GroupCut) : Memory :=
    (p.writeGroupItems (if cut.last then .off else .on) p.exi.generation (made p cut)).host
  let remarked (p : Part) (cut : GroupCut) : Exi := { p.exi with
    generation := p.exi.generation + 2, rise := false
    headerMark := (p.exi.headerMark || cut.last) && !(made p cut).contains .header
    zoneMarks := p.exi.zoneMarks.filter fun z => !(made p cut).contains (.zone z)
    slotMarks := p.exi.slotMarks.filter fun i => !(made p cut).contains (.slot i) }
  let underWay (p : Part) (cut : GroupCut) : Prop := p.exi.intake = .on ∧
    ((cut.last = false ∧ p.exi.marked = true) ∨ (cut.last = true ∧ p.exi.turnOff = true ∧ p.exi.inHand = none))
  (∀ (s : State) (stores : Stores), s.part.tbu.mainPower = true →
     let p := s.part.hostStores stores
     let fails (a : FailedAccess) (own : Part → Prop) : Prop :=
       ∃ q, exec (.hostAccessFailure ⟨a, stores⟩) s = .next (s.withPart q) ∧ own q
     p.exi.intake = .on →
     (p.exi.inHand = none → p.exi.turnOff = false → p.tbu.powerFail = false → p.jnc.closing = none →
       p.jnc.engine ≠ .restoring →
       fails (.slotRead .asked) (fun q => fault p q p.exi ∧ q.host = p.host) ∧
       (fieldAt (p.hostRead (p.slotAddr p.exi.cursor) 64) 0 1 = 1 →
         fails (.takenWrite .asked) fun q => fault p q p.exi ∧ q.host = p.host)) ∧
     (p.exi.inHand = none → p.exi.turnOff = false → p.tbu.powerFail = false → p.jnc.closing = none →
       p.jnc.engine = .restoring → p.exi.extraPass = true → p.exi.sweeping = false →
       let posted : Prop := fieldAt (p.hostRead (p.slotAddr p.exi.cursor) 64) 0 1 = 1
       (∀ id, p.jnc.restore = none → p.jnc.format = none → id ≠ 0x00#8 → id ≠ 0xFF#8 → p.flash.formatEntry = none →
         let blank : Part := { p with jnc := { p.jnc with engine := .blank }
                                      flash := { p.flash with idByte := id } }
         let ended (q : Part) : Prop :=
           fault blank q { p.exi with headerMark := true } ∧ q.host = p.host ∧ q.exi.cause.getLsbD 2 = true
         fails (.slotRead (.restored id)) ended ∧ (posted → fails (.takenWrite (.restored id)) ended)) ∧
       (p.mayRun = true →
         let ended (q : Part) : Prop := fault p.nowRunning q p.nowRunning.exi ∧ q.host = p.host ∧
           q.jnc.engine = .running ∧ q.exi.cause.getLsbD 2 = true
         fails (.slotRead .entered) ended ∧ (posted → fails (.takenWrite .entered) ended))) ∧
     (∀ d, p.exi.inHand = some d →
       let held (f : InHand) (q : Part) : Prop := q.exi.cause.getLsbD 3 = true ∧ q = { p with
         exi := { p.exi with inHand := some f, faultAfter := true, cause := q.exi.cause, messages := q.exi.messages
                             timeWrite := q.exi.timeWrite } }
       let busError : InHand := { d with stage := .finished (plainAnswer .busError) }
       let waits (f : InHand) (q : Part) : Prop := q.exi.cause.getLsbD 3 = true ∧ q.exi.inHand = some f ∧
         q.exi.faultAfter = true ∧ q.exi.intake = .on ∧ q.exi.timeWrite = p.exi.timeWrite
       (∀ t, p.exi.timeWrite = some t → fails .engineTime fun q => held d q ∧ q.exi.timeWrite = none) ∧
       (∀ addr n, p.hands d (.setConditions addr) → addr ≠ 0 → addr.toNat % 64 = 0 →
         fails (.docketRead n) fun q => held busError q ∧ q.exi.timeWrite = p.exi.timeWrite) ∧
       (∀ a : QueryProbeArgs, p.hands d (.queryProbe a) → a.probe < 32 → a.reply ≠ 0 → a.reply.toNat % 32 = 0 →
         fails .docketWrite fun q => held busError q ∧ q.exi.timeWrite = p.exi.timeWrite) ∧
       (∀ (a : QueryArgs) i c, p.hands d (.query a) → a.reply ≠ 0 → a.reply.toNat % 64 = 0 → a.id ≠ 0 → p.idsUnique →
         p.slot i = some c → c.id = a.id →
         (p.jnc.engine ≠ .running → fails .docketWrite fun q => held busError q ∧ q.exi.timeWrite = p.exi.timeWrite) ∧
         (p.jnc.engine = .running → (p.zone c.zone).change = none → p.jnc.closing = none →
           fails .docketWrite fun q => waits busError q ∧ p.sameOutside q ∧ p.sameOtherSlots i q ∧
             ∃ c', q.slot i = some c' ∧ c'.exposure = (settleRecord (p.classDef c.cls) p.now c).1.exposure ∧
               c'.settled = max c.settled p.now)) ∧
       (∀ l, p.ctu.list = some l → d.stage = .working → l.next < l.count → p.tbu.powerFail = false →
         p.jnc.closing = none →
         let ended (l' : ListRecord) : InHand := { d with stage := .finished {
           result := .busError, first := l'.applied, second := l'.clamped, value := l.handled } }
         let images (w q : Part) (is : List (Fin 2048)) : Prop := w.journalTakes → is.length ≤ 5 →
           q.jnc.queue = w.jnc.queue ++ w.stagedNow
             (is.filterMap fun i => (q.slot i).map fun c => .containerImage (imageOf i c))
         (∀ n, fails (.docketRead n) fun q => waits (ended l) q ∧ images p q l.touched ∧
           (p.jnc.journal = .ok → q.ctu.slots = p.ctu.slots) ∧ q.flash = p.flash ∧ q.tbu = p.tbu ∧ q.znu = p.znu ∧
           q.prc = p.prc ∧ q.dou = p.dou ∧ q.dlu = p.dlu ∧
           (∀ k, l.next ≤ k → k < l.next + min n (l.count - l.next) →
             q.host.read hostBlank (l.outcomeAddr k).toNat = 6) ∧
           (∀ x, (∀ k, l.next ≤ k → k < l.next + min n (l.count - l.next) → x ≠ (l.outcomeAddr k).toNat) →
             q.host.read hostBlank x = p.host.read hostBlank x)) ∧
         (∀ r l', l.next + 1 < l.count → exec (.moveEntry stores) s = .next (s.withPart r) → r.ctu.list = some l' →
           fails .docketWrite fun q => waits (ended l') q ∧ images r q l'.touched ∧
             (r.jnc.journal = .ok → q.ctu.slots = r.ctu.slots) ∧ q.znu = r.znu ∧ q.dlu = r.dlu ∧ p.sameOutside q)) ∧
       (∀ cut, underWay p cut → fails (.groupWrite cut) fun q => q.exi.cause.getLsbD 3 = true ∧
         (p.exi.rise = true → q.exi.cause.getLsbD 1 = true) ∧ q = { p with
           host := memory p cut
           exi := { remarked p cut with faultAfter := true, cause := q.exi.cause, messages := q.exi.messages } }) ∧
       (∀ a, d.stage = .finished a → d.givenUp = false → d.triggers = [] → d.awaitRunning = false →
         p.jnc.journal = .failed ∨ (p.jnc.waiting = [] ∧ ∀ e ∈ p.jnc.queue, e.owner ≠ .docket) →
         p.tbu.powerFail = false → p.jnc.closing = none → p.jnc.resetWaits = false →
         let done : Part := { p with ctu := { p.ctu with list := none } }
         fails .answerFields (fun q => fault done q { p.exi with inHand := none } ∧ q.host = p.host) ∧
         fails .answerOwner (fun q => fault done q { p.exi with inHand := none } ∧
           q.host = p.host.write hostBlank (p.slotAddr d.slot + 48).toNat
             (a.bytes (p.jnc.journal == .failed && !d.durable))))) ∧
     (∀ cut, underWay p cut → p.exi.inHand = none →
       fails (.groupWrite cut) fun q => q.host = memory p cut ∧ (p.exi.rise = true → q.exi.cause.getLsbD 1 = true) ∧
         fault p q (remarked p cut))) ∧
  (∀ s : State, s.part.tbu.mainPower = true →
     let p := s.part
     let reset (generation : Word32) : Exi := { Exi.reset with
       generation := generation, messages := p.exi.messages
       inHand := p.exi.inHand.map fun d => { d with givenUp := true } }
     exec (.busReset none) s = .next (s.withPart { p with exi := reset p.exi.generation }) ∧
     ∀ cut, underWay p cut → exec (.busReset (some cut)) s = .next (s.withPart { p with
       host := memory p cut, exi := reset (p.exi.generation + 2) }))

/-! ## Doors and lamps -/

/-- R89, R90, R95: an input level goes into its line, and the filter timer runs exactly while the raw state differs from
the filtered state and no restore sample is awaited; without main power the pin alone changes (the model's choice, log
49). RESTORE_DOOR_SAMPLE gives the line the raw state. An expiry outside RUNNING, or of a line bound to no zone, confirms
the edge in the line alone; one of a filter timer that does not run changes nothing (the model's choice, log 1). -/
def Obligations.DoorLineEventsReachTheLine : Prop :=
  ∀ (s : State) (n : Fin 16),
    let p := s.part
    let l := p.line n
    let lineIs (r : DoorLine) : State := s.withPart { p with dou := { p.dou with lines := p.dou.lines.set n r } }
    (∀ high, p.tbu.mainPower = true →
      exec (.doorInputChange n high) s = .next (lineIs { l with
        high := high
        timer := if l.sample ≠ none ∨ (high != l.openLow) = l.filteredOpen then none
                 else some (l.timer.getD l.filterTime) })) ∧
    (∀ high, p.tbu.mainPower = false →
      exec (.doorInputChange n high) s = .next (lineIs { l with high := high })) ∧
    (p.tbu.mainPower = true → l.sample ≠ none →
      exec (.restoreDoorSample n) s = .next (lineIs { l with
        sample := none, filteredOpen := l.high != l.openLow, timer := none })) ∧
    (∀ reach, p.tbu.mainPower = true → l.timer ≠ none → p.jnc.engine ≠ .running ∨ l.zone = none →
      exec (.doorFilterExpiry n reach) s = .next (lineIs { l with
        filteredOpen := l.high != l.openLow, timer := none })) ∧
    (∀ reach, p.tbu.mainPower = true → l.timer = none → exec (.doorFilterExpiry n reach) s = .next s)

/-- R91, R92: in RUNNING, a confirmed open edge of a bound line sets the line's pending-open and posts the zone. While the
zone's door is already open nothing else changes; otherwise the door record opens at now and the zone is told.
R91: in RUNNING, the close edge of the last open line bound to a zone closes its door record, clears DOOR_AJAR, and
tells the zone; pending-open stands. -/
def Obligations.ZoneDoorFollowsLineEdges : Prop :=
  (∀ (s : State) (n : Fin 16) (z : Fin 64) (reach : Reach), s.part.tbu.mainPower = true →
     let p := s.part
     let l := p.line n
     p.jnc.engine = .running → p.jnc.closing = none → l.timer ≠ none → l.zone = some z → (l.high != l.openLow) = true →
     ∃ q, exec (.doorFilterExpiry n reach) s = .next (s.withPart q) ∧ p.sameOutside q ∧
       q.line n = { l with filteredOpen := true, timer := none, pendingOpen := true } ∧
       (∀ m, m ≠ n → q.line m = p.line m) ∧ (∀ y, y ≠ z → q.door y = p.door y) ∧ z ∈ q.exi.zoneMarks ∧
       ((p.door z).isOpen = true → q = { p with dou := { p.dou with lines := q.dou.lines }
                                                exi := { p.exi with zoneMarks := q.exi.zoneMarks } }) ∧
       ((p.door z).isOpen = false → q.door z = { p.door z with isOpen := true, since := some p.now } ∧
         ((p.zone z).config.kind ≠ .unused → (q.zone z).doorOpen = true) ∧
         (∀ y, (q.zone y).config = (p.zone y).config) ∧ q.prc = p.prc)) ∧
  (∀ (s : State) (n : Fin 16) (z : Fin 64) (reach : Reach), s.part.tbu.mainPower = true →
     let p := s.part
     let l := p.line n
     p.jnc.engine = .running → p.jnc.closing = none → l.timer ≠ none → l.zone = some z →
     (l.high != l.openLow) = false → (p.door z).isOpen = true →
     (∀ m, m ≠ n → (p.line m).zone = some z → (p.line m).filteredOpen = false) →
     ∃ q, exec (.doorFilterExpiry n reach) s = .next (s.withPart q) ∧ p.sameOutside q ∧
       q.line n = { l with filteredOpen := false, timer := none } ∧ (∀ m, m ≠ n → q.line m = p.line m) ∧
       q.door z = { isOpen := false, since := none, ajar := false } ∧ (∀ y, y ≠ z → q.door y = p.door y) ∧
       ((p.zone z).config.kind ≠ .unused →
         (q.zone z).doorOpen = false ∧ ((p.door z).ajar = true → (q.zone z).ajar = false)) ∧
       (∀ y, (q.zone y).config = (p.zone y).config) ∧ q.prc = p.prc)

/-- R93, R137: at the open limit of an open line the door record and its zone take DOOR_AJAR, the zone is posted, and the
gain goes to the alert logic, which holds ALERT for the group that writes the board while intake is ON, and sets it at once
otherwise and keeps nothing of it then (the model's choice, log 93). A closed or already ajar door is left alone (the
model's choice, log 1).
R99: at the end of a step period a lamp takes the next step of the pattern it shows, the first after the last, and
the period starts again; a lamp that shows no pattern, or whose timer does not run, is left alone (log 1). -/
def Obligations.OpenLimitAndLampSteps : Prop :=
  (∀ (s : State) (z : Fin 64) (n : Fin 16) (t : Nat), s.part.tbu.mainPower = true →
     let p := s.part
     (p.jnc.engine = .running → (p.door z).isOpen = true → (p.door z).ajar = false → (p.door z).since = some t →
       (p.line n).zone = some z → (p.line n).filteredOpen = true → 0 < (p.line n).openLimit →
       (p.line n).openLimit ≤ p.now - t → (p.zone z).config.kind ≠ .unused → (p.zone z).ajar = false →
       ∃ q, exec (.doorAjarLimit z) s = .next (s.withPart q) ∧
         q = { p with dou := { p.dou with doors := p.dou.doors.set z { p.door z with ajar := true } }
                      znu := { p.znu with zones := p.znu.zones.set z { p.zone z with ajar := true } }
                      exi := { p.exi with zoneMarks := q.exi.zoneMarks, rise := q.exi.rise, cause := q.exi.cause
                                          messages := q.exi.messages } } ∧
         (∀ y, y ∈ q.exi.zoneMarks ↔ y = z ∨ y ∈ p.exi.zoneMarks) ∧
         (p.exi.intake = .on →
           q.exi.rise = true ∧ q.exi.cause = p.exi.cause ∧ q.exi.messages = p.exi.messages) ∧
         (p.exi.intake ≠ .on → q.exi.rise = p.exi.rise ∧ q.exi.cause.getLsbD 1 = true)) ∧
     ((p.door z).isOpen = false ∨ (p.door z).ajar = true → exec (.doorAjarLimit z) s = .next s)) ∧
  (∀ (s : State) (n : Fin 8), s.part.tbu.mainPower = true →
     let p := s.part
     let l := p.lamp n
     (∀ q, l.shown = some q → l.timer ≠ none →
       exec (.lampStepExpiry n) s = .next (s.withPart { p with dou := { p.dou with lamps := p.dou.lamps.set n { l with
         position := if l.position + 1 < (match q with
             | .calm => p.dou.calm.length
             | .warn => p.dou.warn.length
             | .hold => p.dou.hold.length) then l.position + 1 else 0
         timer := some p.dou.stepPeriod } } })) ∧
     (l.shown = none ∨ l.timer = none → exec (.lampStepExpiry n) s = .next s))

/-! ## The board -/

/-- R153, R92: a group raises the generation by two, writes the entry of every mark and the header for its mark, clears
the marks it took, the pending-open of the lines of the zones it wrote, and changes no other byte of host memory. ALERT
follows a rise the group carried. A zone made UNUSED under a bound line is written with flags 0, and the line's pending-open
is cleared all the same (the model's choice, log 97). -/
def Obligations.BoardGroupWritesEveryMark : Prop :=
  ∀ s : State, s.part.tbu.mainPower = true → s.part.exi.intake = .on → s.part.exi.marked = true →
    let p := s.part
    ∃ q, exec .boardGroupWrite s = .next (s.withPart q) ∧
      q = { p with host := q.host, dou := { p.dou with lines := q.dou.lines }
                   exi := { p.exi with generation := p.exi.generation + 2, headerMark := false, zoneMarks := []
                                       slotMarks := [], rise := false, cause := q.exi.cause
                                       messages := q.exi.messages } } ∧
      (∀ n, q.line n = { p.line n with pendingOpen := (p.line n).pendingOpen && !(match (p.line n).zone with
        | some z => p.exi.zoneMarks.contains z
        | none => false) }) ∧
      (p.exi.rise = true → q.exi.cause = (p.raise .alert).exi.cause ∧ q.exi.messages = (p.raise .alert).exi.messages) ∧
      (p.exi.rise = false → q.exi.cause = p.exi.cause ∧ q.exi.messages = p.exi.messages) ∧
      (∀ x, p.outsideGroup .on x → q.host.read hostBlank x = p.host.read hostBlank x) ∧
      (p.exbase.toNat + 65536 ≤ 2 ^ 64 →
        q.hostRead (p.areaAddr 0) 4 = leBytes 4 (p.exi.generation + 2).toNat ∧
        (∀ z ∈ p.exi.zoneMarks, q.hostRead (p.areaAddr (256 + 16 * z.val)) 16 = p.zoneSummary z) ∧
        (∀ i ∈ p.exi.slotMarks, q.hostRead (p.areaAddr (4096 + 16 * i.val)) 16 =
          (containerSummary p.classDef (p.slot i)).bytes) ∧
        (p.exi.headerMark = true → q.hostRead (p.areaAddr 8) 248 = p.headerBytes .on))

/-- R143, R153: with no docket in hand a pending turn-off writes one last group, with the header and every marked entry,
whose header shows OFF, and intake is OFF; with a docket in hand it waits. No other byte of host memory changes. As with
every group, the pending-open of the lines of the zones written is cleared (R92), of an UNUSED zone too (the model's choice,
log 97), and ALERT follows a rise carried. An engine time write that waits is dropped (the model's choice, log 76), as is a
sweep asked for in RESTORING (log 99). The engine
time is written by itself, outside the generation. With no turn-off pending, or no engine time waiting, the commands
change nothing (the model's choice, log 1). -/
def Obligations.TurnOffAndEngineTimeWrites : Prop :=
  ∀ s : State, s.part.tbu.mainPower = true → s.part.exi.intake = .on →
    let p := s.part
    (p.exi.turnOff = true → p.exi.inHand = none →
      ∃ q, exec .intakeOffComplete s = .next (s.withPart q) ∧
        q = { p with host := q.host, dou := { p.dou with lines := q.dou.lines }
                     exi := { p.exi with generation := p.exi.generation + 2, headerMark := false, zoneMarks := []
                                         slotMarks := [], rise := false, cause := q.exi.cause
                                         messages := q.exi.messages, intake := .off, turnOff := false
                                         faultAfter := false, sweeping := false, extraPass := false
                                         sweepTimer := none, timeWrite := none } } ∧
        (∀ n, q.line n = { p.line n with pendingOpen := (p.line n).pendingOpen && !(match (p.line n).zone with
          | some z => p.exi.zoneMarks.contains z
          | none => false) }) ∧
        (p.exi.rise = true → q.exi.cause = (p.raise .alert).exi.cause ∧
          q.exi.messages = (p.raise .alert).exi.messages) ∧
        (p.exi.rise = false → q.exi.cause = p.exi.cause ∧ q.exi.messages = p.exi.messages) ∧
        (∀ x, Part.outsideGroup { p with exi := { p.exi with headerMark := true } } .off x →
          q.host.read hostBlank x = p.host.read hostBlank x) ∧
        (p.exbase.toNat + 65536 ≤ 2 ^ 64 →
          q.hostRead (p.areaAddr 10) 1 = [0] ∧ q.hostRead (p.areaAddr 8) 248 = p.headerBytes .off ∧
          q.hostRead (p.areaAddr 0) 4 = leBytes 4 (p.exi.generation + 2).toNat ∧
          (∀ z ∈ p.exi.zoneMarks, q.hostRead (p.areaAddr (256 + 16 * z.val)) 16 = p.zoneSummary z) ∧
          (∀ i ∈ p.exi.slotMarks, q.hostRead (p.areaAddr (4096 + 16 * i.val)) 16 =
            (containerSummary p.classDef (p.slot i)).bytes))) ∧
    (p.exi.turnOff = false ∨ p.exi.inHand ≠ none → exec .intakeOffComplete s = .next s) ∧
    (∀ t, p.exi.timeWrite = some t →
      exec .engineTimeWrite s = .next (s.withPart { p with
        host := p.host.write hostBlank (p.areaAddr 4).toNat (leBytes 4 t)
        exi := { p.exi with timeWrite := none } })) ∧
    (p.exi.timeWrite = none → exec .engineTimeWrite s = .next s)

/-! ## Restore and entry to RUNNING -/

/-- R158, R169, R170: restore reads the identification first. Without one the journal is FAILED; then, and without a FORMAT
entry, the engine goes from RESTORING to BLANK, the header is posted, ENGINE is set, and every table stands as it was.
R170, R95, R127, R44, R169: with a FORMAT entry, restore replays the journal: no container is BAKING after it, every
door line awaits its sample, flash and host memory stand, the whole board is marked, and the engine waits in AWAIT_TIME
when the time is not valid. With the time valid every live container is settled to now (R171), also where now lies below
T_last (the model's choice, log 102).
R162, R170: in AWAIT_TIME the tables are those that the committed entries found leave, applied in order. An entry whose
sequence number is not above the last applied is passed over; another is applied: R44 a container image to its slot, OPEN
for BAKING and EXPIRED at its limit (log 33), another slot that held the ID being freed, and a retire entry to the slot that
holds its ID; R71 a zone image or a ZONE_CONDITION to its zone, whose containers are settled to the time of the change; R3, R6,
R75, R86, R95, R96, R98 a class and a setting to its own record; the derating table once its three parts have been met.
T_last is the greatest time of the entries applied and the FORMAT entry; SECTOR_HEADs do not count (the model's choice, log
96). The replay begins with each class as its newest image has it (the model's choice, log 32), which shows in the mode, the
limit and the custody of a container whose image precedes that of its class. Of several sectors with the greatest first
sequence number the lowest is the head (the model's choice, log 100). Without an identification the docket in hand is left as
every failure of the journal leaves it (R149). -/
def Obligations.RestoreReplaysOrIsBlank : Prop :=
  (∀ (s : State) (id : Byte) (stores : Stores), s.part.tbu.mainPower = true →
     let h := s.part.hostStores stores
     let p : Part := { h with flash := { h.flash with idByte := id } }
     p.jnc.engine = .restoring → p.jnc.restore = none → p.jnc.closing = none → p.jnc.format = none →
     p.exi.extraPass = false →
     let blank (j : Jnc) (hand : Option InHand) (q : Part) : Part := { p with
       jnc := { j with engine := .blank }
       exi := { p.exi with inHand := hand, headerMark := true, cause := q.exi.cause, messages := q.exi.messages } }
     (id = 0x00#8 ∨ id = 0xFF#8 →
       ∃ q, exec (.restore ⟨id, stores⟩) s = .next (s.withPart q) ∧ q.exi.cause.getLsbD 2 = true ∧
         p.handAfterFailure q ∧
         q = blank { p.jnc with journal := .failed, queue := [], waiting := [], compaction := .idle
                                port := .reset } q.exi.inHand q) ∧
     (id ≠ 0x00#8 → id ≠ 0xFF#8 → p.flash.formatEntry = none →
       ∃ q, exec (.restore ⟨id, stores⟩) s = .next (s.withPart q) ∧ q.exi.cause.getLsbD 2 = true ∧
         q = blank p.jnc p.exi.inHand q)) ∧
  (∀ (s : State) (id : Byte) (stores : Stores) (f : Nat × Nat), s.part.tbu.mainPower = true →
     let h := s.part.hostStores stores
     let p : Part := { h with flash := { h.flash with idByte := id } }
     p.jnc.engine = .restoring → p.jnc.restore = none → p.jnc.closing = none → p.jnc.format = none →
     p.exi.extraPass = false → id ≠ 0x00#8 → id ≠ 0xFF#8 → p.flash.formatEntry = some f →
     (∀ i, p.slot i = none) →
     ∃ q, exec (.restore ⟨id, stores⟩) s = .next (s.withPart q) ∧ p.sameOutside q ∧
       (∀ i c, q.slot i = some c → c.custody ≠ .baking) ∧
       (∀ n, (q.line n).sample = some (q.line n).filterTime ∧ (q.line n).timer = none) ∧
       q.exi.headerMark = true ∧ q.exi.zoneMarks = List.finRange 64 ∧ q.exi.slotMarks = List.finRange 2048 ∧
       (p.tbu.timeValid = false → q.jnc.engine = .awaitTime ∧ q.exi.cause.getLsbD 2 = true ∧
         let found := p.findJournal f.1
         let r := found.2.foldl Replay.step {
           part := found.1.seedClasses found.2, last := 0, tLast := f.2, openDrop := none, dropAt := none
           imagedAfter := [], lower := none, upper := none }
         let plain (c : Container) : Container := { c with mode := .hold, bakeRunStart := none }
         (∀ i, (q.slot i).map plain = (r.part.slot i).map plain) ∧ q.znu.settings = r.part.znu.settings ∧
         q.znu.cells = r.part.znu.cells ∧ q.znu.tempEdges = r.part.znu.tempEdges ∧ q.znu.rhEdges = r.part.znu.rhEdges ∧
         (∀ n, (q.cls n).defn = (r.part.cls n).defn) ∧ (∀ n, (q.probe n).config = (r.part.probe n).config) ∧
         (∀ z, (q.zone z).config = (r.part.zone z).config ∧ (q.zone z).condition = (r.part.zone z).condition ∧
           (q.zone z).conditionTime = (r.part.zone z).conditionTime ∧ (q.zone z).held = (r.part.zone z).held) ∧
         (∀ n, (q.line n).zone = (r.part.line n).zone) ∧
         (∀ n, (q.lineHold n).override = (r.part.lineHold n).override) ∧
         ∃ e, q.jnc.restore = some e ∧ e.tLast = r.tLast ∧ e.openDrop = r.openDrop ∧ e.reconciled = false) ∧
       (p.tbu.timeValid = true → q.jnc.engine = .restoring ∧ ∀ i c, q.slot i = some c → c.settled = p.now)) ∧
  (∀ (r : Replay) (sector : Nat) (read : EntryRead),
     let p := r.part
     let applied (pl : Payload) : Replay := r.step (sector, pl, read)
     let q (pl : Payload) : Part := (applied pl).part
     (∀ pl, read.seq ≤ r.last → applied pl = r) ∧
     (r.last < read.seq →
       (∀ pl, (applied pl).last = read.seq ∧ (applied pl).tLast = max r.tLast read.time) ∧
       (∀ t, (applied (.dropMark t)).openDrop = some t ∧ (applied (.dropMark t)).imagedAfter = []) ∧
       (applied .resyncEnd).openDrop = none ∧
       (∀ i : ContainerImage, p.idsUnique → ∃ c, (q (.containerImage i)).slot i.slot = some c ∧ c.id = i.id ∧
         c.cls = i.cls ∧ c.zone = i.zone ∧ c.exposure = i.exposure ∧ c.settled = i.settled ∧ c.zoneEntry = i.zoneEntry ∧
         c.warned = i.warned ∧ c.bakeCount = i.bakeCount ∧ c.bakedThisStay = i.bakedThisStay ∧ c.parent = i.parent ∧
         c.quarantineCause = i.quarantineCause ∧ c.enrolled = i.enrolled ∧
         c.lastMove = i.lastMoveZone.map (fun z => (z, i.zoneEntry)) ∧
         (let base := if i.custody = .baking then Custody.opened else i.custody
          c.custody = if (base = .opened ∨ base = .sealed) ∧ (p.classDef i.cls).limit ≤ i.exposure then .expired
                      else base) ∧
         i.slot ∈ (applied (.containerImage i)).imagedAfter ∧
         ∀ j, j ≠ i.slot → (i.id ≠ 0 ∧ p.holdsId j i.id → (q (.containerImage i)).slot j = none) ∧
           (i.id = 0 ∨ ¬p.holdsId j i.id → (q (.containerImage i)).slot j = p.slot j)) ∧
       (∀ i id, (p.holdsId i id → (q (.retireEntry i id)).slot i = none) ∧
         (¬p.holdsId i id → (q (.retireEntry i id)).slot i = p.slot i) ∧
         ∀ j, j ≠ i → (q (.retireEntry i id)).slot j = p.slot j) ∧
       (∀ z (i : ZoneImage), let y := (q (.zoneImage z i)).zone z
         y.config = i.config ∧ y.condition = i.condition ∧ y.conditionTime = i.conditionTime.getD 0 ∧ y.held = i.held ∧
           y.bands = i.bands ∧ y.walked = i.walked ∧ y.doorOpen = i.doorOpen) ∧
       (∀ z (i : ZoneConditionImage), let y := (q (.zoneCondition z i)).zone z
         y.config = (p.zone z).config ∧ y.condition = i.condition ∧ y.conditionTime = i.time ∧ y.held = i.held ∧
         ∀ j c, p.slot j = some c →
           (c.zone ≠ z → (q (.zoneCondition z i)).slot j = some c) ∧
           (c.zone = z → ∃ c', (q (.zoneCondition z i)).slot j = some c' ∧ c'.id = c.id ∧
             c'.settled = max c.settled i.time ∧
             c'.exposure = (settleRecord (p.classDef c.cls) i.time c).1.exposure ∧
             ∀ m, c'.custody = .opened → i.condition = some (.exposing m) → c'.mode = .accrue m)) ∧
       (∀ n i, ((q (.classImage n i)).cls n).defn = i.map ClassImage.define) ∧
       (∀ v, (q (.engineImage v)).znu.settings = v) ∧
       (∀ n c, ((q (.probeImage n c)).probe n).config = c) ∧
       (∀ (v : GroupsImage) (g : Fin 4), let o := (q (.groupsImage v)).group g
         o.cycled = v.modes[g] ∧ o.lead = v.leads[g]) ∧
       (∀ v : GroupsImage, (q (.groupsImage v)).prc.busA.fast = v.fastA ∧ (q (.groupsImage v)).prc.busB.fast = v.fastB) ∧
       (∀ n v, (q (.doorImage n v)).line n = { p.line n with
         zone := v.zone, openLow := v.openLow, filterTime := v.filterTime, openLimit := v.openLimit }) ∧
       (∀ v : OutputsImage, let o := (q (.outputsImage v))
         (∀ n : Fin 8, (o.lineHold n).override = v.overrides[n] ∧ (o.lamp n).zone = v.lampZones[n]) ∧
         o.dou.calm = v.calm ∧ o.dou.warn = v.warn ∧ o.dou.hold = v.hold ∧ o.dou.stepPeriod = v.stepPeriod) ∧
       (∀ (lower upper : Vector Cell 24) temp rh (second third : EntryRead), read.seq < second.seq →
         second.seq < third.seq →
         let first := applied (.cellsImage false lower)
         let both := first.step (sector, .cellsImage true upper, second)
         let whole := (both.step (sector, .edgesImage temp rh, third)).part.znu
         both.part.znu = p.znu ∧ whole.cells = lower ++ upper ∧ whole.tempEdges = temp ∧ whole.rhEdges = rh)))

/-- R169, R45, R171, R75, R86, R87, R95: with every sample taken, reconciliation made, its DROP_MARK committed and, with
intake ON, the board written (no mark stands, log 59), the engine enters RUNNING; every configured probe starts over with
its timer, every STEADY group is on, and every zone's door record is computed from its lines. While a mark stands with
intake ON, or the DROP_MARK is not committed, it does not.
R146: a sweep asked for in RESTORING begins then, and takes a POSTED docket at the cursor; the flag that asked for it is then
clear (the model's reading, log 35). Time-valid is not asked for once more (the model's choice, log 95), and with the journal
FAILED no DROP_MARK is waited for (the model's choice, log 105). -/
def Obligations.EnterRunningStartsProbesAndDoors : Prop :=
  (∀ (s : State) (stores : Stores) (r : RestoreRecord), s.part.tbu.mainPower = true →
    let p := s.part.hostStores stores
    (p.jnc.engine = .restoring ∨ p.jnc.engine = .awaitTime) → (∀ n, (p.line n).sample = none) →
    p.jnc.restore = some r → r.reconciled = true → p.jnc.closing = none → p.exi.extraPass = false →
    let committed : Prop := (p.jnc.journal = .resync → p.jnc.dropTime = none) ∧
      ∀ e ∈ p.jnc.queue, ∀ t, e.payload ≠ .dropMark t
    let written : Prop := p.exi.intake = .on → p.exi.marked = false
    (¬(committed ∧ written) → exec (.enterRunning stores) s = .next (s.withPart p)) ∧
    (committed → written → ∃ q, exec (.enterRunning stores) s = .next (s.withPart q) ∧ p.sameOutside q ∧
      q.jnc.engine = .running ∧ q.exi.cause.getLsbD 2 = true ∧
      (∀ n c, (p.probe n).config = some c → q.probe n = { p.probe n with
        state := .doubtful, held := none, lastCount := none, failures := 0, readingTime := none
        staleTime := p.now + 3 * c.interval, pollTimer := c.interval * 1000, lastFailure := none, late := 0
        staleReported := false }) ∧
      (∀ g, (p.group g).cycled = false → (q.group g).on = true) ∧
      (∀ z, (q.door z).isOpen = p.anyLineOpen z ∧ (q.door z).ajar = false ∧
        (q.door z).since = if p.anyLineOpen z then some p.now else none) ∧
      (∀ n, q.line n = p.line n) ∧ (∀ z, (q.zone z).config = (p.zone z).config))) ∧
  (∀ (s : State) (stores : Stores), s.part.tbu.mainPower = true →
     let p := s.part.hostStores stores
     let bs := p.hostRead (p.slotAddr p.exi.cursor) 64
     p.jnc.engine = .restoring → p.mayRun = true → p.jnc.closing = none → p.tbu.powerFail = false →
     p.exi.intake = .on → p.exi.turnOff = false → p.exi.inHand = none → p.exi.sweeping = false →
     p.exi.extraPass = true → fieldAt bs 0 1 = 1 →
     ∃ q, exec (.enterRunning stores) s = .next (s.withPart q) ∧ q.jnc.engine = .running ∧
       q.exi.sweeping = true ∧ q.exi.extraPass = false ∧
       q.host = p.host.write hostBlank (p.slotAddr p.exi.cursor).toNat [2] ∧
       q.exi.inHand = some { slot := p.exi.cursor, notify := requestNotify bs, request := decodeRequest bs
                             stage := judge (decodeRequest bs) .running, givenUp := false, triggers := []
                             awaitRunning := false, durable := false })

/-! ## Dockets of the container table -/

/-- R27: the checks of an ENROLL, in order; a failed check gives its result code and changes nothing else; the initial
exposure is not checked but clamped to the allowance.
R28, R39, R2: an ENROLL that passes its checks makes the lowest FREE slot LIVE with the docket's ID, class and zone,
its exposure in ticks, its times at now, and OPEN, SEALED or EXPIRED by its zone, the docket and its limit; adds it to
the tail of its zone's members and to its class's use count; journals its image; and answers with the slot. No other
slot changes. A refused docket answers both counts and the value 0 (the model's choice, log 64). -/
def Obligations.EnrollChecksThenMakesContainer : Prop :=
  (∀ (s : State) (d : InHand) (a : EnrollArgs), s.part.tbu.mainPower = true → s.part.hands d (.enroll a) →
     let p := s.part
     let refused (r : ResultCode) : Prop := exec .enroll s = .next (s.withPart (p.refusedWith d r))
     (a.id = 0 ∨ 1 < a.custody → refused .badArg) ∧
     (a.id ≠ 0 → a.custody ≤ 1 → (∀ n : Fin 16, n.val = a.cls → (p.cls n).defn = none) → refused .badClass) ∧
     (∀ (n : Fin 16) (k : ClassDef), a.id ≠ 0 → a.custody ≤ 1 → n.val = a.cls → (p.cls n).defn = some k →
       ((∀ z : Fin 64, z.val = a.zone → (p.zone z).config.kind = .unused) → refused .badZone) ∧
       (∀ z : Fin 64, z.val = a.zone → (p.zone z).config.kind ≠ .unused →
         ((∃ i, p.holdsId i a.id) → refused .duplicateId) ∧
         ((∀ i, ∃ c, p.slot i = some c ∧ c.id ≠ a.id) → refused .tableFull)))) ∧
  (∀ (s : State) (d : InHand) (a : EnrollArgs) (n : Fin 16) (k : ClassDef) (z : Fin 64) (i : Fin 2048),
     s.part.tbu.mainPower = true → s.part.hands d (.enroll a) →
     let p := s.part
     let e := min a.minutes k.allowance * Config.ticksPerMinute
     a.id ≠ 0 → a.custody ≤ 1 → n.val = a.cls → (p.cls n).defn = some k → z.val = a.zone →
     (p.zone z).config.kind ≠ .unused → (∀ j, ¬p.holdsId j a.id) → p.slot i = none →
     (∀ j, j < i → p.slot j ≠ none) → p.jnc.closing = none →
     ∃ q c, exec .enroll s = .next (s.withPart q) ∧ q.slot i = some c ∧ p.sameOtherSlots i q ∧ p.sameOutside q ∧
       c.id = a.id ∧ c.cls = n ∧ c.zone = z ∧ c.exposure = e ∧ c.settled = p.now ∧ c.zoneEntry = p.now ∧
       c.enrolled = p.now ∧ c.lastMove = none ∧ c.bakeCount = 0 ∧ c.parent = none ∧ c.quarantineCause = none ∧
       c.custody = (if k.limit ≤ e then .expired
         else if (p.zone z).config.kind = .line ∨ a.custody = 1 then .opened else .sealed) ∧
       (q.zone z).members = (p.zone z).members ++ [i] ∧ (∀ y, y ≠ z → q.zone y = p.zone y) ∧
       q.cls n = { p.cls n with useCount := (p.cls n).useCount + 1 } ∧
       q.finishes d { result := .ok, first := if k.allowance < a.minutes then 1 else 0, second := 0, value := i.val } ∧
       (p.journalTakes → q.jnc.queue = p.jnc.queue ++ p.stagedNow [.containerImage (imageOf i c)]))

/-- R29: the checks of a SPLIT, in order; a failed check gives its result code and changes nothing else.
R30, R31, R12: a SPLIT settles its OPEN parent to now and makes the lowest FREE slots LIVE, in order, one for each child: OPEN,
or EXPIRED at the limit, in the parent's zone and class, with the parent's exposure, mode, warned, bake count and baked this
stay as its settle leaves them, no last movement and the parent's ID. The children join the tail of the zone's members and
the class's use count. The parent stays as settled, or retires when asked. The images of the children, and then the parent's
image or retire entry, are staged for the docket. A refused docket answers both counts and the value 0 (the model's
choice, log 64). -/
def Obligations.SplitMakesChildren : Prop :=
  ∀ (s : State) (d : InHand) (a : SplitArgs) (i : Fin 2048) (c : Container), s.part.tbu.mainPower = true →
    s.part.hands d (.split a) →
    let p := s.part
    let ids := a.children.take a.count
    let slots := p.freeSlots.take a.count
    let refused (r : ResultCode) : Prop := exec .split s = .next (s.withPart (p.refusedWith d r))
    let parent := (p.deriveRecord true (settleRecord (p.classDef c.cls) p.now c).1).1
    let limit := (p.classDef c.cls).limit
    let e := parent.exposure
    (a.count = 0 ∨ 4 < a.count ∨ 0 ∈ ids ∨ ¬ids.Nodup → refused .badArg) ∧
    (1 ≤ a.count → a.count ≤ 4 → 0 ∉ ids → ids.Nodup →
      (a.parent = 0 ∨ (∀ j, ¬p.holdsId j a.parent) → refused .unknownId) ∧
      (a.parent ≠ 0 → p.idsUnique → p.slot i = some c → c.id = a.parent → (p.zone c.zone).change = none →
        (c.custody ≠ .opened → refused .wrongState) ∧
        (c.custody = .opened → (∃ id ∈ ids, ∃ j, p.holdsId j id) → refused .duplicateId) ∧
        (c.custody = .opened → (∀ id ∈ ids, ∀ j, ¬p.holdsId j id) →
          (p.freeSlots.length < a.count → refused .tableFull) ∧
          (a.count ≤ p.freeSlots.length → a.children.length = 4 → p.jnc.closing = none →
            ∃ q, exec .split s = .next (s.withPart q) ∧ p.sameOutside q ∧
              (∀ x ∈ ids.zip slots, ∃ ch, q.slot x.2 = some ch ∧ ch.id = x.1 ∧ ch.parent = some a.parent ∧
                ch.exposure = e ∧ ch.cls = c.cls ∧ ch.zone = c.zone ∧ ch.settled = p.now ∧ ch.enrolled = p.now ∧
                ch.zoneEntry = p.now ∧ ch.lastMove = none ∧ ch.bakeProgress = none ∧ ch.bakeRunStart = none ∧
                ch.quarantineCause = none ∧ ch.dirty = false ∧ ch.bakeCount = parent.bakeCount ∧
                ch.bakedThisStay = parent.bakedThisStay ∧ ch.warned = parent.warned ∧
                ch.custody = (if limit ≤ e then .expired else .opened) ∧
                ch.mode = if limit ≤ e then .hold else parent.mode) ∧
              (a.retireParent = true → q.slot i = none) ∧
              (a.retireParent = false → ∃ c', q.slot i = some c' ∧ c' = { parent with dirty := c'.dirty }) ∧
              (∀ j, j ≠ i → j ∉ slots → q.slot j = p.slot j) ∧
              (q.zone c.zone).members = (if a.retireParent then (p.zone c.zone).members.filter (· != i)
                else (p.zone c.zone).members) ++ slots ∧
              (∀ y, y ≠ c.zone → q.zone y = p.zone y) ∧
              (q.cls c.cls).useCount = (p.cls c.cls).useCount + a.count - a.retireParent.toNat ∧
              (∀ n, n ≠ c.cls → q.cls n = p.cls n) ∧
              (p.journalTakes → q.jnc.queue = p.jnc.queue ++ p.stagedNow (
                (slots.filterMap fun j => (q.slot j).map fun ch => .containerImage (imageOf j ch)) ++
                (if a.retireParent then [.retireEntry i a.parent]
                 else ((q.slot i).map fun c' => .containerImage (imageOf i c')).toList))) ∧
              q.finishes d { result := .ok, first := a.count, second := a.retireParent.toNat
                             value := splitValue slots }))))

/-- R32, R24, R39: a RETIRE settles the container, frees its slot, takes it out of its zone's members and its class's use
count, and answers with its percent used and exposure. An ID that no container holds is UNKNOWN_ID.
R137, R46: a RETIRE sets no ALERT and hands no rise, whatever its settle finds; the blocking and warned counts lose what the
container contributed before it (log 84). A refused docket
answers both counts and the value 0 (the model's choice, log 64). -/
def Obligations.RetireFreesSlot : Prop :=
  ∀ (s : State) (d : InHand) (id : ContainerId), s.part.tbu.mainPower = true → s.part.hands d (.retire id) →
    let p := s.part
    ((id = 0 ∨ ∀ j, ¬p.holdsId j id) → exec .retire s = .next (s.withPart (p.refusedWith d .unknownId))) ∧
    (∀ i c, id ≠ 0 → p.idsUnique → p.slot i = some c → c.id = id → (p.zone c.zone).change = none →
      p.jnc.closing = none →
      let e := (settleRecord (p.classDef c.cls) p.now c).1.exposure
      ∃ q, exec .retire s = .next (s.withPart q) ∧ q.slot i = none ∧ p.sameOtherSlots i q ∧ p.sameOutside q ∧
        (∀ j, ¬q.holdsId j id) ∧ (q.zone c.zone).members = (p.zone c.zone).members.filter (· != i) ∧
        (∀ y, y ≠ c.zone → q.zone y = p.zone y) ∧
        q.cls c.cls = { p.cls c.cls with useCount := (p.cls c.cls).useCount - 1 } ∧
        (∀ u ∈ q.dlu.entries, u.slot ≠ i) ∧ q.exi.cause = p.exi.cause ∧ q.exi.rise = p.exi.rise ∧
        (q.zone c.zone).blocking = (p.zone c.zone).blocking - c.blocks.toNat ∧
        (q.zone c.zone).warnedCount = (p.zone c.zone).warnedCount - c.countsWarned.toNat ∧
        q.finishes d { result := .ok, first := percentUsed (p.classDef c.cls) e, second := 0, value := e } ∧
        (p.journalTakes → q.jnc.queue = p.jnc.queue ++ p.stagedNow [.retireEntry i id]))

/-- R33, R34, R39: a QUARANTINE settles the container to now and makes it QUARANTINED with cause HOST, ending any bake: it has
no due, accrues at its zone's m in an EXPOSING or DRY_FAILED zone, and holds elsewhere. Its warned field is the one that the
warn test of its settle gives before the custody changes: the model's reading of R15 and R46 (log 46).
R35, R36, R17: a RELEASE settles a QUARANTINED container and makes it EXPIRED at its limit, and otherwise what the docket
asks; OPEN it takes its mode with a fresh credit decision, and the warn test and clearing are made.
Each moves the header counts and its zone's counts, stages the container's image and answers with the exposure. An ID that
no container holds is UNKNOWN_ID, a resume code above 1 BAD_ARG, another custody WRONG_STATE; a refused docket answers both
counts and the value 0 (the model's choice, log 64). -/
def Obligations.QuarantineAndRelease : Prop :=
  ∀ (s : State) (d : InHand) (id : ContainerId), s.part.tbu.mainPower = true →
    let p := s.part
    ((id = 0 ∨ ∀ j, ¬p.holdsId j id) →
      (p.hands d (.quarantine id) → exec .quarantine s = .next (s.withPart (p.refusedWith d .unknownId))) ∧
      (∀ resume, resume ≤ 1 → p.hands d (.release { id := id, resume := resume }) →
        exec .release s = .next (s.withPart (p.refusedWith d .unknownId)))) ∧
    (∀ resume, 1 < resume → p.hands d (.release { id := id, resume := resume }) →
      exec .release s = .next (s.withPart (p.refusedWith d .badArg))) ∧
    ∀ (i : Fin 2048) (c : Container), id ≠ 0 → p.idsUnique → p.slot i = some c → c.id = id →
    (p.zone c.zone).change = none → p.jnc.closing = none →
    let k := p.classDef c.cls
    let c1 := (settleRecord k p.now c).1
    let e := c1.exposure
    let condition := (p.zone c.zone).condition
    let rates (m : Nat) : Prop := condition = some (.exposing m) ∨ condition = some (.dryFailed m)
    let changed (q : Part) (c' : Container) : Prop :=
      q.slot i = some c' ∧ p.sameOtherSlots i q ∧ p.sameOutside q ∧ c'.id = id ∧ c'.cls = c.cls ∧ c'.zone = c.zone ∧
      c'.exposure = e ∧ c'.settled = max c.settled p.now ∧ c'.bakeCount = c1.bakeCount ∧
      (c.blocks = c'.blocks ∧ c.countsWarned = c'.countsWarned → q.zone c.zone = p.zone c.zone) ∧
      (c.blocks ≠ c'.blocks ∨ c.countsWarned ≠ c'.countsWarned →
        (q.zone c.zone).blocking = (p.zone c.zone).blocking - c.blocks.toNat + c'.blocks.toNat ∧
        (q.zone c.zone).warnedCount = (p.zone c.zone).warnedCount - c.countsWarned.toNat + c'.countsWarned.toNat) ∧
      (∀ z, z ≠ c.zone → q.zone z = p.zone z) ∧
      (p.journalTakes → q.jnc.queue = p.jnc.queue ++ p.stagedNow [.containerImage (imageOf i c')])
    (p.hands d (.quarantine id) →
      (c.custody = .quarantined → exec .quarantine s = .next (s.withPart (p.refusedWith d .wrongState))) ∧
      (c.custody ≠ .quarantined → ∃ q c', exec .quarantine s = .next (s.withPart q) ∧ changed q c' ∧
        c'.custody = .quarantined ∧ c'.quarantineCause = some .host ∧ c'.bakeProgress = none ∧ c'.bakeRunStart = none ∧
        (∀ m, rates m → c'.mode = .accrue m) ∧ ((∀ m, ¬rates m) → c'.mode = .hold) ∧
        c'.warnDue = none ∧ c'.expireDue = none ∧ c'.warned = (warnRecord k c1).1.warned ∧
        q.dlu.quarantinedCount = p.dlu.quarantinedCount + 1 ∧
        q.dlu.expiredCount = p.dlu.expiredCount - (c.level == .expired).toNat ∧
        q.dlu.warnCount = p.dlu.warnCount - (c.level == .warn).toNat ∧ q.exi.headerMark = true ∧
        (p.exi.intake = .on → q.exi.rise = true) ∧
        q.finishes d { result := .ok, first := 0, second := 0, value := e })) ∧
    (∀ resume, resume ≤ 1 → p.hands d (.release { id := id, resume := resume }) →
      (c.custody ≠ .quarantined → exec .release s = .next (s.withPart (p.refusedWith d .wrongState))) ∧
      (c.custody = .quarantined →
        let custody := if k.limit ≤ e then Custody.expired else if resume = 1 then .opened else .sealed
        ∃ q c', exec .release s = .next (s.withPart q) ∧ changed q c' ∧ c'.custody = custody ∧
          c'.quarantineCause = none ∧
          (custody = .opened →
            (∀ m, rates m → c'.mode = .accrue m) ∧
            (∀ x, condition = some (.drying x) →
              c'.mode = if 0 < k.ceiling ∧ e ≤ k.creditLimit then .credit x else .hold) ∧
            ((∀ m, ¬rates m) → (∀ x, condition ≠ some (.drying x)) → c'.mode = .hold)) ∧
          (custody ≠ .opened → c'.mode = .hold) ∧
          c'.warned = (if custody = .opened ∧ c.warned = false ∧ 0 < k.warnTicks ∧ k.limit - e ≤ k.warnTicks then true
            else if c.warned = true ∧ k.warnTicks < k.limit - e then false else c.warned) ∧
          q.dlu.quarantinedCount = p.dlu.quarantinedCount - 1 ∧
          q.dlu.expiredCount = p.dlu.expiredCount + (custody == .expired).toNat ∧
          q.dlu.warnCount = p.dlu.warnCount + (c'.level == .warn).toNat ∧ q.exi.headerMark = true ∧
          q.finishes d { result := .ok, first := custody.code, second := 0, value := e }))

/-- R37, R38, R148: a QUERY in AWAIT_TIME reports the record as replay left it and changes no table. In RUNNING it settles
the container to now, carries the settle through (mode, warn test and clearing, dues) and reports the settled record; its
image is staged exactly when the settle or the warn test has changed its custody, its bake count or its warned. No other
slot changes, and no other byte of host memory. A bad reply address is BAD_ARG, and then an ID that no container holds
UNKNOWN_ID; a refused docket answers both counts and the value 0 (the model's choice, log 64). -/
def Obligations.QueryReportsSettledRecord : Prop :=
  ∀ (s : State) (d : InHand) (a : QueryArgs), s.part.tbu.mainPower = true → s.part.hands d (.query a) →
    let p := s.part
    (a.reply = 0 ∨ a.reply.toNat % 64 ≠ 0 → exec .query s = .next (s.withPart (p.refusedWith d .badArg))) ∧
    (a.reply ≠ 0 → a.reply.toNat % 64 = 0 → a.id = 0 ∨ (∀ j, ¬p.holdsId j a.id) →
      exec .query s = .next (s.withPart (p.refusedWith d .unknownId))) ∧
    (∀ (i : Fin 2048) (c : Container), a.reply ≠ 0 → a.reply.toNat % 64 = 0 → a.id ≠ 0 → p.idsUnique →
      p.slot i = some c → c.id = a.id →
      let k := p.classDef c.cls
      let answer (x : Nat) : Answer := { result := .ok, first := percentUsed k x, second := 0, value := x }
      (p.jnc.engine ≠ .running → exec .query s = .next (s.withPart { p with
        host := p.host.write hostBlank a.reply.toNat (containerReport k i c)
        exi := { p.exi with inHand := some { d with stage := .finished (answer c.exposure) } } })) ∧
      (p.jnc.engine = .running → (p.zone c.zone).change = none → p.jnc.closing = none →
        let c1 := (settleRecord k p.now c).1
        ∃ q c', exec .query s = .next (s.withPart q) ∧ q.slot i = some c' ∧ p.sameOtherSlots i q ∧
          c' = { (p.deriveRecord true c1).1 with dirty := c'.dirty } ∧
          c'.id = c.id ∧ c'.exposure = c1.exposure ∧ c'.custody = c1.custody ∧ c'.bakeCount = c1.bakeCount ∧
          c'.settled = max c.settled p.now ∧
          (∀ m, c'.custody = .opened → (p.zone c.zone).condition = some (.exposing m) → c'.mode = .accrue m) ∧
          c'.warned = (warnRecord k c1).1.warned ∧ q.flash = p.flash ∧ q.tbu = p.tbu ∧
          q.host = p.host.write hostBlank a.reply.toNat (containerReport k i c') ∧
          (p.journalTakes →
            let same := c'.custody = c.custody ∧ c'.bakeCount = c.bakeCount ∧ c'.warned = c.warned
            (same → q.jnc.queue = p.jnc.queue) ∧
            (¬same → q.jnc.queue = p.jnc.queue ++ p.stagedNow [.containerImage (imageOf i c')])) ∧
          q.finishes d (answer c'.exposure)))

/-! ## Movements -/

/-- R102: a MOVE_LIST with a good address and 1 to 256 entries starts its list record; otherwise it is BAD_ARG.
R104, R114 to R116: a last entry that names no container gets its outcome and ends the list: the docket is done,
PARTIAL unless every entry was applied, with the counts of the entries applied, clamped and handled; the images of the
touched list are staged in its order. A last entry that applies is in MoveEntryMovesItsContainer. -/
def Obligations.MoveListStartsAndFinishes : Prop :=
  (∀ (s : State) (d : InHand) (a : MoveListArgs), s.part.tbu.mainPower = true → s.part.hands d (.moveList a) →
     let good := a.addr ≠ 0 ∧ a.addr.toNat % 16 = 0 ∧ 1 ≤ a.count ∧ a.count ≤ 256
     (good → exec .moveList s = .next (s.withPart { s.part with
       ctu := { s.part.ctu with list := some { addr := a.addr, count := a.count, next := 0, handled := 0, applied := 0
                                               clamped := 0, touched := [] } }
       exi := { s.part.exi with inHand := some { d with stage := .working } } })) ∧
     (¬good → exec .moveList s = .next (s.withPart (s.part.refusedWith d .badArg)))) ∧
  (∀ (s : State) (stores : Stores) (l : ListRecord) (d : InHand), s.part.tbu.mainPower = true →
     let p := s.part.hostStores stores
     let e := decodeMoveEntry (p.hostRead (l.entryAddr l.next) 16)
     p.ctu.list = some l → p.exi.inHand = some d → d.stage = .working → l.next + 1 = l.count →
     p.tbu.powerFail = false → p.jnc.closing = none → e.id = 0 ∨ (∀ j, ¬p.holdsId j e.id) →
     ∃ q, exec (.moveEntry stores) s = .next (s.withPart q) ∧
       q.finishes d { result := if l.applied < l.count then .partialDone else .ok, first := l.applied
                      second := l.clamped, value := l.handled + 1 } ∧
       q.host = p.host.write hostBlank (l.outcomeAddr l.next).toNat [3] ∧ q.tbu = p.tbu ∧ q.flash = p.flash ∧
       q.znu = p.znu ∧ (p.jnc.journal = .ok → q.ctu.slots = p.ctu.slots) ∧ q.prc = p.prc ∧ q.dou = p.dou ∧
       q.dlu = p.dlu ∧
       (p.journalTakes → l.touched.length ≤ 5 → q.jnc.queue = p.jnc.queue ++ p.stagedNow
         (l.touched.filterMap fun i => (p.slot i).map fun c => .containerImage (imageOf i c))))

/-- R105: the applied time starts from now when the entry's time is 0 and from that time otherwise; the future clamp lowers
it to now, and the backdate, settle, old zone and new zone clamps raise it, in this order. It lies at or above the settle
time and both condition times and, these having passed, at or below now. A clamp that leaves the time as it was is no
change; a backdate limit of 0 applies every movement at now, and clamps every entry whose time is neither 0 nor now. -/
def Obligations.AppliedTimeIsClamped : Prop :=
  ∀ T now backdate settled oldZone newZone : Nat,
    let t := appliedTime T now backdate settled oldZone newZone
    let first := if T = 0 then now else T
    let future := if now < first then now else first
    let bound := if now < backdate then 0 else now - backdate
    let backdated := if future < bound then bound else future
    let fromSettle := if backdated < settled then settled else backdated
    let fromOld := if fromSettle < oldZone then oldZone else fromSettle
    t = (if fromOld < newZone then newZone else fromOld) ∧
      settled ≤ t ∧ oldZone ≤ t ∧ newZone ≤ t ∧ bound ≤ t ∧
      (wasClamped T now t = true ↔ t ≠ first) ∧
      (settled ≤ now → oldZone ≤ now → newZone ≤ now →
        t ≤ now ∧ (backdate = 0 → t = now ∧ (T ≠ 0 → T ≠ now → wasClamped T now t = true)))

/-- R104, R107, R114: an entry that names no container, no zone in use, RESEAL together with UNSEAL or a LINE target, or
that repeats the container's last movement within the repeat window, changes no container: its outcome is written into
its entry and counted as handled, and the list goes on to its next entry. -/
def Obligations.MoveEntryWithoutEffectWritesOutcome : Prop :=
  ∀ (s : State) (stores : Stores) (l : ListRecord) (d : InHand), s.part.tbu.mainPower = true →
    let p := s.part.hostStores stores
    let e := decodeMoveEntry (p.hostRead (l.entryAddr l.next) 16)
    let goesOn (code : Nat) : Prop := exec (.moveEntry stores) s = .next (s.withPart { p with
      host := p.host.write hostBlank (l.outcomeAddr l.next).toNat [BitVec.ofNat 8 code]
      ctu := { p.ctu with list := some { l with next := l.next + 1, handled := l.handled + 1 } } })
    p.ctu.list = some l → p.exi.inHand = some d → d.stage = .working → l.next + 1 < l.count →
    p.tbu.powerFail = false → p.jnc.closing = none →
    (e.id = 0 ∨ (∀ j, ¬p.holdsId j e.id) → goesOn 3) ∧
    (∀ i c, p.idsUnique → e.id ≠ 0 → p.slot i = some c → c.id = e.id →
      ((∀ z : Fin 64, z.val = e.zone → (p.zone z).config.kind = .unused) → goesOn 4) ∧
      (∀ z : Fin 64, z.val = e.zone → (p.zone z).config.kind ≠ .unused →
        (e.resealFlag = true → e.unsealFlag = true ∨ (p.zone z).config.kind = .line → goesOn 5) ∧
        (e.resealFlag = false → ∀ at_, c.lastMove = some (z, at_) →
          appliedTime e.time p.now p.znu.settings.backdate c.settled (p.zone c.zone).conditionTime
            (p.zone z).conditionTime < at_ + p.znu.settings.repeatWindow →
          0 < p.znu.settings.repeatWindow → goesOn 2)))

/-- R104, R108 to R113, R119, R126: an entry that applies settles the container to the applied time in its old zone and
moves it, a re-entry too: zone, zone entry time and last movement are the target and that time, it joins the tail of the
target's members, its slot is posted and touched, and no other slot, no configuration and no other byte of host memory
changes. A bake is abandoned, leaving the container OPEN or, at its limit, EXPIRED. RESEAL then seals an OPEN container;
of another it is BAD_FLAGS, and the container is settled where it stands. UNSEAL or a LINE target opens a SEALED one. In
an oven an OPEN or EXPIRED container begins a bake at progress 0 while its bakes are below the class's count, and is
QUARANTINED with cause BAKE_LIMIT otherwise.
R114, R115: the last entry, when it applies, ends the list as well: the images of the touched list, this container's among
them, are staged in its order, and the docket is OK when every entry has applied and PARTIAL otherwise, with the counts of
the entries applied, clamped and handled. -/
def Obligations.MoveEntryMovesItsContainer : Prop :=
  ∀ (s : State) (stores : Stores) (l : ListRecord) (d : InHand) (i : Fin 2048) (c : Container) (z : Fin 64),
    s.part.tbu.mainPower = true →
    let p := s.part.hostStores stores
    let e := decodeMoveEntry (p.hostRead (l.entryAddr l.next) 16)
    let t := appliedTime e.time p.now p.znu.settings.backdate c.settled (p.zone c.zone).conditionTime
      (p.zone z).conditionTime
    let k := p.classDef c.cls
    let kind := (p.zone z).config.kind
    let c1 := (settleRecord k t c).1
    let left : Custody := if c1.custody = .baking then (if k.limit ≤ c1.exposure then .expired else .opened) else c1.custody
    let flagged : Custody := if e.resealFlag = true then .sealed
      else if (e.unsealFlag = true ∨ kind = .line) ∧ left = .sealed then .opened else left
    let bakes : Prop := kind = .oven ∧ (flagged = .opened ∨ flagged = .expired)
    let unclamped : Prop := t = if e.time = 0 then p.now else e.time
    let touched := if i ∈ l.touched then l.touched else l.touched ++ [i]
    p.ctu.list = some l → p.exi.inHand = some d → d.stage = .working → l.next < l.count →
    p.tbu.powerFail = false → p.jnc.closing = none → p.idsUnique → e.id ≠ 0 → p.slot i = some c → c.id = e.id →
    z.val = e.zone → kind ≠ .unused → (p.zone c.zone).change = none →
    (∀ at_, c.lastMove = some (z, at_) → p.znu.settings.repeatWindow ≤ t - at_) →
    (e.resealFlag = true → e.unsealFlag = false ∧ kind ≠ .line) →
    (l.next + 1 < l.count → e.resealFlag = true → left ≠ .opened →
      ∃ q c', exec (.moveEntry stores) s = .next (s.withPart q) ∧ q.slot i = some c' ∧ p.sameOtherSlots i q ∧
        p.sameConfig q ∧ q.jnc = p.jnc ∧ q.tbu = p.tbu ∧ q.flash = p.flash ∧
        c'.id = c.id ∧ c'.cls = c.cls ∧ c'.zone = c.zone ∧ c'.custody = c1.custody ∧ c'.exposure = c1.exposure ∧
        c'.settled = t ∧ c'.lastMove = c.lastMove ∧ (∀ y, (q.zone y).members = (p.zone y).members) ∧
        (∃ touched, q.ctu.list = some { l with next := l.next + 1, handled := l.handled + 1, touched := touched }) ∧
        q.host = p.host.write hostBlank (l.outcomeAddr l.next).toNat [5]) ∧
    (l.next + 1 < l.count → (e.resealFlag = true → left = .opened) →
    ∃ q c', exec (.moveEntry stores) s = .next (s.withPart q) ∧ q.slot i = some c' ∧ p.sameOtherSlots i q ∧
      p.sameConfig q ∧ q.jnc = p.jnc ∧ q.tbu = p.tbu ∧ q.flash = p.flash ∧
      c'.id = c.id ∧ c'.cls = c.cls ∧ c'.zone = z ∧ c'.zoneEntry = t ∧ c'.lastMove = some (z, t) ∧ c'.settled = t ∧
      c'.exposure = c1.exposure ∧ c'.bakeCount = c1.bakeCount ∧ c'.bakedThisStay = false ∧ i ∈ q.exi.slotMarks ∧
      (¬bakes → c'.custody = flagged) ∧ (¬bakes → c1.custody = .baking → c'.bakeProgress = none) ∧
      (bakes → c1.bakeCount < k.maxBakes → c'.custody = .baking ∧ c'.bakeProgress = some 0) ∧
      (bakes → k.maxBakes ≤ c1.bakeCount → c'.custody = .quarantined ∧ c'.quarantineCause = some .bakeLimit) ∧
      (q.zone z).members = (if z = c.zone then (p.zone z).members.filter (· != i) else (p.zone z).members) ++ [i] ∧
      (z ≠ c.zone → (q.zone c.zone).members = (p.zone c.zone).members.filter (· != i)) ∧
      (∀ y, y ≠ z → y ≠ c.zone → q.zone y = p.zone y) ∧
      q.ctu.list = some { l with
        next := l.next + 1, handled := l.handled + 1, applied := l.applied + 1
        clamped := if unclamped then l.clamped else l.clamped + 1
        touched := touched } ∧
      q.host = p.host.write hostBlank (l.outcomeAddr l.next).toNat [if unclamped then 0 else 1]) ∧
    (l.next + 1 = l.count → (e.resealFlag = true → left = .opened) →
    ∃ q c', exec (.moveEntry stores) s = .next (s.withPart q) ∧ q.slot i = some c' ∧ p.sameConfig q ∧
      q.tbu = p.tbu ∧ q.flash = p.flash ∧ c'.id = c.id ∧ c'.zone = z ∧ c'.zoneEntry = t ∧ c'.lastMove = some (z, t) ∧
      c'.settled = t ∧ c'.exposure = c1.exposure ∧ (¬bakes → c'.custody = flagged) ∧ i ∈ q.exi.slotMarks ∧
      q.host = p.host.write hostBlank (l.outcomeAddr l.next).toNat [if unclamped then 0 else 1] ∧
      (p.jnc.journal = .ok → p.sameOtherSlots i q) ∧
      (p.journalTakes → touched.length ≤ 5 → q.jnc.queue = p.jnc.queue ++ p.stagedNow
        (touched.filterMap fun j => (q.slot j).map fun x => .containerImage (imageOf j x))) ∧
      q.finishes d { result := if l.applied + 1 < l.count then .partialDone else .ok, first := l.applied + 1
                     second := if unclamped then l.clamped else l.clamped + 1, value := l.handled + 1 })

/-! ## Dockets of the configuration -/

/-- R2, R3, R5, R6: SET_CLASS on a class that no container uses, and a SET_ENGINE that names neither the ceiling nor a
hysteresis, write their records and journal them; nothing else but the journal and the docket changes. A SET_ENGINE with an
empty mask is OK with nothing changed. A class number above
15 is BAD_CLASS, a value of SET_CLASS out of its range BAD_ARG, and a class in use CLASS_IN_USE. A SET_ENGINE that would
leave a setting out of its range is BAD_ARG. A defined byte above 1 is BAD_ARG by the model's reading of R177 (log 45).
A refusal and the OK of a SET_ENGINE answer both counts and the value 0 (the model's choice, log 64). -/
def Obligations.ClassAndEngineSettingsAreWritten : Prop :=
  ∀ (s : State) (d : InHand), s.part.tbu.mainPower = true → s.part.jnc.closing = none → d.triggers = [] →
    let p := s.part
    let done (own : Part) (image : List Payload) (q : Part) : Prop :=
      q = { own with jnc := q.jnc, exi := { p.exi with inHand := some { d with stage := .finished (plainAnswer .ok) } } } ∧
      (p.journalTakes → q.jnc.queue = p.jnc.queue ++ p.stagedNow image)
    let inRange (a : ClassArgs) : Prop := 1 ≤ a.allowance ∧ a.allowance ≤ 1048575 ∧ a.warnMargin ≤ a.allowance ∧
      a.ceiling ≤ 100 ∧ 300 ≤ a.bakeTemp ∧ a.bakeTemp ≤ a.bakeMax ∧ a.bakeMax ≤ 1500 ∧ 1 ≤ a.bakeDuration ∧
      a.bakeDuration ≤ 65535 ∧ a.maxBakes ≤ 15
    (∀ a : ClassArgs, p.hands d (.setClass a) → 15 < a.cls →
      exec .setClass s = .next (s.withPart (p.refusedWith d .badClass))) ∧
    (∀ (a : ClassArgs) (n : Fin 16), p.hands d (.setClass a) → n.val = a.cls →
      (1 < a.defined ∨ (a.defined = 1 ∧ ¬inRange a) →
        exec .setClass s = .next (s.withPart (p.refusedWith d .badArg))) ∧
      (0 < (p.cls n).useCount → a.defined = 0 ∨ (a.defined = 1 ∧ inRange a) →
        exec .setClass s = .next (s.withPart (p.refusedWith d .classInUse))) ∧
      ((p.cls n).useCount = 0 → a.defined = 0 →
        ∃ q, exec .setClass s = .next (s.withPart q) ∧
          done (p.setCls n { defn := none, useCount := 0 }) [.classImage n none] q) ∧
      ((p.cls n).useCount = 0 → a.defined = 1 → inRange a →
        ∃ q k, exec .setClass s = .next (s.withPart q) ∧
          k = { allowance := a.allowance, warnMargin := a.warnMargin, ceiling := a.ceiling, bakeTemp := a.bakeTemp
                bakeMax := a.bakeMax, bakeDuration := a.bakeDuration, maxBakes := a.maxBakes
                warnTicks := a.warnMargin * 15360
                creditLimit := a.allowance * 15360 * a.ceiling / 100 } ∧
          done (p.setCls n { defn := some k, useCount := 0 }) [.classImage n (some k.image)] q)) ∧
    (∀ v : Settings, v.valid = true ↔ 256 ≤ v.ceiling ∧ v.ceiling ≤ 1023 ∧ v.outage ≤ 1023 ∧ v.backdate ≤ 3600 ∧
      v.repeatWindow ≤ 255 ∧ v.tempHyst ≤ 50 ∧ v.rhHyst ≤ 50) ∧
    (∀ a : EngineArgs, p.hands d (.setEngine a) → a.mask.setWidth 6 = 0#6 →
      exec .setEngine s = .next (s.withPart (p.refusedWith d .ok))) ∧
    (∀ a : EngineArgs, p.hands d (.setEngine a) → a.names = true → a.reevaluates = false →
      ((a.apply p.znu.settings).valid = true →
        ∃ q, exec .setEngine s = .next (s.withPart q) ∧
          done { p with znu := { p.znu with settings := { p.znu.settings with
                  outage := if a.mask.getLsbD 1 then a.outage else p.znu.settings.outage
                  backdate := if a.mask.getLsbD 2 then a.backdate else p.znu.settings.backdate
                  repeatWindow := if a.mask.getLsbD 3 then a.repeatWindow else p.znu.settings.repeatWindow } } }
            [.engineImage (a.apply p.znu.settings)] q) ∧
      ((a.apply p.znu.settings).valid = false →
        exec .setEngine s = .next (s.withPart (p.refusedWith d .badArg))))

/-- R6, R55, R64, R67: a SET_ENGINE that names the ceiling or a hysteresis, and a SET_CONDITIONS whose block passes its checks,
write their values and take a configuration trigger of every zone in use. A zone with no change in progress and no waiting
trigger is evaluated under the new values: it holds the condition of its evaluation, a DRY zone under the condition its
reference then has. A zone with one keeps its condition and holds a waiting configuration trigger. The docket of SET_ENGINE
then holds exactly the zones whose configuration trigger still waits, and
that of SET_CONDITIONS counts the zones whose condition differs after the docket from before it (the model's choice, log
23). Zone configurations, probes, door lines, container IDs, host memory and flash stand. Settings out of range, an address
that is 0 or no multiple of 64 and a block with a multiplier or an edge out of its range, or edges that do not rise, are
BAD_ARG and change nothing. A refusal and the OK of a SET_ENGINE answer both counts and the value 0 (the model's choice, log
64). -/
def Obligations.EngineAndConditionsRetriggerZones : Prop :=
  (∀ b : CellBlock, b.valid = true ↔ (∀ k : Fin 48, b.cells[k].mult ≤ 1023) ∧
    (∀ k : Fin 5, -400 ≤ b.tempEdges[k] ∧ b.tempEdges[k] ≤ 1500) ∧ (∀ k : Fin 7, b.rhEdges[k] ≤ 1000) ∧
    (∀ j k : Fin 5, j < k → b.tempEdges[j] < b.tempEdges[k]) ∧ ∀ j k : Fin 7, j < k → b.rhEdges[j] < b.rhEdges[k]) ∧
  ∀ (s : State) (d : InHand), s.part.tbu.mainPower = true → s.part.jnc.closing = none →
    let p := s.part
    let stands (p q : Part) : Prop := p.sameOutside q ∧ (∀ z, (q.zone z).config = (p.zone z).config) ∧ q.prc = p.prc ∧
      q.dou.lines = p.dou.lines ∧ (∀ i, (q.slot i).map (·.id) = (p.slot i).map (·.id))
    let triggered (before : Fin 64 → Zone) (q : Part) : Prop := ∀ z,
      let r := p.zone z
      r.config.kind ≠ .unused →
      (r.busy = false →
        (r.config.kind = .dry → ∀ f, r.config.reference = some f → (p.zone f).config.kind.walks = true) →
        (q.zone z).condition = (q.evaluated (before z)).2 ∧ (q.zone z).busy = false ∧
        (r.config.kind ≠ .dry → (q.zone z).conditionTime =
          if (q.zone z).condition = r.condition then r.conditionTime else max p.now r.conditionTime)) ∧
      (r.busy = true → (q.zone z).condition = r.condition ∧ (q.zone z).waitConfig ≠ none ∧
        (r.config.kind ≠ .dry → ∃ own, (q.zone z).waitConfig = some { time := p.now, own := own }))
    (∀ a : EngineArgs, p.hands d (.setEngine a) → a.reevaluates = true →
      ((a.apply p.znu.settings).valid = false →
        exec .setEngine s = .next (s.withPart (p.refusedWith d .badArg))) ∧
      ((a.apply p.znu.settings).valid = true →
      ∃ (q : Part) (f : InHand), exec .setEngine s = .next (s.withPart q) ∧ stands p q ∧ triggered p.zone q ∧
        q.znu.settings = a.apply p.znu.settings ∧ q.znu.cells = p.znu.cells ∧
        q.exi.inHand = some { f with stage := .finished (plainAnswer .ok) } ∧ f.slot = d.slot ∧
        ∀ z, z ∈ f.triggers ↔ (q.zone z).waitConfig ≠ none)) ∧
    (∀ (addr : HostAddr) (stores : Stores), p.hands d (.setConditions addr) →
      let h := p.hostStores stores
      let b := decodeCellBlock (h.hostRead addr 120)
      (addr = 0 ∨ addr.toNat % 64 ≠ 0 → exec (.setConditions stores) s = .next (s.withPart (h.refusedWith d .badArg))) ∧
      (addr ≠ 0 → addr.toNat % 64 = 0 → b.valid = true →
        ∃ q, exec (.setConditions stores) s = .next (s.withPart q) ∧ stands h q ∧
        triggered (fun z => if b.tempEdges = p.znu.tempEdges ∧ b.rhEdges = p.znu.rhEdges then p.zone z
                            else { p.zone z with basis := false }) q ∧
        q.znu.cells = b.cells ∧ q.znu.tempEdges = b.tempEdges ∧ q.znu.rhEdges = b.rhEdges ∧
        q.znu.settings = p.znu.settings ∧
        (∃ (f : InHand) (a : Answer), q.exi.inHand = some { f with stage := .finished a } ∧ a.result = .ok ∧
          a.first = (allFin 64 fun z => (p.zone z).condition != (q.zone z).condition).length)) ∧
      (addr ≠ 0 → addr.toNat % 64 = 0 → b.valid = false →
        exec (.setConditions stores) s = .next (s.withPart (h.refusedWith d .badArg))))

/-- R50, R51, R47, R57, R65: a SET_ZONE that passes its checks writes the zone's configuration and held reading, gives the zone
the condition of its evaluation, and answers with its member count; no other configuration, no probe and no door line
changes. With no member the ZONE_IMAGE staged carries the zone as it then stands. R67: a zone with a change in progress or a
waiting trigger keeps its condition and holds the trigger, for which the docket waits and its ZONE_IMAGE with it.
A kind code above 4, a probe, a dry threshold or a line output out of its range is BAD_ARG; a reference that is no FLOOR or
LINE zone, or the zone itself, BAD_ZONE; a new kind for a zone with members, or an OVEN or DRY kind for a DRY zone's
reference, ZONE_IN_USE; another LINE zone's output DUPLICATE. A kind that holds no dry threshold has 0 in its place (the
model's choice, log 82).
Making an empty zone UNUSED leaves every other field of its record at its reset value. A refused docket answers both
counts and the value 0 (the model's choice, log 64). -/
def Obligations.SetZoneConfiguresTheZone : Prop :=
  ∀ (s : State) (d : InHand) (a : ZoneArgs) (z : Fin 64), s.part.tbu.mainPower = true → s.part.hands d (.setZone a) →
    let p := s.part
    let refused (x : ResultCode) : Prop := exec .setZone s = .next (s.withPart (p.refusedWith d x))
    let probe : Option (Fin 32) := finOf? 32 a.probe
    let fixed : Option Reading :=
      if a.probe = 255 then some (clampReading { temp := a.fixedTemp, rh := a.fixedRh }) else none
    z.val = a.zone → p.jnc.closing = none →
    (∀ kind, decodeKind a.kind = some kind → kind ≠ .unused →
      let badArg : Prop := (a.probe ≠ 255 ∧ 32 ≤ a.probe) ∨
        (kind = .dry ∧ a.dryThreshold ≠ 65535 ∧ 1000 < a.dryThreshold) ∨
        (kind = .line ∧ a.lineOutput ≠ 255 ∧ 8 ≤ a.lineOutput)
      let badReference : Prop := kind = .dry ∧ a.reference ≠ 255 ∧ ∀ f : Fin 64, f.val = a.reference →
        f = z ∨ ((p.zone f).config.kind ≠ .floor ∧ (p.zone f).config.kind ≠ .line)
      let inUse : Prop := (kind ≠ (p.zone z).config.kind ∧ (p.zone z).members ≠ []) ∨
        (p.dryZonesOf z ≠ [] ∧ (kind = .oven ∨ kind = .dry))
      let taken : Prop := kind = .line ∧ ∃ (o : Fin 8) (y : Fin 64), o.val = a.lineOutput ∧ y ≠ z ∧
        (p.zone y).config.kind = .line ∧ (p.zone y).config.lineOutput = some o
      (badArg → refused .badArg) ∧ (¬badArg → badReference → refused .badZone) ∧
      (¬badArg → ¬badReference → inUse → refused .zoneInUse) ∧
      (¬badArg → ¬badReference → ¬inUse → taken → refused .duplicate) ∧
      (¬badArg → ¬badReference → ¬inUse → ¬taken → p.checkZone a = .ok (z, {
        kind := kind, probe := probe, fixed := fixed
        reference := if kind = .dry then finOf? 64 a.reference else none
        dryThreshold := if kind = .dry then (if a.dryThreshold = 65535 then 100 else a.dryThreshold) else 0
        creditRate := if kind = .dry then a.creditRate else 0
        lineOutput := if kind = .line then finOf? 8 a.lineOutput else none }))) ∧
    (∀ c, (p.zone z).busy = true → p.dryZonesOf z = [] → p.checkZone a = .ok (z, c) → c.kind ≠ .unused →
      c.kind = (p.zone z).config.kind →
      ∃ q, exec .setZone s = .next (s.withPart q) ∧ p.sameOutside q ∧ (q.zone z).config = c ∧
        (q.zone z).condition = (p.zone z).condition ∧ (q.zone z).waitConfig = some { time := p.now, own := true } ∧
        (∀ y, y ≠ z → (q.zone y).config = (p.zone y).config) ∧ q.prc = p.prc ∧ q.dou.lines = p.dou.lines ∧
        ((p.zone z).members = [] → q.jnc.queue = p.jnc.queue) ∧
        q.finishes { d with triggers := [z] }
          { result := .ok, first := (p.zone z).members.length, second := 0, value := 0 }) ∧
    ((p.zone z).busy = false → p.dryZonesOf z = [] →
    (4 < a.kind → exec .setZone s = .next (s.withPart (p.refusedWith d .badArg))) ∧
    (∀ c, p.checkZone a = .ok (z, c) → c.kind ≠ .unused →
      ∃ q, exec .setZone s = .next (s.withPart q) ∧ p.sameOutside q ∧ (q.zone z).config = c ∧
        (q.zone z).held = (if c.kind ≠ (p.zone z).config.kind ∨ c.probe ≠ (p.zone z).config.probe ∨
            c.fixed ≠ (p.zone z).config.fixed
          then (match c.probe with
            | none => c.fixed
            | some n => if (p.probe n).state = .fresh ∨ (p.probe n).state = .doubtful then (p.probe n).held else none)
          else (p.zone z).held) ∧
        (q.zone z).condition = (p.evaluated (p.rezoned z c)).2 ∧
        (q.zone z).conditionTime = (if (p.evaluated (p.rezoned z c)).2 = (p.rezoned z c).condition
          then (p.rezoned z c).conditionTime else max p.now (p.rezoned z c).conditionTime) ∧
        (∀ y, y ≠ z → (q.zone y).config = (p.zone y).config) ∧ q.prc = p.prc ∧ q.dou.lines = p.dou.lines ∧
        (p.journalTakes → (p.zone z).members = [] →
          q.jnc.queue = p.jnc.queue ++ p.stagedNow [.zoneImage z (q.zone z).image]) ∧
        q.finishes { d with triggers := [] }
          { result := .ok, first := (p.zone z).members.length, second := 0, value := 0 }) ∧
    (a.kind = 0 → (p.zone z).members = [] → (p.zone z).config.lineOutput = none →
      ∃ q, exec .setZone s = .next (s.withPart q) ∧
        q.zone z = { Zone.unused with blocking := (p.zone z).blocking, warnedCount := (p.zone z).warnedCount } ∧
        (∀ y, y ≠ z → q.zone y = p.zone y) ∧ p.sameOutside q ∧ q.prc = p.prc ∧ q.dou = p.dou ∧ q.ctu = p.ctu ∧
        q.finishes { d with triggers := [] } { result := .ok, first := 0, second := 0, value := 0 }))

/-- R76, R77, R85: SET_PROBE. A probe enabled at a new bus or address starts over, DOUBTFUL without a reading; one kept at
its bus and address keeps its readings and takes a new stale time; a probe disabled is OFF, and every zone that binds it is
told once. The answer counts the zones that bind it. No other probe changes. A probe number above 31 and a field of an
enabled probe out of its range are BAD_ARG, and so is an enable byte above 1 by the model's reading of R177 (log 45). A
probe that is queued leaves its queue: an attempt under way is left to finish, its outcome discarded, and its CYCLED group
is switched off after it; else at once, when no probe of the group is queued. The probe behind a discarded attempt is taken
up after it (the model's choice, log 68). A group switched off has 0 ms to its ready point (the model's choice, log 91). A
refused docket answers both counts and the value 0 (the model's choice, log 64). -/
def Obligations.SetProbeStartsRetimesOrStops : Prop :=
  ∀ (s : State) (d : InHand) (a : ProbeArgs) (n : Fin 32), s.part.tbu.mainPower = true → s.part.hands d (.setProbe a) →
    let p := s.part
    let r := p.probe n
    let answer : Answer := { result := .ok, first := (p.zonesOfProbe n).length, second := 0, value := 0 }
    (32 ≤ a.probe → exec .setProbe s = .next (s.withPart (p.refusedWith d .badArg))) ∧
    (∀ c, a.config = some c ↔
      ((a.bus = 0 ∧ c.bus = .busA) ∨ (a.bus = 1 ∧ c.bus = .busB)) ∧
      ((a.group = 255 ∧ c.group = none) ∨ ∃ g : Fin 4, g.val = a.group ∧ c.group = some g) ∧
      0x08 ≤ a.address ∧ a.address ≤ 0x77 ∧ c.address = a.address ∧ 2 ≤ a.interval ∧ a.interval ≤ 3600 ∧
      c.interval = a.interval ∧ 10 ≤ a.conversion ∧ a.conversion ≤ 2550 ∧ a.conversion % 10 = 0 ∧
      c.conversion = a.conversion) ∧
    (n.val = a.probe → p.jnc.closing = none →
    (∀ c, a.enable = 0 → p.queued n = true → r.config = some c →
      let attempts : Prop := ∃ w, (p.bus c.bus).poll = some w ∧ w.probe = n ∧ w.discarded = false ∧
        ((∃ ms, (p.bus c.bus).phase = .awaitFree ms) ∨ (∃ ms, (p.bus c.bus).phase = .converting ms) ∨
          (p.bus c.bus).phase = .reading)
      ∃ q, exec .setProbe s = .next (s.withPart q) ∧ p.sameOutside q ∧ q.finishes d answer ∧
        q.probe n = { Probe.off with late := r.late } ∧ (∀ m, m ≠ n → q.probe m = p.probe m) ∧
        (q.bus c.bus).queue = (p.bus c.bus).queue.filter (· != n) ∧
        (attempts → q.prc.groups = p.prc.groups ∧ (q.bus c.bus).phase = (p.bus c.bus).phase ∧
          (q.bus c.bus).poll = (p.bus c.bus).poll.map fun w => { w with discarded := true }) ∧
        (¬attempts → ∀ g, c.group = some g → (p.group g).cycled = true → q.groupQueued g = false →
          (q.group g).on = false)) ∧
    (∀ b w g reach, (p.bus b).poll = some w → w.discarded = true → w.group = some g → (p.bus b).queue = [] →
      (∃ ms, (p.bus b).phase = .awaitFree ms) ∨ (∃ ms, (p.bus b).phase = .converting ms) ∨ (p.bus b).phase = .reading →
      (p.group g).cycled = true → p.groupQueued g = false →
      exec (.busHeld b reach) s = .next (s.withPart ((p.setBus b { p.bus b with poll := none, phase := .idle }).setGroup g
        { p.group g with on := false, ready := 0 }))) ∧
    (p.queued n = false →
    (1 < a.enable ∨ (a.enable = 1 ∧ a.config = none) →
      exec .setProbe s = .next (s.withPart (p.refusedWith d .badArg))) ∧
    (a.enable = 0 → ∃ q, exec .setProbe s = .next (s.withPart q) ∧ p.sameOutside q ∧
      q.probe n = { Probe.off with late := r.late } ∧ (∀ m, m ≠ n → q.probe m = p.probe m) ∧
      q.prc.busA = p.prc.busA ∧ q.prc.busB = p.prc.busB ∧ q.prc.groups = p.prc.groups ∧
      (r.staleReported = false → ∀ z, (p.zone z).config.probe = some n → (q.zone z).stale = true) ∧
      (r.staleReported = true → q.znu.zones = p.znu.zones ∧ q.ctu = p.ctu) ∧ q.finishes d answer) ∧
    (∀ c, a.enable = 1 → a.config = some c → p.addressTaken n c = true →
      exec .setProbe s = .next (s.withPart (p.refusedWith d .duplicate))) ∧
    (∀ c, a.enable = 1 → a.config = some c → p.addressTaken n c = false →
      ∃ q, exec .setProbe s = .next (s.withPart q) ∧
        q = { p with jnc := q.jnc, prc := { p.prc with probes := q.prc.probes }
                     exi := { p.exi with inHand := some { d with stage := .finished answer } } } ∧
        (∀ m, m ≠ n → q.probe m = p.probe m) ∧
        ((∀ o, r.config = some o → o.bus ≠ c.bus ∨ o.address ≠ c.address) →
          q.probe n = { r with config := some c, state := .doubtful, held := none, lastCount := none, failures := 0
                               readingTime := none, staleTime := p.now + 3 * c.interval, lastFailure := none
                               pollTimer := c.interval * 1000, late := 0 }) ∧
        (∀ o, r.config = some o → o.bus = c.bus → o.address = c.address →
          q.probe n = { r with config := some c, staleTime := r.readingTime.getD p.now + 3 * c.interval
                               pollTimer := c.interval * 1000, late := 0 }) ∧
        (p.journalTakes → q.jnc.queue = p.jnc.queue ++ p.stagedNow [.probeImage n (some c)]))))

/-- R86, R87: SET_GROUP writes the flagged modes, lead times and bus speeds. A group made STEADY while off is switched on,
and a group made CYCLED with none of its probes queued is switched off; an unflagged group stands. A flagged mode above 1, a
lead time above 2,550 ms or no multiple of 10, and a speed other than 100 and 400 kHz are out of range: BAD_ARG, and nothing
changes. With an empty mask the docket is OK; there, and where it is refused, both counts and the value
are 0 (the model's choice, log 64). -/
def Obligations.SetGroupWritesFlaggedValues : Prop :=
  ∀ (s : State) (d : InHand) (a : GroupArgs), s.part.tbu.mainPower = true → s.part.hands d (.setGroup a) →
    let p := s.part
    (a.valid = true ↔
      (∀ g : Fin 4, a.mask.getLsbD g.val = true → a.modes[g] ≤ 1 ∧ a.leads[g] ≤ 2550 ∧ a.leads[g] % 10 = 0) ∧
      (a.mask.getLsbD 4 = true → a.speedA = 100 ∨ a.speedA = 400) ∧
      (a.mask.getLsbD 5 = true → a.speedB = 100 ∨ a.speedB = 400)) ∧
    (p.jnc.closing = none →
    (a.mask.setWidth 6 ≠ 0#6 → a.valid = false → exec .setGroup s = .next (s.withPart (p.refusedWith d .badArg))) ∧
    (a.mask.setWidth 6 = 0#6 → exec .setGroup s = .next (s.withPart (p.refusedWith d .ok))) ∧
    (a.mask.setWidth 6 ≠ 0#6 → a.valid = true → ∃ q, exec .setGroup s = .next (s.withPart q) ∧
      q = { p with jnc := q.jnc
                   prc := { p.prc with
                     groups := q.prc.groups
                     busA := { p.prc.busA with fast := if a.mask.getLsbD 4 then decide (a.speedA = 400) else p.prc.busA.fast }
                     busB := { p.prc.busB with fast := if a.mask.getLsbD 5 then decide (a.speedB = 400) else p.prc.busB.fast } }
                   exi := { p.exi with inHand := some { d with stage := .finished (plainAnswer .ok) } } } ∧
      (∀ g : Fin 4, a.mask.getLsbD g.val = false → q.group g = p.group g) ∧
      (∀ g : Fin 4, a.mask.getLsbD g.val = true →
        (q.group g).lead = a.leads[g] ∧ ((q.group g).cycled = true ↔ a.modes[g] = 1) ∧
        (a.modes[g] = 0 → (q.group g).on = true) ∧
        (a.modes[g] = 0 → (p.group g).on = false → (q.group g).ready = a.leads[g]) ∧
        (a.modes[g] = 1 → (q.group g).on = ((p.group g).on && p.groupQueued g)))))

/-- R94, R91: SET_DOOR writes a line's zone, polarity, filter time and open limit. A filter time that differs restarts a
running filter timer; a new polarity gives the line its raw state and stops the timer; a new zone clears pending-open,
and its door state is that of its lines. A line that keeps its zone and polarity changes no door record, zone or
container. The answer carries the filtered state and the door state. A bound zone must be DRY or OVEN. A refused
docket answers both counts and the value 0 (the model's choice, log 64). -/
def Obligations.SetDoorConfiguresTheLine : Prop :=
  ∀ (s : State) (d : InHand) (a : DoorArgs) (n : Fin 16), s.part.tbu.mainPower = true → s.part.hands d (.setDoor a) →
    let p := s.part
    let l := p.line n
    let good := a.polarity ≤ 1 ∧ 10 ≤ a.filterTime ∧ a.filterTime ≤ 2550 ∧ a.filterTime % 10 = 0
    n.val = a.line → p.jnc.closing = none →
    (¬good → exec .setDoor s = .next (s.withPart (p.refusedWith d .badArg))) ∧
    (good → ∀ z : Fin 64, z.val = a.zone → (p.zone z).config.kind ≠ .dry → (p.zone z).config.kind ≠ .oven →
      exec .setDoor s = .next (s.withPart (p.refusedWith d .badZone))) ∧
    (∀ zone, good → (a.zone = 255 ∧ zone = none ∨ ∃ z : Fin 64, z.val = a.zone ∧ zone = some z ∧
        ((p.zone z).config.kind = .dry ∨ (p.zone z).config.kind = .oven)) →
      let l' : DoorLine := { l with
        zone := zone, openLow := a.polarity == 1, filterTime := a.filterTime, openLimit := a.openLimit
        filteredOpen := if (a.polarity == 1) = l.openLow then l.filteredOpen else l.high != (a.polarity == 1)
        pendingOpen := if zone = l.zone then l.pendingOpen else false
        timer := if (a.polarity == 1) = l.openLow then
            (if a.filterTime = l.filterTime then l.timer else l.timer.map fun _ => a.filterTime) else none }
      ∃ q, exec .setDoor s = .next (s.withPart q) ∧ p.sameOutside q ∧ q.line n = l' ∧
        (∀ m, m ≠ n → q.line m = p.line m) ∧ q.prc = p.prc ∧ (∀ z, (q.zone z).config = (p.zone z).config) ∧
        (∀ z, zone = some z → zone ≠ l.zone → (q.door z).isOpen = q.anyLineOpen z) ∧
        (zone = l.zone → (a.polarity == 1) = l.openLow →
          q.dou.doors = p.dou.doors ∧ q.znu = p.znu ∧ q.ctu = p.ctu) ∧
        q.finishes d { result := .ok, first := l'.filteredOpen.toNat
                       second := (match zone with
                         | some z => (q.door z).isOpen.toNat
                         | none => 0)
                       value := 0 })

/-- R100, R97, R99: with an empty mask SET_OUTPUT changes nothing, and is OK with the counts as they stand. Otherwise it
writes the flagged overrides, lamp zones, patterns and step period; a flagged override
drives its output from its new value, and an unflagged override stands. A flagged override above 2, a pattern length outside
2 to 16 or a step period outside 50 to 1,000 or no multiple of 50 is BAD_ARG, a flagged lamp zone neither none nor in use
BAD_ZONE; each changes nothing; a docket with both is BAD_ARG (the model's choice, log 55). A refused docket answers both
counts and the value 0 (the model's choice, log 64). -/
def Obligations.SetOutputWritesFlaggedValues : Prop :=
  ∀ (s : State) (d : InHand) (a : OutputArgs), s.part.tbu.mainPower = true → s.part.hands d (.setOutput a) →
    let p := s.part
    let patternOk (bit : Nat) (x : Pattern) : Prop := a.mask.getLsbD bit = true → 2 ≤ x.length ∧ x.length ≤ 16
    (a.valid = true ↔ (∀ n : Fin 8, a.mask.getLsbD n.val = true → a.overrides[n] ≤ 2) ∧
      patternOk 16 a.calm ∧ patternOk 17 a.warn ∧ patternOk 18 a.hold ∧
      (a.mask.getLsbD 19 = true → 50 ≤ a.stepPeriod ∧ a.stepPeriod ≤ 1000 ∧ a.stepPeriod % 50 = 0)) ∧
    (a.zonesOk p = true ↔ ∀ n : Fin 8, a.mask.getLsbD (8 + n.val) = true → a.lampZones[n] = 255 ∨
      ∃ z : Fin 64, z.val = a.lampZones[n] ∧ (p.zone z).config.kind ≠ .unused) ∧
    (a.mask.setWidth 20 = 0#20 → exec .setOutput s = .next (s.withPart { p with exi := { p.exi with
      inHand := some { d with stage := .finished {
        result := .ok, first := ((List.finRange 8).filter fun n => (p.lineHold n).asserted).length
        second := ((List.finRange 8).filter fun n => (p.lamp n).shown == some .hold).length, value := 0 } } } })) ∧
    (p.jnc.closing = none → a.mask.setWidth 20 ≠ 0#20 →
    (a.valid = false → exec .setOutput s = .next (s.withPart (p.refusedWith d .badArg))) ∧
    (a.valid = true → a.zonesOk p = false → exec .setOutput s = .next (s.withPart (p.refusedWith d .badZone))) ∧
    (a.valid = true → a.zonesOk p = true → ∃ q x, exec .setOutput s = .next (s.withPart q) ∧
      q = { p with jnc := q.jnc
                   dou := { p.dou with
                     holds := q.dou.holds, lamps := q.dou.lamps
                     calm := if a.mask.getLsbD 16 then a.calm else p.dou.calm
                     warn := if a.mask.getLsbD 17 then a.warn else p.dou.warn
                     hold := if a.mask.getLsbD 18 then a.hold else p.dou.hold
                     stepPeriod := if a.mask.getLsbD 19 then a.stepPeriod else p.dou.stepPeriod }
                   exi := { p.exi with inHand := some { d with stage := .finished x } } } ∧
      x.result = .ok ∧ x.first = ((List.finRange 8).filter fun n => (q.lineHold n).asserted).length ∧
      (∀ n : Fin 8, a.mask.getLsbD n.val = false → q.lineHold n = p.lineHold n) ∧
      (∀ n : Fin 8, a.mask.getLsbD n.val = true → (q.lineHold n).zone = (p.lineHold n).zone ∧
        (a.overrides[n] = 1 → (q.lineHold n).override = .forceOn ∧ (q.lineHold n).asserted = true) ∧
        (a.overrides[n] = 2 → (q.lineHold n).override = .forceOff ∧ (q.lineHold n).asserted = false) ∧
        (a.overrides[n] = 0 → (q.lineHold n).override = .auto ∧
          ((q.lineHold n).asserted = true ↔ ∃ z, (p.lineHold n).zone = some z ∧ 0 < (p.zone z).blocking))) ∧
      (∀ n : Fin 8, (q.lamp n).zone = if a.mask.getLsbD (8 + n.val) then finOf? 64 a.lampZones[n] else (p.lamp n).zone)))

/-- R88: QUERY_PROBE writes the probe's report and answers with its state, its late count and its reading time; it clears
the late count when asked, and changes nothing else. A refused docket answers both counts and the value 0 (the
model's choice, log 64). -/
def Obligations.QueryProbeReportsTheProbe : Prop :=
  ∀ (s : State) (d : InHand) (a : QueryProbeArgs) (n : Fin 32), s.part.tbu.mainPower = true →
    s.part.hands d (.queryProbe a) → n.val = a.probe →
    let p := s.part
    let r := p.probe n
    (a.reply = 0 ∨ a.reply.toNat % 32 ≠ 0 → exec .queryProbe s = .next (s.withPart (p.refusedWith d .badArg))) ∧
    (a.reply ≠ 0 → a.reply.toNat % 32 = 0 → ∃ q, exec .queryProbe s = .next (s.withPart q) ∧
      q = { p with host := p.host.write hostBlank a.reply.toNat (p.probeReport n)
                   prc := { p.prc with probes := q.prc.probes }
                   exi := { p.exi with inHand := some { d with stage := .finished {
                     result := .ok, first := r.state.code, second := r.late, value := timeCode r.readingTime } } } } ∧
      (∀ m, m ≠ n → q.probe m = p.probe m) ∧
      q.probe n = { r with late := if a.clearLate then 0 else r.late } ∧ (p.probeReport n).length = 32)

/-- R172, R171: SET_TIME sets the engine time and time-valid in BLANK and AWAIT_TIME, and is WRONG_STATE in RUNNING. In
AWAIT_TIME it must not lie before the last time of the journal; the tables are reconciled, every live container standing
settled to the new time, with the outage as the docket's value.
R21, R171: reconciliation settles a container to the last time of the journal and charges an OPEN one the outage multiplier
for every second from there, up to its limit, where it is EXPIRED; one that no image followed after the DROP_MARK of an
unfinished resync is settled to the drop time, and charged from there or from its later settle time. One of another custody
is charged nothing. That the docket then waits for RUNNING is the model's
reading (log 12), as is WRONG_STATE in RESTORING, where R148 lets no docket be in hand (log 61). A refusal, and the
counts in BLANK, are 0 (the model's choice, log 64). -/
def Obligations.SetTimeSetsTheClock : Prop :=
  ∀ (s : State) (d : InHand) (t : Nat), s.part.tbu.mainPower = true → s.part.hands d (.setTime t) →
    let p := s.part
    let clock : Tbu := { p.tbu with counter := t, timeValid := true }
    (p.jnc.engine = .restoring ∨ p.jnc.engine = .running →
      exec .setTime s = .next (s.withPart (p.refusedWith d .wrongState))) ∧
    (p.jnc.engine = .blank → t = Config.timeNone → exec .setTime s = .next (s.withPart (p.refusedWith d .badArg))) ∧
    (p.jnc.engine = .blank → t < Config.timeNone → exec .setTime s = .next (s.withPart { p with
      tbu := clock
      exi := { p.exi with headerMark := true, inHand := some { d with stage := .finished (plainAnswer .ok) } } })) ∧
    (∀ r, p.jnc.engine = .awaitTime → p.jnc.restore = some r → p.jnc.closing = none →
      let drop (i : Fin 2048) : Option Nat := if i ∈ r.imagedAfter then none else r.openDrop
      let charged (i : Fin 2048) (c c' : Container) : Prop :=
        let k := p.classDef c.cls
        let c1 := (settleRecord k ((drop i).getD r.tLast) c).1
        let seconds := match drop i with
          | some D => t - max c.settled D
          | none => t - r.tLast
        let e := c1.exposure + seconds * p.znu.settings.outage
        c'.id = c.id ∧ c'.cls = c.cls ∧ c'.zone = c.zone ∧ c'.bakeCount = c1.bakeCount ∧
        (c1.custody = .opened → (e < k.limit → c'.exposure = e ∧ c'.custody = .opened) ∧
          (k.limit ≤ e → c'.exposure = k.limit ∧ c'.custody = .expired)) ∧
        (c1.custody ≠ .opened → c'.exposure = c1.exposure ∧ c'.custody = c1.custody)
      (t < r.tLast → exec .setTime s = .next (s.withPart (p.refusedWith d .badArg))) ∧
      (r.tLast ≤ t → t < Config.timeNone → ∃ q, exec .setTime s = .next (s.withPart q) ∧
        q.tbu = clock ∧ q.flash = p.flash ∧ q.host = p.host ∧ q.prc = p.prc ∧ q.jnc.engine = .awaitTime ∧
        q.jnc.outage = t - r.tLast ∧ (∃ r', q.jnc.restore = some r' ∧ r'.reconciled = true) ∧
        (∀ i c, q.slot i = some c → c.settled = t) ∧ (∀ i, q.slot i = none ↔ p.slot i = none) ∧
        (∀ i c c', p.slot i = some c → q.slot i = some c' → charged i c c') ∧
        q.finishes { d with awaitRunning := true }
          { result := .ok, first := 0, second := 0, value := t - r.tLast }))

/-- R173, R4, R43: FORMAT reads the identification afresh. Where it may run, with the port free and nothing to commit, the
erase of sector 0 begins, with the serial one above the present one, or 1; the failure count is 0 from there (log 18).
Where it may not, WRONG_STATE; RESTORING and AWAIT_TIME are among these by the model's choice (log 61).
R173, R160: the erases run from sector 0 to 1023, then the FORMAT entry, whose flags byte shows no DOCKET (the model's choice,
log 79), and its mark are programmed at position 0 of sector 0. With the mark the tables stand at their FORMAT values, the engine is RUNNING, and the docket is OK with 1022 free sectors
and the serial. A second failure in a row leaves BLANK with the journal FAILED, and the docket WRONG_STATE, with both counts
and the value 0 (the model's choice, log 64). ENGINE is set by a change of the engine state and by the journal's failure
(R155, R169).
R75, R86, R87, R89, R96, R98: with the tables the probe records are OFF, the groups STEADY, and ON from a completed FORMAT;
their ready points at 0 ms (the model's choice, log 91); the bus queues are empty and an attempt under way goes on, its
outcome discarded; the door lines take their defaults with the levels of their pins (log 6), and the line holds, lamps and
patterns theirs. -/
def Obligations.FormatErasesFromSectorZero : Prop :=
  (∀ (s : State) (d : InHand) (id : Byte), s.part.tbu.mainPower = true → s.part.hands d .format →
    let p := { s.part with flash := { s.part.flash with idByte := id } }
    (id = 0x00#8 ∨ id = 0xFF#8 ∨ p.tbu.timeValid = false ∨ p.jnc.engine = .restoring ∨ p.jnc.engine = .awaitTime ∨
        (p.jnc.engine = .running ∧ ∃ i, p.slot i ≠ none) →
      exec (.format id) s = .next (s.withPart (p.refusedWith d .wrongState))) ∧
    (id ≠ 0x00#8 → id ≠ 0xFF#8 → p.tbu.timeValid = true →
      (p.jnc.engine = .blank ∨ (p.jnc.engine = .running ∧ ∀ i, p.slot i = none)) →
      p.jnc.port.job = none → p.jnc.port.suspended = none → p.jnc.queue = [] →
      let serial := match p.flash.formatEntry with
        | some (n, _) => (n + 1) % 4294967296
        | none => 1
      exec (.format id) s = .next (s.withPart { p with
        jnc := { p.jnc with format := some { stage := .erasing, serial := serial, time := p.now }, compaction := .idle
                            failures := 0
                            port := { p.jnc.port with job := some (.erase (.format 0)), since := p.now, elapsed := 0
                                                      timedOut := false } }
        exi := { p.exi with inHand := some { d with stage := .working } } }))) ∧
  (∀ (s : State) (d : InHand) (f : FormatRecord), s.part.tbu.mainPower = true →
     let p := s.part
     let j := p.jnc
     let starts (job : FlashJob) : FlashPort :=
       { j.port with job := some job, since := p.now, elapsed := 0, timedOut := false }
     let body := entryBody (.formatEntry f.serial) false 0 f.time
     let bus (r : ProbeBus) : ProbeBus := match r.poll with
       | some q => if r.phase.underWay then { r with fast := false, queue := [], poll := some { q with discarded := true } }
                   else ProbeBus.reset
       | none => ProbeBus.reset
     let tables (on : Bool) (q : Part) : Prop := q.ctu = Ctu.reset ∧ q.znu = Znu.reset ∧ q.dlu = Dlu.reset ∧
       q.prc = { probes := Vector.replicate 32 Probe.off, busA := bus p.prc.busA, busB := bus p.prc.busB
                 groups := Vector.replicate 4 { PowerGroup.reset with on := on } } ∧
       q.dou = { Dou.reset with lines := Vector.ofFn fun n => { DoorLine.reset with
         high := (p.line n).high, timer := if (p.line n).high then some 50 else none } } ∧
       q.tbu = p.tbu ∧ q.host = p.host ∧ q.exi.headerMark = true ∧ q.exi.zoneMarks = List.finRange 64 ∧
       q.exi.slotMarks = List.finRange 2048
     p.exi.inHand = some d → j.format = some f → j.closing = none → j.port.timedOut = false →
     (∀ n, j.port.job = some (.erase (.format n)) →
       let erased := { p.flash with cells := p.flash.cells.clear (n * 4096) 4096 }
       let done : Jnc := { j with failures := 0, notErased := j.notErased.filter (· != n) }
       (n < 1023 → exec (.eraseComplete .done) s = .next (s.withPart { p with
         flash := erased, jnc := { done with port := starts (.erase (.format (n + 1))) } })) ∧
       (n = 1023 → exec (.eraseComplete .done) s = .next (s.withPart { p with
         flash := erased
         jnc := { done with format := some { f with stage := .entry }, port := starts (.program .formatBody) } }))) ∧
     (j.port.job = some (.program .formatBody) → body.length = 63 →
       p.flash.cells.readBlock flashBlank 0 64 = List.replicate 64 flashBlank →
       exec (.programComplete .done) s = .next (s.withPart { p with
         flash := { p.flash with cells := p.flash.cells.write flashBlank 0 body }
         jnc := { j with failures := 0, port := starts (.program .formatMark) } })) ∧
     (j.port.job = some (.program .formatMark) →
       ∃ q, exec (.programComplete .done) s = .next (s.withPart q) ∧ tables true q ∧
         (p.jnc.engine = .running → q.exi.cause = p.exi.cause) ∧
         (p.jnc.engine ≠ .running → q.exi.cause.getLsbD 2 = true) ∧
         q.flash = { p.flash with cells := p.flash.cells.write flashBlank 63 [0] } ∧
         q.jnc = { Jnc.reset with engine := .running, serial := BitVec.ofNat 32 f.serial, notErased := []
                                  resetWaits := j.resetWaits } ∧
         q.finishes d { result := .ok, first := 1022, second := 0, value := (BitVec.ofNat 32 f.serial).toNat }) ∧
     (1 ≤ j.failures → f.stage = .erasing ∨ f.stage = .entry →
       let failed (x : Instr) : Prop := ∃ q, exec x s = .next (s.withPart q) ∧ tables false q ∧
         q.exi.cause.getLsbD 2 = true ∧ q.flash = p.flash ∧
         q.jnc.engine = .blank ∧ q.jnc.journal = .failed ∧ q.jnc.format = none ∧ q.jnc.queue = [] ∧
         q.finishes d (plainAnswer .wrongState)
       (∀ n, j.port.job = some (.erase (.format n)) → failed (.eraseComplete .latchClear)) ∧
       (j.port.job = some (.program .formatBody) ∨ j.port.job = some (.program .formatMark) →
         failed (.programComplete .latchClear))))

/-! ## Fire requests -/

/-- R131 to R134, R123, R124: the entry a pass takes next settles its container to the due. A WARN_DUE warns it and raises
the warned count; an EXPIRE_DUE makes it EXPIRED at its limit and raises the expired count, a rise for the board; a
BAKE_DUE at or after its bake's end completes it with no exposure left (one capped short of that end is the model's choice, log
98, and not stated). No other slot and no configuration changes. That the entry taken next lies beyond any that was placed
or moved to the pass's place or before it is the model's choice (log 104). An entry of another
kind stands, as does any with no pass, and a start with no pending pass (the model's choice, log 1). A pending pass starts
when none runs. -/
def Obligations.FireRequestsSettleAtTheDue : Prop :=
  ∀ s : State, s.part.tbu.mainPower = true →
    let p := s.part
    (∀ (g : Pass) (e : Due), p.dlu.pass = some g → passNext g p.dlu.entries = some e →
      (e.kind ≠ .warnDue → exec .warnDue s = .next s) ∧ (e.kind ≠ .expireDue → exec .expireDue s = .next s) ∧
      (e.kind ≠ .bakeDue → exec .bakeDue s = .next s) ∧
      (∀ c, p.slot e.slot = some c → (p.zone c.zone).change = none → p.jnc.closing = none → c.settled ≤ e.due →
        let k := p.classDef c.cls
        let dt := e.due - c.settled
        let fired (x : Instr) (own : Part → Container → Prop) : Prop := ∃ q c', exec x s = .next (s.withPart q) ∧
          q.slot e.slot = some c' ∧ p.sameOtherSlots e.slot q ∧ p.sameOutside q ∧ p.sameConfig q ∧ q.prc = p.prc ∧
          c'.id = c.id ∧ c'.zone = c.zone ∧ c'.settled = e.due ∧ own q c'
        (∀ m, c.custody = .opened → c.mode = .accrue m →
          (e.kind = .warnDue → c.warned = false → c.exposure + dt * m < k.limit →
            k.limit - (c.exposure + dt * m) ≤ k.warnTicks →
            fired .warnDue fun q c' => c'.warned = true ∧ c'.custody = .opened ∧ c'.exposure = c.exposure + dt * m ∧
              q.dlu.warnCount = p.dlu.warnCount + 1) ∧
          (e.kind = .expireDue → k.limit ≤ c.exposure + dt * m →
            fired .expireDue fun q c' => c'.custody = .expired ∧ c'.mode = .hold ∧ c'.exposure = k.limit ∧
              c'.expireDue = none ∧ q.dlu.expiredCount = p.dlu.expiredCount + 1 ∧
              (p.exi.intake = .on → q.exi.rise = true))) ∧
        (c.custody = .baking → c.mode = .bakeRun → e.kind = .bakeDue →
          k.bakeDuration * 60 - c.bakeProgress.getD 0 ≤ dt →
          fired .bakeDue fun _ c' => c'.custody = .opened ∧ c'.exposure = 0 ∧ c'.bakeCount = c.bakeCount + 1 ∧
            c'.bakedThisStay = true ∧ c'.bakeProgress = none ∧ c'.bakeRunStart = none))) ∧
    (p.dlu.pass = none → exec .warnDue s = .next s ∧ exec .expireDue s = .next s ∧ exec .bakeDue s = .next s ∧
      ∀ t, p.dlu.pendingPass = some t → exec .pendingPassStart s = .next (s.withPart { p with
        dlu := Dlu.checkPass { p.dlu with pass := some { time := t, reached := none, moved := [] }
                                          pendingPass := none } })) ∧
    (p.dlu.pass ≠ none ∨ p.dlu.pendingPass = none → exec .pendingPassStart s = .next s)

/-! ## Probes -/

/-- R78, R79, R87: in RUNNING an expired poll timer restarts; a probe already queued is late, up to 255; another joins its
bus queue, where an idle bus takes it up at once, switching its CYCLED group on first. A group's ready point lets the
attempts that wait for it begin. The timer of an unconfigured probe or outside RUNNING, and the ready point of a group that
is off, change nothing (the model's choice, log 1). -/
def Obligations.PollTimersQueueProbes : Prop :=
  ∀ (s : State), s.part.tbu.mainPower = true →
    let p := s.part
    (∀ (n : Fin 32) (c : ProbeConfig), (p.probe n).config = some c → p.jnc.engine = .running →
      let timed := { p.probe n with pollTimer := c.interval * 1000 }
      let poll : Poll := { probe := n, address := c.address, conversion := c.conversion, group := c.group
                           second := false, discarded := false }
      (p.queued n = true → exec (.pollTimerExpiry n) s =
        .next (s.withPart (p.setProbe n { timed with late := min 255 ((p.probe n).late + 1) }))) ∧
      (p.queued n = false → (p.bus c.bus).poll ≠ none → exec (.pollTimerExpiry n) s =
        .next (s.withPart ((p.setProbe n timed).setBus c.bus { p.bus c.bus with
          queue := (p.bus c.bus).queue ++ [n] }))) ∧
      (p.queued n = false → (p.bus c.bus).poll = none → (p.bus c.bus).queue = [] →
        (c.group = none → exec (.pollTimerExpiry n) s =
          .next (s.withPart ((p.setProbe n timed).setBus c.bus { p.bus c.bus with
            queue := [n], poll := some poll, phase := .start }))) ∧
        (∀ g, c.group = some g → (p.group g).cycled = true → (p.group g).on = false →
          exec (.pollTimerExpiry n) s =
            .next (s.withPart (((p.setProbe n timed).setGroup g { p.group g with on := true, ready := (p.group g).lead }
              ).setBus c.bus { p.bus c.bus with
                queue := [n], poll := some poll
                phase := if (p.group g).lead = 0 then .start else .awaitGroup }))))) ∧
    (∀ n, (p.probe n).config = none ∨ p.jnc.engine ≠ .running → exec (.pollTimerExpiry n) s = .next s) ∧
    (∀ g, (p.group g).on = true → ∃ q, exec (.groupReadyPoint g) s = .next (s.withPart q) ∧
      q = { p with prc := { p.prc with busA := q.prc.busA, busB := q.prc.busB
                                       groups := p.prc.groups.set g { p.group g with ready := 0 } } } ∧
      ∀ b, q.bus b = if (p.bus b).phase = .awaitGroup ∧ ((p.bus b).poll.bind (·.group)) = some g
        then { p.bus b with phase := .start } else p.bus b) ∧
    (∀ g, (p.group g).on = false → exec (.groupReadyPoint g) s = .next s)

/-- R84, R85, R58: in RUNNING a FRESH or DOUBTFUL probe whose stale time has come turns STALE with its failures left as
they are, and every zone that binds it is told once; before that time, and in another state, nothing changes. -/
def Obligations.StaleTimeTurnsProbeStale : Prop :=
  ∀ (s : State) (n : Fin 32) (reach : Reach), s.part.tbu.mainPower = true → s.part.jnc.closing = none →
    let p := s.part
    let r := p.probe n
    (p.jnc.engine = .running → r.state = .fresh ∨ r.state = .doubtful → r.staleTime ≤ p.now →
      ∃ q, exec (.staleTimeReached n reach) s = .next (s.withPart q) ∧ p.sameOutside q ∧
        q.probe n = { r with state := .stale, staleReported := true } ∧ (∀ m, m ≠ n → q.probe m = p.probe m) ∧
        q.prc.busA = p.prc.busA ∧ q.prc.busB = p.prc.busB ∧ q.prc.groups = p.prc.groups ∧
        (∀ z, (q.zone z).config = (p.zone z).config) ∧
        (r.staleReported = false → ∀ z, (p.zone z).config.probe = some n → (q.zone z).stale = true) ∧
        (r.staleReported = true → q.znu = p.znu)) ∧
    (p.jnc.engine ≠ .running ∨ r.state = .stale ∨ r.state = .off ∨ p.now < r.staleTime →
      exec (.staleTimeReached n reach) s = .next s)

/-- R80, R82: an attempt takes the speed the bus is set to, and waits while a line is held; then it sends the address for
writing and the request byte, waits the conversion time, and addresses the probe for reading. The first attempt that fails
records its kind and is retried after 100 ms; after a BUS_HELD with the data line low up to nine pulses come first. The bytes
sent and the pulses are the model's records (log 29); both request bytes stand in the first where the probe has not
acknowledged (the model's choice, log 54). -/
def Obligations.AttemptStepsOnTheBus : Prop :=
  ∀ (s : State) (b : Bus) (q : Poll) (reach : Reach), s.part.tbu.mainPower = true → (s.part.bus b).poll = some q →
    let p := s.part
    let r := p.bus b
    let write : List Byte := [BitVec.ofNat 8 (2 * q.address), 0x6E#8]
    let bus (r' : ProbeBus) : State := s.withPart (p.setBus b r')
    let retried (kind : ProbeFailure) (r' : ProbeBus) : State := s.withPart
      ((p.setProbe q.probe { p.probe q.probe with lastFailure := some kind }).setBus b { r' with
        poll := some { q with second := true }, phase := .retryGap 100 })
    (r.phase = .start →
      let begun := { r with attemptFast := r.fast, sent := [], phase := .awaitFree 0 }
      exec (.pollAttemptStart b .linesHeld reach) s = .next (bus begun) ∧
      exec (.pollAttemptStart b .acknowledged reach) s =
        .next (bus { begun with sent := write, phase := .converting q.conversion }) ∧
      (q.discarded = false → q.second = false →
        exec (.pollAttemptStart b .notAcknowledged reach) s = .next (retried .noAckRequest { begun with sent := write }))) ∧
    (∀ ms, r.phase = .awaitFree ms →
      exec (.probeBusFree b true reach) s =
        .next (bus { r with sent := write, phase := .converting q.conversion }) ∧
      (q.discarded = false → q.second = false →
        exec (.probeBusFree b false reach) s = .next (retried .noAckRequest { r with sent := write }))) ∧
    (∀ ms, r.phase = .converting ms →
      let sent := r.sent ++ [BitVec.ofNat 8 (2 * q.address + 1)]
      exec (.conversionTimeExpiry b true reach) s = .next (bus { r with sent := sent, phase := .reading }) ∧
      (q.discarded = false → q.second = false →
        exec (.conversionTimeExpiry b false reach) s = .next (retried .noAckRead { r with sent := sent }))) ∧
    (q.discarded = false → q.second = false →
      (∃ ms, r.phase = .awaitFree ms) ∨ (∃ ms, r.phase = .converting ms) ∨ r.phase = .reading →
      exec (.busHeld b reach) s = .next (retried .busHeld r)) ∧
    (∀ ms n, r.phase = .retryGap ms →
      exec (.retryGapExpiry b none) s = .next (bus { r with phase := .start, pulses := 0 }) ∧
      exec (.retryGapExpiry b (some n)) s = .next (bus { r with
        phase := .start, pulses := if (p.probe q.probe).lastFailure = some .busHeld then min n 9 else 0 }))

/-- R81, R83, R85, R79: six bytes judged good make the probe FRESH with its reading, and every zone that binds it holds
that reading; the probe leaves its queue. A response that reports a sensor fault, is not ready, or repeats the last count
fails the attempt, in that order; a second failed attempt ends the poll, and the third failed poll in a row, or any while
STALE, leaves the probe STALE.
R62, R121, R122, R125: a temperature that reaches a ready oven settles its BAKING member, here the only one; one above the
class's maximum leaves it QUARANTINED with cause OVERHEAT, and otherwise the bake runs exactly at or above the class's
temperature and is paused below it. -/
def Obligations.ResponseEndsThePoll : Prop :=
  ∀ (s : State) (b : Bus) (q : Poll) (c : ProbeConfig) (x : ProbeBytes) (reach : Reach), s.part.tbu.mainPower = true →
    let p := s.part
    let r := p.probe q.probe
    (p.bus b).phase = .reading → (p.bus b).poll = some q → q.discarded = false → q.group = none →
    (p.bus b).queue = [q.probe] → r.config = some c → p.jnc.closing = none →
    let idle : ProbeBus := { p.bus b with queue := [], poll := none, phase := .idle }
    let v : Reading := {
      temp := max (-400) (min 1500 (ofSigned16 (x.tempHigh.toNat * 256 + x.tempLow.toNat)))
      rh := min 1000 (x.rhHigh.toNat * 256 + x.rhLow.toNat) }
    let kind : Option ProbeFailure := if x.status.getLsbD 1 = true then some .sensorFault
      else if x.status.getLsbD 0 = false then some .notReady
      else if r.lastCount = some x.count then some .sameCount else none
    (kind = none → ∃ t, exec (.probeResponse b x reach) s = .next (s.withPart t) ∧ p.sameOutside t ∧
      t.bus b = idle ∧ (∀ m, m ≠ q.probe → t.probe m = p.probe m) ∧ t.prc.groups = p.prc.groups ∧
      t.probe q.probe = { r with state := .fresh, held := some v, lastCount := some x.count, failures := 0
                                 readingTime := some p.now, staleTime := p.now + 3 * c.interval
                                 staleReported := false } ∧
      (∀ z, (p.zone z).config.probe = some q.probe → (t.zone z).held = some v ∧ (t.zone z).stale = false) ∧
      (∀ z, (p.zone z).config.probe ≠ some q.probe → (t.zone z).held = (p.zone z).held) ∧
      (∀ z i c, p.zonesOfProbe q.probe = [z] → (p.zone z).config.kind = .oven → (p.zone z).condition = some .ovenReady →
        (p.zone z).doorOpen = false → (p.zone z).busy = false → (p.zone z).members = [i] → p.slot i = some c →
        c.zone = z → c.custody = .baking →
        let k := p.classDef c.cls
        let c1 := (settleRecord k p.now c).1
        ∃ c', t.slot i = some c' ∧ p.sameOtherSlots i t ∧ c'.id = c.id ∧ c'.zone = z ∧ c'.settled = c1.settled ∧
          c'.exposure = c1.exposure ∧ c'.bakeCount = c1.bakeCount ∧
          (c1.custody ≠ .baking → c'.custody = c1.custody) ∧
          (c1.custody = .baking → (k.bakeMax : Int) < v.temp → c'.custody = .quarantined ∧
            c'.quarantineCause = some .overheat ∧ c'.bakeProgress = none ∧ c'.bakeRunStart = none) ∧
          (c1.custody = .baking → v.temp ≤ (k.bakeMax : Int) → c'.custody = .baking ∧
            (c'.mode = .bakeRun ↔ (k.bakeTemp : Int) ≤ v.temp) ∧
            (c'.mode = .bakePause ↔ v.temp < (k.bakeTemp : Int))))) ∧
    (∀ k, kind = some k → q.second = false → exec (.probeResponse b x reach) s = .next (s.withPart
      ((p.setProbe q.probe { r with lastFailure := some k }).setBus b { p.bus b with
        poll := some { q with second := true }, phase := .retryGap 100 }))) ∧
    (∀ k, kind = some k → q.second = true →
      let n := if r.state = .stale then 3 else min 3 (r.failures + 1)
      ∃ t, exec (.probeResponse b x reach) s = .next (s.withPart t) ∧ p.sameOutside t ∧ t.bus b = idle ∧
        t.probe q.probe = { r with lastFailure := some k, failures := n
                                   state := if n = 3 then .stale else .doubtful
                                   staleReported := if n = 3 then true else r.staleReported } ∧
        (n = 3 → r.staleReported = false →
          ∀ z, (p.zone z).config.probe = some q.probe → (t.zone z).stale = true) ∧
        (n ≠ 3 → t.znu = p.znu ∧ t.exi = p.exi ∧ t.jnc = p.jnc))

/-! ## Zones -/

/-- R53, R56, R60, R61, R62: the condition an evaluation gives. A FLOOR or LINE zone is EXPOSING at the multiplier of the first
enabled cell of the walk from its bands, which is its walked cell; or at the ceiling, with CEILING_USED, when its reading
is absent, its probe is stale or the walk finds none. A DRY zone is DRYING at its credit rate while its reading is present
and dry enough, its door closed and its probe not stale; else DRY_FAILED at its reference's rate, or at the ceiling when it
has no reference, with CEILING_USED set in that case alone; its bands are evaluated all the same. An OVEN is READY while it
has a reading, its door is closed and its probe is not stale; else it is PAUSED. -/
def Obligations.EvaluationDecidesTheCondition : Prop :=
  ∀ (p : Part) (r : Zone),
    let got := (p.evaluated r).2
    let own := (p.evaluated r).1
    let ceiling := p.znu.settings.ceiling
    let atCeiling : Prop := got = some (.exposing ceiling) ∧ own.ceilingUsed = true ∧ own.walked = none
    (r.config.kind = .unused → got = none) ∧
    (r.config.kind = .floor ∨ r.config.kind = .line →
      (r.stale = true ∨ r.held = none → atCeiling) ∧
      (∀ b, r.stale = false → r.held ≠ none → p.znu.bandsOf r = some b →
        (∀ t h, (p.znu.cell (t, h)).enabled = true → b.1 ≤ t → b.2 ≤ h →
          (∀ t' h', b.1 ≤ t' → b.2 ≤ h' → t' < t ∨ (t' = t ∧ h' < h) → (p.znu.cell (t', h')).enabled = false) →
          got = some (.exposing (p.znu.cell (t, h)).mult) ∧ own.ceilingUsed = false ∧ own.walked = some (t, h)) ∧
        ((∀ t h, b.1 ≤ t → b.2 ≤ h → (p.znu.cell (t, h)).enabled = false) → atCeiling))) ∧
    (r.config.kind = .dry →
      own.bands = p.znu.bandsOf r ∧
      (∀ v, r.held = some v → v.rh ≤ r.config.dryThreshold → r.doorOpen = false → r.stale = false →
        got = some (.drying r.config.creditRate) ∧ own.ceilingUsed = false) ∧
      (r.held = none ∨ (∃ v, r.held = some v ∧ r.config.dryThreshold < v.rh) ∨ r.doorOpen = true ∨ r.stale = true →
        (∀ f, r.config.reference = some f →
          got = some (.dryFailed (conditionRate (p.zone f).condition)) ∧ own.ceilingUsed = false) ∧
        (r.config.reference = none → got = some (.dryFailed ceiling) ∧ own.ceilingUsed = true))) ∧
    (r.config.kind = .oven →
      (got = some .ovenReady ↔ r.held ≠ none ∧ r.doorOpen = false ∧ r.stale = false) ∧
      (got = some .ovenPaused ↔ r.held = none ∨ r.doorOpen = true ∨ r.stale = true))

/-- R67, R66: a change in progress reaches the members it has left, and is dropped; then the earliest of the waiting triggers
leaves, the reading before the door and both before the configuration at the same second, and the zone is evaluated on its
record as it then stands (the model's choice, log 65); the triggers of the other sources wait on. With none waiting
and no change the command has no effect (the model's choice, log 1). A command given no reach carries the change it makes
to every member (the model's choice, log 9).
R65, R66, R17, R18: a condition change stages a ZONE_CONDITION, and each member is settled to the condition time under the
mode it had; then it takes the mode that the new condition gives its custody. An OPEN one in a zone that has become DRYING
takes the credit decision on its exposure then, and one in a zone that stays DRYING keeps it. A BAKING one in an oven that is
READY runs or pauses by the temperature held when it is reached (the model's choice, log 92). -/
def Obligations.WaitingTriggerIsTakenEarliestFirst : Prop :=
  ∀ (s : State) (z : Fin 64) (reach : Reach), s.part.tbu.mainPower = true → s.part.jnc.closing = none →
    let p := s.part
    let r := p.zone z
    let reaches (old new : Option Condition) (T : Nat) (i : Fin 2048) (q : Part) : Prop :=
      ∀ c, p.slot i = some c → c.zone = z →
        let k := p.classDef c.cls
        let c1 := (settleRecord k T c).1
        ∃ c', q.slot i = some c' ∧ c'.id = c.id ∧ c'.zone = z ∧ c'.custody = c1.custody ∧ c'.exposure = c1.exposure ∧
          c'.settled = max c.settled T ∧ c'.bakeCount = c1.bakeCount ∧ c'.warned = (warnRecord k c1).1.warned ∧
          (∀ m, new = some (.exposing m) ∨ new = some (.dryFailed m) →
            c'.mode = if c1.custody = .opened ∨ c1.custody = .quarantined then .accrue m else .hold) ∧
          (∀ x, new = some (.drying x) →
            (c1.custody ≠ .opened → c'.mode = .hold) ∧
            (c1.custody = .opened → (∀ w, old ≠ some (.drying w)) →
              c'.mode = if 0 < k.ceiling ∧ c1.exposure ≤ k.creditLimit then .credit x else .hold) ∧
            (c1.custody = .opened → ∀ w, old = some (.drying w) → (∀ y, c1.mode = .credit y → c'.mode = .credit x) ∧
              ((∀ y, c1.mode ≠ .credit y) → c'.mode = .hold))) ∧
          (new = some .ovenPaused → c'.mode = if c1.custody = .baking then .bakePause else .hold) ∧
          (new = some .ovenReady → (c1.custody ≠ .baking → c'.mode = .hold) ∧
            ∀ v, c1.custody = .baking → r.held = some v →
              c'.mode = if (k.bakeTemp : Int) ≤ v.temp ∧ v.temp ≤ (k.bakeMax : Int) then .bakeRun else .bakePause)
    (r.waitReading = none → r.waitDoor = none → r.waitConfig = none →
      (r.change = none → exec (.waitingTriggerTaken z reach) s = .next s) ∧
      (∀ h, r.change = some h → h.remaining ≠ [] → ∃ q, exec (.waitingTriggerTaken z reach) s = .next (s.withPart q) ∧
        p.sameOutside q ∧ (q.zone z).change = none ∧ (q.zone z).condition = r.condition ∧
        (∀ i ∈ h.remaining, reaches h.old r.condition h.time i q) ∧ (∀ j, j ∉ h.remaining → q.slot j = p.slot j) ∧
        (∀ y, (q.zone y).config = (p.zone y).config) ∧ q.prc = p.prc)) ∧
    ((∀ h, r.change = some h → h.remaining ≠ []) → p.dryZonesOf z = [] →
    (∀ a, r.waitReading = some a → (∀ b, r.waitDoor = some b → a.time ≤ b.time) →
      (∀ b, r.waitConfig = some b → a.time ≤ b.time) →
      ∃ q, exec (.waitingTriggerTaken z reach) s = .next (s.withPart q) ∧ p.sameOutside q ∧
        (q.zone z).waitReading = none ∧ (q.zone z).waitDoor = r.waitDoor ∧ (q.zone z).waitConfig = r.waitConfig ∧
        (q.zone z).condition = (p.evaluated r).2 ∧
        (q.zone z).conditionTime = (if (p.evaluated r).2 = r.condition then r.conditionTime
          else max a.time r.conditionTime) ∧
        (q.zone z).members = r.members ∧ (∀ y, (q.zone y).config = (p.zone y).config) ∧ q.prc = p.prc ∧
        (reach = none → (q.zone z).change = none) ∧
        (r.change = none → (p.evaluated r).2 = r.condition → q.ctu = p.ctu) ∧
        (r.change = none → (p.evaluated r).2 ≠ r.condition →
          (reach = none → ∀ i ∈ r.members,
            reaches r.condition (p.evaluated r).2 (max a.time r.conditionTime) i q) ∧
          (p.journalTakes → p.jnc.engine = .running → ∃ images, q.jnc.queue = p.jnc.queue ++
            { payload := .zoneCondition z (q.zone z).conditionImage, time := p.now, owner := .internal } :: images))) ∧
    (∀ b, r.waitDoor = some b → (∀ a, r.waitReading = some a → b.time < a.time) →
      (∀ a, r.waitConfig = some a → b.time ≤ a.time) →
      ∃ q, exec (.waitingTriggerTaken z reach) s = .next (s.withPart q) ∧ p.sameOutside q ∧
        (q.zone z).waitDoor = none ∧ (q.zone z).waitReading = r.waitReading ∧ (q.zone z).waitConfig = r.waitConfig ∧
        (q.zone z).condition = (p.evaluated r).2 ∧ (∀ y, (q.zone y).config = (p.zone y).config) ∧ q.prc = p.prc) ∧
    (∀ b, r.waitConfig = some b → (∀ a, r.waitReading = some a → b.time < a.time) →
      (∀ a, r.waitDoor = some a → b.time < a.time) →
      ∃ q, exec (.waitingTriggerTaken z reach) s = .next (s.withPart q) ∧ p.sameOutside q ∧
        (q.zone z).waitConfig = none ∧ (q.zone z).waitReading = r.waitReading ∧ (q.zone z).waitDoor = r.waitDoor ∧
        (q.zone z).condition = (p.evaluated r).2 ∧ (∀ y, (q.zone y).config = (p.zone y).config) ∧ q.prc = p.prc ∧
        (b.own = false → q.jnc.waiting = p.jnc.waiting) ∧
        ∀ f, q.exi.inHand = some f → z ∉ f.triggers))

/-! ## The journal -/

/-- R162, R163, R166: entries enter the staging queue at its tail, stamped with the engine second. A docket's oldest
waiting retire entry is staged once it has its place, and so is its ZONE_IMAGE, with the zone as it stood when it was
offered (R51); a TIME_MARK is staged 60 s after the last one; a resync stages
its DROP_MARK, its dirty zones in ascending order and, with no zone or container dirty, its RESYNC_END, one at a time
while the queue holds fewer than 32.
R166: with no zone dirty it stages the image of the dirty container of the lowest slot, settled to now, with any warning,
clearing or expiry carried through in that image alone; the container's mark is cleared.
R164: an internal entry that finds all 96 places full, or staging held for compaction, is dropped: the drop time is the engine
second, or stands where an earlier one does; the object of the entry is marked journal-dirty, a ZONE_CONDITION's zone with
every container in its member list; and the journal is in RESYNC, which is posted. So it goes with a TIME_MARK at its 60 s,
which marks nothing. A DOCKET_STAGING_RESUME with nothing waiting or no place, and a RESYNC_STAGE outside a
resync or with 32 entries or more, change nothing (the model's choice, log 1), nor does a TIME_MARK_INTERVAL before its 60 s
(log 28). -/
def Obligations.EntriesAreStagedInOrder : Prop :=
  ∀ s : State, s.part.tbu.mainPower = true →
    let p := s.part
    p.jnc.closing = none → p.jnc.format = none →
    (∀ n id rest, p.jnc.journal ≠ .failed → p.jnc.waiting = .retire n id :: rest →
      (p.docketEntries + 1 ≤ 64 → p.jnc.queue.length + 1 ≤ 96 → 4 < p.jnc.freeCount →
        ∃ q, exec .docketStagingResume s = .next (s.withPart q) ∧ q = { p with jnc := q.jnc } ∧
          q.jnc.waiting = rest ∧
          q.jnc.queue = p.jnc.queue ++ [{ payload := .retireEntry n id, time := p.now, owner := .docket }]) ∧
      (64 < p.docketEntries + 1 ∨ 96 < p.jnc.queue.length + 1 ∨ p.jnc.freeCount ≤ 4 →
        exec .docketStagingResume s = .next s)) ∧
    (∀ z i rest, p.jnc.journal = .ok → p.jnc.waiting = .zone z i :: rest → p.docketEntries + 1 ≤ 64 →
      p.jnc.queue.length + 1 ≤ 96 → 4 < p.jnc.freeCount →
      ∃ q, exec .docketStagingResume s = .next (s.withPart q) ∧ q = { p with jnc := q.jnc } ∧ q.jnc.waiting = rest ∧
        q.jnc.queue = p.jnc.queue ++ [{ payload := .zoneImage z i, time := p.now, owner := .docket }]) ∧
    (p.jnc.waiting = [] → exec .docketStagingResume s = .next s) ∧
    (p.jnc.engine = .running → 60 ≤ p.jnc.sinceMark → p.jnc.journal ≠ .failed → p.jnc.queue.length < 96 →
      4 < p.jnc.freeCount →
      ∃ q, exec .timeMarkInterval s = .next (s.withPart q) ∧ q = { p with jnc := q.jnc } ∧ q.jnc.sinceMark = 0 ∧
        q.jnc.queue = p.jnc.queue ++ [{ payload := .timeMark none, time := p.now, owner := .internal }]) ∧
    (p.jnc.sinceMark < 60 → exec .timeMarkInterval s = .next s) ∧
    (p.jnc.engine = .running → p.jnc.journal ≠ .failed → 96 ≤ p.jnc.queue.length ∨ p.jnc.freeCount ≤ 4 →
      let dropped : Jnc := { p.jnc with journal := .resync, dropTime := some (p.jnc.dropTime.getD p.now)
                                        endStaged := false }
      let posted : Bool := p.exi.headerMark || p.jnc.journal != .resync
      (60 ≤ p.jnc.sinceMark → exec .timeMarkInterval s = .next (s.withPart { p with
        jnc := dropped, exi := { p.exi with headerMark := posted } })) ∧
      ∀ pl : Payload,
        let q := p.offerInternal pl
        let marksSlot (i : Fin 2048) : Prop := (∃ g, pl = .containerImage g ∧ g.slot = i) ∨
          ∃ z g, pl = .zoneCondition z g ∧ i ∈ (p.zone z).members
        let marksZone (z : Fin 64) : Prop := (∃ g, pl = .zoneImage z g) ∨ ∃ g, pl = .zoneCondition z g
        q = { p with jnc := dropped, exi := { p.exi with headerMark := posted }
                     ctu := { p.ctu with slots := q.ctu.slots }, znu := { p.znu with zones := q.znu.zones } } ∧
        (∀ i, (marksSlot i → q.slot i = (p.slot i).map fun c => { c with dirty := true }) ∧
          (¬marksSlot i → q.slot i = p.slot i)) ∧
        ∀ z, (marksZone z → q.zone z = { p.zone z with dirty := true }) ∧ (¬marksZone z → q.zone z = p.zone z)) ∧
    (p.jnc.engine = .running → p.jnc.journal = .resync → 4 < p.jnc.freeCount → p.jnc.queue.length < 32 →
      (∀ t, p.jnc.dropTime = some t → ∃ q, exec .resyncStage s = .next (s.withPart q) ∧ q = { p with jnc := q.jnc } ∧
        q.jnc.dropTime = none ∧ q.jnc.markStaged = true ∧
        q.jnc.queue = p.jnc.queue ++ [{ payload := .dropMark t, time := p.now, owner := .resync }]) ∧
      (p.jnc.dropTime = none → p.jnc.markStaged = true →
        (∀ z, (p.zone z).dirty = true → (∀ y, y < z → (p.zone y).dirty = false) →
          ∃ q, exec .resyncStage s = .next (s.withPart q) ∧
            q = { p with jnc := q.jnc, znu := { p.znu with zones := p.znu.zones.set z { p.zone z with dirty := false } } } ∧
            q.jnc.queue = p.jnc.queue ++
              [{ payload := .zoneImage z (p.zone z).image, time := p.now, owner := .resync }]) ∧
        (∀ i c, (∀ z, (p.zone z).dirty = false) → p.slot i = some c → c.dirty = true →
          (∀ j d, j < i → p.slot j = some d → d.dirty = false) → (p.zone c.zone).change = none →
          let k := p.classDef c.cls
          let c1 := (settleRecord k p.now c).1
          ∃ q c', exec .resyncStage s = .next (s.withPart q) ∧ q.slot i = some c' ∧ p.sameOtherSlots i q ∧
            p.sameOutside q ∧ p.sameConfig q ∧ q.prc = p.prc ∧
            c' = { (p.deriveRecord true c1).1 with dirty := false } ∧ c'.id = c.id ∧ c'.zone = c.zone ∧
            c'.exposure = c1.exposure ∧ c'.custody = c1.custody ∧ c'.bakeCount = c1.bakeCount ∧
            c'.warned = (warnRecord k c1).1.warned ∧ c'.settled = max c.settled p.now ∧
            q.jnc.dropTime = none ∧
            q.jnc.queue = p.jnc.queue ++
              [{ payload := .containerImage (imageOf i c'), time := p.now, owner := .resync }]) ∧
        ((∀ z, (p.zone z).dirty = false) → (∀ i c, p.slot i = some c → c.dirty = false) → p.jnc.endStaged = false →
          ∃ q, exec .resyncStage s = .next (s.withPart q) ∧ q = { p with jnc := q.jnc } ∧ q.jnc.endStaged = true ∧
            q.jnc.queue = p.jnc.queue ++ [{ payload := .resyncEnd, time := p.now, owner := .resync }]))) ∧
    (p.jnc.journal ≠ .resync ∨ 32 ≤ p.jnc.queue.length ∨ p.jnc.freeCount ≤ 4 → exec .resyncStage s = .next s)

/-- R158, R159, R161: a page program that finishes on a blank position puts its bytes into the flash; the 63 bytes of an
entry are followed by its commit mark, and the mark commits the queue's oldest entry, here its last, which takes the
next sequence number and position. A clear latch is a failure: the first tries the next position, the second makes the
journal FAILED with its queue discarded, and a docket that has finished with no entry of it left to commit is durable: its
answer will carry no NOT_DURABLE (R149).
R160: the commit at position 63 leads on at once to the next sector of the ring, though no entry waits (the moment is the
model's choice, log 60): one not known to be erased is
erased first; its SECTOR_HEAD, with the second its program began as its entry time (the model's
choice, log 15), is programmed at position 0, and with its mark the sector is open and the free count one
lower. A ring with no free sector waits. -/
def Obligations.ProgramsCommitTheOldestEntry : Prop :=
  (∀ s : State, s.part.tbu.mainPower = true →
    let p := s.part
    let j := p.jnc
    let a := j.headSector * 4096 + j.headPos * 64
    ∀ (e : Staged) (rest : List Staged), j.queue = e :: rest → j.closing = none → j.format = none →
      j.journal ≠ .failed → j.sectorOpen = true → j.port.timedOut = false → j.port.suspended = none →
    (j.port.job = some (.program .entryBody) →
      let bytes := entryBody e.payload (e.owner == .docket) j.nextSeq.toNat e.time
      p.flash.cells.readBlock flashBlank a 64 = List.replicate 64 flashBlank → bytes.length = 63 →
      exec (.programComplete .done) s = .next (s.withPart { p with
        flash := { p.flash with cells := p.flash.cells.write flashBlank a bytes }
        jnc := { j with failures := 0, port := { j.port with
          job := some (.program .entryMark), since := p.now, elapsed := 0, timedOut := false } } })) ∧
    (j.port.job = some (.program .entryMark) → (∀ t, e.payload ≠ .dropMark t) → e.payload ≠ .resyncEnd →
      rest = [] →
      let committed : Part := { p with
        flash := { p.flash with cells := p.flash.cells.write flashBlank (a + 63) [0] }
        jnc := { j with
          failures := 0, queue := [], nextSeq := j.nextSeq + 1, headPos := j.headPos + 1
          newest := match e.payload.object with
            | some o => (o, j.headSector) :: j.newest.filter (fun r => r.1 != o)
            | none => j.newest
          port := { j.port with job := none, elapsed := 0, timedOut := false } } }
      let next := if j.headSector = 1023 then 1 else j.headSector + 1
      let opens (own : Jnc) (job : FlashJob) : Part := { committed with jnc := { own with port := { j.port with
        job := some job, since := p.now, elapsed := 0, timedOut := false } } }
      (j.headPos + 1 < 64 ∨ next = j.tail → exec (.programComplete .done) s = .next (s.withPart committed)) ∧
      (64 ≤ j.headPos + 1 → next ≠ j.tail →
        (next ∈ j.notErased → exec (.programComplete .done) s =
          .next (s.withPart (opens committed.jnc (.erase (.opening next))))) ∧
        (next ∉ j.notErased → exec (.programComplete .done) s = .next (s.withPart (opens { committed.jnc with
          headSector := next, headPos := 0, sectorOpen := false, sectorCounted := false
          notErased := next :: j.notErased } (.program .headBody)))))) ∧
    (j.port.job = some (.program .entryBody) ∨ j.port.job = some (.program .entryMark) →
      (j.failures = 0 → j.headPos + 1 < 64 →
        exec (.programComplete .latchClear) s = .next (s.withPart { p with
          jnc := { j with failures := 1, headPos := j.headPos + 1, port := { j.port with
            job := some (.program .entryBody), since := p.now, elapsed := 0, timedOut := false } } })) ∧
      (1 ≤ j.failures → ∃ q, exec (.programComplete .latchClear) s = .next (s.withPart q) ∧
        q.exi.cause.getLsbD 2 = true ∧ p.handAfterFailure q ∧
        q = { p with
          jnc := { j with journal := .failed, failures := 2, queue := [], waiting := [], compaction := .idle
                          port := .reset }
          exi := { p.exi with inHand := q.exi.inHand, headerMark := true, cause := q.exi.cause
                              messages := q.exi.messages } }))) ∧
  (∀ s : State, s.part.tbu.mainPower = true →
     let p := s.part
     let j := p.jnc
     let a := j.headSector * 4096 + j.headPos * 64
     let body := entryBody (.sectorHead j.serial.toNat j.nextSeq.toNat) false 0 j.port.since
     j.queue = [] → j.closing = none → j.format = none → j.journal ≠ .failed → j.sectorOpen = false →
     j.port.timedOut = false → j.port.suspended = none → j.headPos < 63 →
     (j.port.job = some (.program .headBody) → body.length = 63 →
       p.flash.cells.readBlock flashBlank a 64 = List.replicate 64 flashBlank →
       exec (.programComplete .done) s = .next (s.withPart { p with
         flash := { p.flash with cells := p.flash.cells.write flashBlank a body }
         jnc := { j with failures := 0, port := { j.port with
           job := some (.program .headMark), since := p.now, elapsed := 0, timedOut := false } } })) ∧
     (j.port.job = some (.program .headMark) → exec (.programComplete .done) s = .next (s.withPart { p with
       flash := { p.flash with cells := p.flash.cells.write flashBlank (a + 63) [0] }
       exi := { p.exi with headerMark := p.exi.headerMark || !j.sectorCounted }
       jnc := { j with
         failures := 0, sectorOpen := true, sectorCounted := true, headPos := j.headPos + 1
         freeCount := if j.sectorCounted = true then j.freeCount else j.freeCount - 1
         port := { j.port with job := none, elapsed := 0, timedOut := false } } })))

/-- R158, R159: an operation that outlasts its timer counts as a failure and is waited out; busy past the bound makes the
journal FAILED and sets ENGINE, and so does the second clear latch of an erase. A docket that has finished with no entry of it
left to commit is durable then: its answer will carry no NOT_DURABLE (R149). A commit that waits behind a compaction's
erase suspends it and is served. With no operation past its timer, or nothing to suspend an erase for, the commands change
nothing (the model's choice, log 1).
R174: after a power-fail warning the erase is suspended although no commit waits, and the last TIME_MARK is staged and begun,
at every free count, also where R163 holds staging for compaction (the model's choice, log 81); a suspend that fails then counts as a failure too. -/
def Obligations.FlashFailuresAndSuspend : Prop :=
  ∀ s : State, s.part.tbu.mainPower = true →
    let p := s.part
    let j := p.jnc
    let failed (n : Nat) (q : Part) : Prop := q.exi.cause.getLsbD 2 = true ∧ p.handAfterFailure q ∧ q = { p with
      jnc := { j with journal := .failed, failures := n, queue := [], waiting := [], compaction := .idle, port := .reset }
      exi := { p.exi with inHand := q.exi.inHand, headerMark := true, cause := q.exi.cause, messages := q.exi.messages } }
    (∀ n, j.port.job = some (.erase (.compaction n)) → j.port.timedOut = false → j.queue = [] → j.sectorOpen = true →
      j.headPos < 64 → j.journal ≠ .failed → j.format = none → j.engine = .running →
      j.closing = some { recover := false, marked := false } →
      exec .eraseSuspend s = .next (s.withPart { p with jnc := { j with
        queue := [{ payload := .timeMark none, time := p.now, owner := .internal }], sinceMark := 0
        closing := some { recover := false, marked := true }
        port := {
          job := some (.program .entryBody), since := p.now, elapsed := 0, timedOut := false
          suspended := some (.compaction n), suspendedMs := j.port.elapsed } } }) ∧
      (j.failures = 0 → exec (.flashTimeout .suspend) s = .next (s.withPart { p with
        jnc := { j with failures := 1, port := { j.port with timedOut := true, elapsed := 0 } } }))) ∧
    (j.closing = none → j.format = none →
    (∀ e, j.port.job = some (.erase e) → j.port.timedOut = false → 1 ≤ j.failures →
      ∃ q, exec (.eraseComplete .latchClear) s = .next (s.withPart q) ∧ failed 2 q) ∧
    (∀ op, j.port.timedOut = false →
      (∃ x, j.port.job = some (.program x) ∧ op = .program) ∨ (∃ x, j.port.job = some (.erase x) ∧ op = .erase) ∨
        (∃ n, j.port.job = some (.erase (.compaction n)) ∧ op = .suspend ∧ j.queue ≠ []) →
      (j.failures = 0 → exec (.flashTimeout op) s = .next (s.withPart { p with
        jnc := { j with failures := 1, port := { j.port with timedOut := true, elapsed := 0 } } })) ∧
      (1 ≤ j.failures → ∃ q, exec (.flashTimeout op) s = .next (s.withPart q) ∧ failed 2 q)) ∧
    (j.port.timedOut = true → j.port.job ≠ none →
      ∃ q, exec .busyOutlastsBound s = .next (s.withPart q) ∧ failed j.failures q) ∧
    (j.port.timedOut = false → exec .busyOutlastsBound s = .next s) ∧
    (∀ n, j.port.job = some (.erase (.compaction n)) → j.port.timedOut = false → j.queue ≠ [] → j.sectorOpen = true →
      j.headPos < 64 → j.journal ≠ .failed →
      exec .eraseSuspend s = .next (s.withPart { p with jnc := { j with port := {
        job := some (.program .entryBody), since := p.now, elapsed := 0, timedOut := false
        suspended := some (.compaction n), suspendedMs := j.port.elapsed } } })) ∧
    (j.queue = [] → exec .eraseSuspend s = .next s))

/-- R167, R158: compaction. Below 16 free sectors, with the port holding no operation and no suspended erase, a container
that alone has its newest entry in the tail sector is imaged afresh, and with none there the imaging is done; while the port
holds one, nothing is read and the command has no effect (the model's choice, log 1), as with 16 free sectors or more. A
DROP_MARK still to be staged is dropped once its resync has ended (the model's choice, log 78). Once the images
have committed a TIME_MARK naming the tail is staged; once it has committed the tail is erased; and the erase that ends
makes the sector free and moves the tail on. An erase that fails is begun again, but after the commits that wait behind it:
the port serves these first, and the tail is again to be erased (the model's reading, log 14). -/
def Obligations.CompactionFreesTheTailSector : Prop :=
  ∀ s : State, s.part.tbu.mainPower = true →
    let p := s.part
    let j := p.jnc
    j.closing = none → j.format = none → j.journal = .ok → j.engine = .running →
    (j.compaction = .idle → 16 ≤ j.freeCount → exec .compactionImages s = .next s) ∧
    (j.compaction = .idle → j.port.job ≠ none ∨ j.port.suspended ≠ none → exec .compactionImages s = .next s) ∧
    (∀ t, j.compaction = .imaging [] (some t) → ∃ q, exec .compactionImages s = .next (s.withPart q) ∧
      q = { p with jnc := q.jnc } ∧ q.jnc.compaction = .imaging [] none ∧ q.jnc.queue = j.queue) ∧
    (j.compaction = .idle → j.freeCount < 16 → j.port.job = none → j.port.suspended = none → j.queue.length < 32 →
      (∀ r ∈ j.newest, r.2 ≠ j.tail) →
      ∃ q, exec .compactionImages s = .next (s.withPart q) ∧ q = { p with jnc := q.jnc } ∧
        q.jnc.compaction = .imaging [] none ∧ q.jnc.queue = j.queue) ∧
    (∀ n c, j.compaction = .idle → j.freeCount < 16 → j.port.job = none → j.port.suspended = none →
      j.queue.length < 32 → p.slot n = some c →
      (j.newest.filter fun r => r.2 == j.tail) = [(.slot n, j.tail)] →
      ∃ q, exec .compactionImages s = .next (s.withPart q) ∧ q = { p with jnc := q.jnc } ∧
        q.jnc.compaction = .imaging [] none ∧ q.jnc.queue = j.queue ++
          [{ payload := .containerImage (imageOf n c), time := p.now, owner := .compaction }]) ∧
    (j.compaction = .imaging [] none → (∀ e ∈ j.queue, e.owner ≠ .compaction) → j.queue.length < 32 →
      ∃ q, exec .compactionTimeMark s = .next (s.withPart q) ∧ q = { p with jnc := q.jnc } ∧
        q.jnc.compaction = .marked ∧ q.jnc.sinceMark = 0 ∧ q.jnc.queue = j.queue ++
          [{ payload := .timeMark (some j.tail), time := p.now, owner := .compaction }]) ∧
    (j.compaction = .marked → (∀ e ∈ j.queue, e.owner ≠ .compaction) → j.port.job = none → j.port.suspended = none →
      exec .compactionErase s = .next (s.withPart { p with jnc := { j with
        compaction := .erasing
        port := { j.port with job := some (.erase (.compaction j.tail)), since := p.now, elapsed := 0
                              timedOut := false } } })) ∧
    (∀ n, j.port.job = some (.erase (.compaction n)) → j.port.timedOut = false →
      (j.queue = [] → j.port.suspended = none → j.headPos < 64 →
        (j.sectorOpen = false → j.sectorCounted = true) → exec (.eraseComplete .done) s = .next (s.withPart { p with
        flash := { p.flash with cells := p.flash.cells.clear (n * 4096) 4096 }
        exi := { p.exi with headerMark := true }
        jnc := { j with
          failures := 0, notErased := j.notErased.filter (· != n), tail := if n = 1023 then 1 else n + 1
          freeCount := j.freeCount + 1, compaction := .idle
          port := { j.port with job := none, elapsed := 0, timedOut := false } } })) ∧
      (j.failures = 0 → j.queue = [] → j.headPos < 64 → (j.sectorOpen = false → j.sectorCounted = true) →
        exec (.eraseComplete .latchClear) s = .next (s.withPart { p with jnc := { j with
          failures := 1
          port := { j.port with job := some (.erase (.compaction n)), since := p.now, elapsed := 0
                                timedOut := false } } })) ∧
      (j.failures = 0 → j.queue ≠ [] → j.headPos < 64 → j.sectorOpen = true →
        exec (.eraseComplete .latchClear) s = .next (s.withPart { p with jnc := { j with
          failures := 1, compaction := .marked
          port := { j.port with job := some (.program .entryBody), since := p.now, elapsed := 0
                                timedOut := false } } }))) ∧
    (∀ n, j.port.job = some (.erase (.compaction n)) → j.port.timedOut = true → j.queue ≠ [] →
      j.headPos < 64 → j.sectorOpen = true → exec (.eraseComplete .done) s = .next (s.withPart { p with
        flash := { p.flash with cells := p.flash.cells.clear (n * 4096) 4096 }
        jnc := { j with
          compaction := .marked
          port := { j.port with job := some (.program .entryBody), since := p.now, elapsed := 0
                                timedOut := false } } }))

/-! ## The exposure account -/

/-- R10, R123: settling is additive: a record settled to T1 and then, with nothing changed between, to T2 is the record
settled to T2 at once. A time before the settle time changes nothing, and no settle leaves more than the limit that was
not above it. -/
def Obligations.SettlingIsAdditive : Prop :=
  ∀ (k : ClassDef) (c : Container) (T1 T2 : Nat), c.settled ≤ T1 → T1 ≤ T2 →
    (settleRecord k T2 (settleRecord k T1 c).1).1 = (settleRecord k T2 c).1 ∧
    ((settleRecord k T2 c).2 = true ↔ (settleRecord k T1 c).2 = true ∨ (settleRecord k T2 (settleRecord k T1 c).1).2 = true) ∧
    (settleRecord k T2 c).1.settled = T2 ∧
    (c.exposure ≤ k.limit → (settleRecord k T2 c).1.exposure ≤ k.limit) ∧
    (∀ T, T < c.settled → settleRecord k T c = (c, false))

/-- R13, R133, R134: the dues of an OPEN container in ACCRUE are the first seconds at which a settle finds it within its
warn margin and at its limit: a settle to a second before the due does not, and a settle to the due does. -/
def Obligations.DuesAreFirstCrossings : Prop :=
  ∀ (k : ClassDef) (c : Container) (m T d : Nat), c.custody = .opened → c.mode = .accrue m → 0 < m →
    c.exposure < k.limit → d < Config.lastSecond → c.settled ≤ T →
    ((withDues k c).expireDue = some d →
      ((settleRecord k T c).1.custody = .expired ↔ d ≤ T)) ∧
    (c.warned = false → (withDues k c).warnDue = some d → T < d ∨ k.limit ≤ (settleRecord k T c).1.exposure ∨
      (warnRecord k (settleRecord k T c).1).1.warned = true) ∧
    (c.warned = false → (withDues k c).warnDue = some d → T < d →
      (warnRecord k (settleRecord k T c).1).1.warned = false)
end

