-- ==== Sys2Proof/Laws/State.lean ====
section
/-! SUPPORT. The fields that each update of the part leaves alone, and what it writes reads back as: no later proof unfolds
an update. -/

namespace Sys2Proof.Machine

/-! ### `Part.setSlot` -/

@[simp] theorem Part.setSlot_tbu (i : Fin 2048) (c : Option Container) (p : Part) : (p.setSlot i c).tbu = p.tbu := rfl
@[simp] theorem Part.setSlot_jnc (i : Fin 2048) (c : Option Container) (p : Part) : (p.setSlot i c).jnc = p.jnc := rfl
@[simp] theorem Part.setSlot_exi (i : Fin 2048) (c : Option Container) (p : Part) : (p.setSlot i c).exi = p.exi := rfl
@[simp] theorem Part.setSlot_znu (i : Fin 2048) (c : Option Container) (p : Part) : (p.setSlot i c).znu = p.znu := rfl
@[simp] theorem Part.setSlot_prc (i : Fin 2048) (c : Option Container) (p : Part) : (p.setSlot i c).prc = p.prc := rfl
@[simp] theorem Part.setSlot_dou (i : Fin 2048) (c : Option Container) (p : Part) : (p.setSlot i c).dou = p.dou := rfl
@[simp] theorem Part.setSlot_dlu (i : Fin 2048) (c : Option Container) (p : Part) : (p.setSlot i c).dlu = p.dlu := rfl
@[simp] theorem Part.setSlot_flash (i : Fin 2048) (c : Option Container) (p : Part) :
    (p.setSlot i c).flash = p.flash := rfl
@[simp] theorem Part.setSlot_host (i : Fin 2048) (c : Option Container) (p : Part) :
    (p.setSlot i c).host = p.host := rfl

/-! ### `Part.setCls` -/

@[simp] theorem Part.setCls_tbu (n : Fin 16) (c : ClassRecord) (p : Part) : (p.setCls n c).tbu = p.tbu := rfl
@[simp] theorem Part.setCls_jnc (n : Fin 16) (c : ClassRecord) (p : Part) : (p.setCls n c).jnc = p.jnc := rfl
@[simp] theorem Part.setCls_exi (n : Fin 16) (c : ClassRecord) (p : Part) : (p.setCls n c).exi = p.exi := rfl
@[simp] theorem Part.setCls_znu (n : Fin 16) (c : ClassRecord) (p : Part) : (p.setCls n c).znu = p.znu := rfl
@[simp] theorem Part.setCls_prc (n : Fin 16) (c : ClassRecord) (p : Part) : (p.setCls n c).prc = p.prc := rfl
@[simp] theorem Part.setCls_dou (n : Fin 16) (c : ClassRecord) (p : Part) : (p.setCls n c).dou = p.dou := rfl
@[simp] theorem Part.setCls_dlu (n : Fin 16) (c : ClassRecord) (p : Part) : (p.setCls n c).dlu = p.dlu := rfl
@[simp] theorem Part.setCls_flash (n : Fin 16) (c : ClassRecord) (p : Part) : (p.setCls n c).flash = p.flash := rfl
@[simp] theorem Part.setCls_host (n : Fin 16) (c : ClassRecord) (p : Part) : (p.setCls n c).host = p.host := rfl

/-! ### `Part.putZone` -/

@[simp] theorem Part.putZone_tbu (z : Fin 64) (r : Zone) (p : Part) : (p.putZone z r).tbu = p.tbu := rfl
@[simp] theorem Part.putZone_jnc (z : Fin 64) (r : Zone) (p : Part) : (p.putZone z r).jnc = p.jnc := rfl
@[simp] theorem Part.putZone_exi (z : Fin 64) (r : Zone) (p : Part) : (p.putZone z r).exi = p.exi := rfl
@[simp] theorem Part.putZone_ctu (z : Fin 64) (r : Zone) (p : Part) : (p.putZone z r).ctu = p.ctu := rfl
@[simp] theorem Part.putZone_prc (z : Fin 64) (r : Zone) (p : Part) : (p.putZone z r).prc = p.prc := rfl
@[simp] theorem Part.putZone_dou (z : Fin 64) (r : Zone) (p : Part) : (p.putZone z r).dou = p.dou := rfl
@[simp] theorem Part.putZone_dlu (z : Fin 64) (r : Zone) (p : Part) : (p.putZone z r).dlu = p.dlu := rfl
@[simp] theorem Part.putZone_flash (z : Fin 64) (r : Zone) (p : Part) : (p.putZone z r).flash = p.flash := rfl
@[simp] theorem Part.putZone_host (z : Fin 64) (r : Zone) (p : Part) : (p.putZone z r).host = p.host := rfl

/-! ### `Part.setProbe` -/

@[simp] theorem Part.setProbe_tbu (n : Fin 32) (r : Probe) (p : Part) : (p.setProbe n r).tbu = p.tbu := rfl
@[simp] theorem Part.setProbe_jnc (n : Fin 32) (r : Probe) (p : Part) : (p.setProbe n r).jnc = p.jnc := rfl
@[simp] theorem Part.setProbe_exi (n : Fin 32) (r : Probe) (p : Part) : (p.setProbe n r).exi = p.exi := rfl
@[simp] theorem Part.setProbe_ctu (n : Fin 32) (r : Probe) (p : Part) : (p.setProbe n r).ctu = p.ctu := rfl
@[simp] theorem Part.setProbe_znu (n : Fin 32) (r : Probe) (p : Part) : (p.setProbe n r).znu = p.znu := rfl
@[simp] theorem Part.setProbe_dou (n : Fin 32) (r : Probe) (p : Part) : (p.setProbe n r).dou = p.dou := rfl
@[simp] theorem Part.setProbe_dlu (n : Fin 32) (r : Probe) (p : Part) : (p.setProbe n r).dlu = p.dlu := rfl
@[simp] theorem Part.setProbe_flash (n : Fin 32) (r : Probe) (p : Part) : (p.setProbe n r).flash = p.flash := rfl
@[simp] theorem Part.setProbe_host (n : Fin 32) (r : Probe) (p : Part) : (p.setProbe n r).host = p.host := rfl

/-! ### `Part.setGroup` -/

@[simp] theorem Part.setGroup_tbu (n : Fin 4) (r : PowerGroup) (p : Part) : (p.setGroup n r).tbu = p.tbu := rfl
@[simp] theorem Part.setGroup_jnc (n : Fin 4) (r : PowerGroup) (p : Part) : (p.setGroup n r).jnc = p.jnc := rfl
@[simp] theorem Part.setGroup_exi (n : Fin 4) (r : PowerGroup) (p : Part) : (p.setGroup n r).exi = p.exi := rfl
@[simp] theorem Part.setGroup_ctu (n : Fin 4) (r : PowerGroup) (p : Part) : (p.setGroup n r).ctu = p.ctu := rfl
@[simp] theorem Part.setGroup_znu (n : Fin 4) (r : PowerGroup) (p : Part) : (p.setGroup n r).znu = p.znu := rfl
@[simp] theorem Part.setGroup_dou (n : Fin 4) (r : PowerGroup) (p : Part) : (p.setGroup n r).dou = p.dou := rfl
@[simp] theorem Part.setGroup_dlu (n : Fin 4) (r : PowerGroup) (p : Part) : (p.setGroup n r).dlu = p.dlu := rfl
@[simp] theorem Part.setGroup_flash (n : Fin 4) (r : PowerGroup) (p : Part) : (p.setGroup n r).flash = p.flash := rfl
@[simp] theorem Part.setGroup_host (n : Fin 4) (r : PowerGroup) (p : Part) : (p.setGroup n r).host = p.host := rfl

/-! ### `Part.setBus` -/

@[simp] theorem Part.setBus_tbu (b : Bus) (r : ProbeBus) (p : Part) : (p.setBus b r).tbu = p.tbu := by cases b <;> rfl
@[simp] theorem Part.setBus_jnc (b : Bus) (r : ProbeBus) (p : Part) : (p.setBus b r).jnc = p.jnc := by cases b <;> rfl
@[simp] theorem Part.setBus_exi (b : Bus) (r : ProbeBus) (p : Part) : (p.setBus b r).exi = p.exi := by cases b <;> rfl
@[simp] theorem Part.setBus_ctu (b : Bus) (r : ProbeBus) (p : Part) : (p.setBus b r).ctu = p.ctu := by cases b <;> rfl
@[simp] theorem Part.setBus_znu (b : Bus) (r : ProbeBus) (p : Part) : (p.setBus b r).znu = p.znu := by cases b <;> rfl
@[simp] theorem Part.setBus_dou (b : Bus) (r : ProbeBus) (p : Part) : (p.setBus b r).dou = p.dou := by cases b <;> rfl
@[simp] theorem Part.setBus_dlu (b : Bus) (r : ProbeBus) (p : Part) : (p.setBus b r).dlu = p.dlu := by cases b <;> rfl
@[simp] theorem Part.setBus_flash (b : Bus) (r : ProbeBus) (p : Part) :
    (p.setBus b r).flash = p.flash := by cases b <;> rfl
@[simp] theorem Part.setBus_host (b : Bus) (r : ProbeBus) (p : Part) :
    (p.setBus b r).host = p.host := by cases b <;> rfl

/-! ### `Part.setLine` -/

@[simp] theorem Part.setLine_tbu (n : Fin 16) (r : DoorLine) (p : Part) : (p.setLine n r).tbu = p.tbu := rfl
@[simp] theorem Part.setLine_jnc (n : Fin 16) (r : DoorLine) (p : Part) : (p.setLine n r).jnc = p.jnc := rfl
@[simp] theorem Part.setLine_exi (n : Fin 16) (r : DoorLine) (p : Part) : (p.setLine n r).exi = p.exi := rfl
@[simp] theorem Part.setLine_ctu (n : Fin 16) (r : DoorLine) (p : Part) : (p.setLine n r).ctu = p.ctu := rfl
@[simp] theorem Part.setLine_znu (n : Fin 16) (r : DoorLine) (p : Part) : (p.setLine n r).znu = p.znu := rfl
@[simp] theorem Part.setLine_prc (n : Fin 16) (r : DoorLine) (p : Part) : (p.setLine n r).prc = p.prc := rfl
@[simp] theorem Part.setLine_dlu (n : Fin 16) (r : DoorLine) (p : Part) : (p.setLine n r).dlu = p.dlu := rfl
@[simp] theorem Part.setLine_flash (n : Fin 16) (r : DoorLine) (p : Part) : (p.setLine n r).flash = p.flash := rfl
@[simp] theorem Part.setLine_host (n : Fin 16) (r : DoorLine) (p : Part) : (p.setLine n r).host = p.host := rfl

/-! ### `Part.setDoor` -/

@[simp] theorem Part.setDoor_tbu (z : Fin 64) (r : DoorRecord) (p : Part) : (p.setDoor z r).tbu = p.tbu := rfl
@[simp] theorem Part.setDoor_jnc (z : Fin 64) (r : DoorRecord) (p : Part) : (p.setDoor z r).jnc = p.jnc := rfl
@[simp] theorem Part.setDoor_exi (z : Fin 64) (r : DoorRecord) (p : Part) : (p.setDoor z r).exi = p.exi := rfl
@[simp] theorem Part.setDoor_ctu (z : Fin 64) (r : DoorRecord) (p : Part) : (p.setDoor z r).ctu = p.ctu := rfl
@[simp] theorem Part.setDoor_znu (z : Fin 64) (r : DoorRecord) (p : Part) : (p.setDoor z r).znu = p.znu := rfl
@[simp] theorem Part.setDoor_prc (z : Fin 64) (r : DoorRecord) (p : Part) : (p.setDoor z r).prc = p.prc := rfl
@[simp] theorem Part.setDoor_dlu (z : Fin 64) (r : DoorRecord) (p : Part) : (p.setDoor z r).dlu = p.dlu := rfl
@[simp] theorem Part.setDoor_flash (z : Fin 64) (r : DoorRecord) (p : Part) : (p.setDoor z r).flash = p.flash := rfl
@[simp] theorem Part.setDoor_host (z : Fin 64) (r : DoorRecord) (p : Part) : (p.setDoor z r).host = p.host := rfl

/-! ### `Part.setLineHold` -/

@[simp] theorem Part.setLineHold_tbu (n : Fin 8) (r : LineHold) (p : Part) : (p.setLineHold n r).tbu = p.tbu := rfl
@[simp] theorem Part.setLineHold_jnc (n : Fin 8) (r : LineHold) (p : Part) : (p.setLineHold n r).jnc = p.jnc := rfl
@[simp] theorem Part.setLineHold_exi (n : Fin 8) (r : LineHold) (p : Part) : (p.setLineHold n r).exi = p.exi := rfl
@[simp] theorem Part.setLineHold_ctu (n : Fin 8) (r : LineHold) (p : Part) : (p.setLineHold n r).ctu = p.ctu := rfl
@[simp] theorem Part.setLineHold_znu (n : Fin 8) (r : LineHold) (p : Part) : (p.setLineHold n r).znu = p.znu := rfl
@[simp] theorem Part.setLineHold_prc (n : Fin 8) (r : LineHold) (p : Part) : (p.setLineHold n r).prc = p.prc := rfl
@[simp] theorem Part.setLineHold_dlu (n : Fin 8) (r : LineHold) (p : Part) : (p.setLineHold n r).dlu = p.dlu := rfl
@[simp] theorem Part.setLineHold_flash (n : Fin 8) (r : LineHold) (p : Part) :
    (p.setLineHold n r).flash = p.flash := rfl
@[simp] theorem Part.setLineHold_host (n : Fin 8) (r : LineHold) (p : Part) : (p.setLineHold n r).host = p.host := rfl

/-! ### `Part.setLamp` -/

@[simp] theorem Part.setLamp_tbu (n : Fin 8) (r : Lamp) (p : Part) : (p.setLamp n r).tbu = p.tbu := rfl
@[simp] theorem Part.setLamp_jnc (n : Fin 8) (r : Lamp) (p : Part) : (p.setLamp n r).jnc = p.jnc := rfl
@[simp] theorem Part.setLamp_exi (n : Fin 8) (r : Lamp) (p : Part) : (p.setLamp n r).exi = p.exi := rfl
@[simp] theorem Part.setLamp_ctu (n : Fin 8) (r : Lamp) (p : Part) : (p.setLamp n r).ctu = p.ctu := rfl
@[simp] theorem Part.setLamp_znu (n : Fin 8) (r : Lamp) (p : Part) : (p.setLamp n r).znu = p.znu := rfl
@[simp] theorem Part.setLamp_prc (n : Fin 8) (r : Lamp) (p : Part) : (p.setLamp n r).prc = p.prc := rfl
@[simp] theorem Part.setLamp_dlu (n : Fin 8) (r : Lamp) (p : Part) : (p.setLamp n r).dlu = p.dlu := rfl
@[simp] theorem Part.setLamp_flash (n : Fin 8) (r : Lamp) (p : Part) : (p.setLamp n r).flash = p.flash := rfl
@[simp] theorem Part.setLamp_host (n : Fin 8) (r : Lamp) (p : Part) : (p.setLamp n r).host = p.host := rfl

/-! ### `Part.hostWrite` -/

@[simp] theorem Part.hostWrite_tbu (a : HostAddr) (bs : List Byte) (p : Part) : (p.hostWrite a bs).tbu = p.tbu := rfl
@[simp] theorem Part.hostWrite_jnc (a : HostAddr) (bs : List Byte) (p : Part) : (p.hostWrite a bs).jnc = p.jnc := rfl
@[simp] theorem Part.hostWrite_exi (a : HostAddr) (bs : List Byte) (p : Part) : (p.hostWrite a bs).exi = p.exi := rfl
@[simp] theorem Part.hostWrite_ctu (a : HostAddr) (bs : List Byte) (p : Part) : (p.hostWrite a bs).ctu = p.ctu := rfl
@[simp] theorem Part.hostWrite_znu (a : HostAddr) (bs : List Byte) (p : Part) : (p.hostWrite a bs).znu = p.znu := rfl
@[simp] theorem Part.hostWrite_prc (a : HostAddr) (bs : List Byte) (p : Part) : (p.hostWrite a bs).prc = p.prc := rfl
@[simp] theorem Part.hostWrite_dou (a : HostAddr) (bs : List Byte) (p : Part) : (p.hostWrite a bs).dou = p.dou := rfl
@[simp] theorem Part.hostWrite_dlu (a : HostAddr) (bs : List Byte) (p : Part) : (p.hostWrite a bs).dlu = p.dlu := rfl
@[simp] theorem Part.hostWrite_flash (a : HostAddr) (bs : List Byte) (p : Part) :
    (p.hostWrite a bs).flash = p.flash := rfl

/-! ### `Part.onJnc` -/

@[simp] theorem Part.onJnc_tbu (f : Jnc → Jnc) (p : Part) : (p.onJnc f).tbu = p.tbu := rfl
@[simp] theorem Part.onJnc_exi (f : Jnc → Jnc) (p : Part) : (p.onJnc f).exi = p.exi := rfl
@[simp] theorem Part.onJnc_ctu (f : Jnc → Jnc) (p : Part) : (p.onJnc f).ctu = p.ctu := rfl
@[simp] theorem Part.onJnc_znu (f : Jnc → Jnc) (p : Part) : (p.onJnc f).znu = p.znu := rfl
@[simp] theorem Part.onJnc_prc (f : Jnc → Jnc) (p : Part) : (p.onJnc f).prc = p.prc := rfl
@[simp] theorem Part.onJnc_dou (f : Jnc → Jnc) (p : Part) : (p.onJnc f).dou = p.dou := rfl
@[simp] theorem Part.onJnc_dlu (f : Jnc → Jnc) (p : Part) : (p.onJnc f).dlu = p.dlu := rfl
@[simp] theorem Part.onJnc_flash (f : Jnc → Jnc) (p : Part) : (p.onJnc f).flash = p.flash := rfl
@[simp] theorem Part.onJnc_host (f : Jnc → Jnc) (p : Part) : (p.onJnc f).host = p.host := rfl

/-! ### `Part.onPort` -/

@[simp] theorem Part.onPort_tbu (f : FlashPort → FlashPort) (p : Part) : (p.onPort f).tbu = p.tbu := rfl
@[simp] theorem Part.onPort_exi (f : FlashPort → FlashPort) (p : Part) : (p.onPort f).exi = p.exi := rfl
@[simp] theorem Part.onPort_ctu (f : FlashPort → FlashPort) (p : Part) : (p.onPort f).ctu = p.ctu := rfl
@[simp] theorem Part.onPort_znu (f : FlashPort → FlashPort) (p : Part) : (p.onPort f).znu = p.znu := rfl
@[simp] theorem Part.onPort_prc (f : FlashPort → FlashPort) (p : Part) : (p.onPort f).prc = p.prc := rfl
@[simp] theorem Part.onPort_dou (f : FlashPort → FlashPort) (p : Part) : (p.onPort f).dou = p.dou := rfl
@[simp] theorem Part.onPort_dlu (f : FlashPort → FlashPort) (p : Part) : (p.onPort f).dlu = p.dlu := rfl
@[simp] theorem Part.onPort_flash (f : FlashPort → FlashPort) (p : Part) : (p.onPort f).flash = p.flash := rfl
@[simp] theorem Part.onPort_host (f : FlashPort → FlashPort) (p : Part) : (p.onPort f).host = p.host := rfl

/-! ### `Part.onDlu` -/

@[simp] theorem Part.onDlu_tbu (f : Dlu → Dlu) (p : Part) : (p.onDlu f).tbu = p.tbu := rfl
@[simp] theorem Part.onDlu_jnc (f : Dlu → Dlu) (p : Part) : (p.onDlu f).jnc = p.jnc := rfl
@[simp] theorem Part.onDlu_exi (f : Dlu → Dlu) (p : Part) : (p.onDlu f).exi = p.exi := rfl
@[simp] theorem Part.onDlu_ctu (f : Dlu → Dlu) (p : Part) : (p.onDlu f).ctu = p.ctu := rfl
@[simp] theorem Part.onDlu_znu (f : Dlu → Dlu) (p : Part) : (p.onDlu f).znu = p.znu := rfl
@[simp] theorem Part.onDlu_prc (f : Dlu → Dlu) (p : Part) : (p.onDlu f).prc = p.prc := rfl
@[simp] theorem Part.onDlu_dou (f : Dlu → Dlu) (p : Part) : (p.onDlu f).dou = p.dou := rfl
@[simp] theorem Part.onDlu_flash (f : Dlu → Dlu) (p : Part) : (p.onDlu f).flash = p.flash := rfl
@[simp] theorem Part.onDlu_host (f : Dlu → Dlu) (p : Part) : (p.onDlu f).host = p.host := rfl

/-! ### `Part.setInHand` -/

@[simp] theorem Part.setInHand_tbu (d : Option InHand) (p : Part) : (p.setInHand d).tbu = p.tbu := rfl
@[simp] theorem Part.setInHand_jnc (d : Option InHand) (p : Part) : (p.setInHand d).jnc = p.jnc := rfl
@[simp] theorem Part.setInHand_ctu (d : Option InHand) (p : Part) : (p.setInHand d).ctu = p.ctu := rfl
@[simp] theorem Part.setInHand_znu (d : Option InHand) (p : Part) : (p.setInHand d).znu = p.znu := rfl
@[simp] theorem Part.setInHand_prc (d : Option InHand) (p : Part) : (p.setInHand d).prc = p.prc := rfl
@[simp] theorem Part.setInHand_dou (d : Option InHand) (p : Part) : (p.setInHand d).dou = p.dou := rfl
@[simp] theorem Part.setInHand_dlu (d : Option InHand) (p : Part) : (p.setInHand d).dlu = p.dlu := rfl
@[simp] theorem Part.setInHand_flash (d : Option InHand) (p : Part) : (p.setInHand d).flash = p.flash := rfl
@[simp] theorem Part.setInHand_host (d : Option InHand) (p : Part) : (p.setInHand d).host = p.host := rfl

/-! ### `Part.postZone` -/

@[simp] theorem Part.postZone_tbu (z : Fin 64) (p : Part) : (p.postZone z).tbu = p.tbu := rfl
@[simp] theorem Part.postZone_jnc (z : Fin 64) (p : Part) : (p.postZone z).jnc = p.jnc := rfl
@[simp] theorem Part.postZone_ctu (z : Fin 64) (p : Part) : (p.postZone z).ctu = p.ctu := rfl
@[simp] theorem Part.postZone_znu (z : Fin 64) (p : Part) : (p.postZone z).znu = p.znu := rfl
@[simp] theorem Part.postZone_prc (z : Fin 64) (p : Part) : (p.postZone z).prc = p.prc := rfl
@[simp] theorem Part.postZone_dou (z : Fin 64) (p : Part) : (p.postZone z).dou = p.dou := rfl
@[simp] theorem Part.postZone_dlu (z : Fin 64) (p : Part) : (p.postZone z).dlu = p.dlu := rfl
@[simp] theorem Part.postZone_flash (z : Fin 64) (p : Part) : (p.postZone z).flash = p.flash := rfl
@[simp] theorem Part.postZone_host (z : Fin 64) (p : Part) : (p.postZone z).host = p.host := rfl

/-! ### `Part.postSlot` -/

@[simp] theorem Part.postSlot_tbu (i : Fin 2048) (p : Part) : (p.postSlot i).tbu = p.tbu := rfl
@[simp] theorem Part.postSlot_jnc (i : Fin 2048) (p : Part) : (p.postSlot i).jnc = p.jnc := rfl
@[simp] theorem Part.postSlot_ctu (i : Fin 2048) (p : Part) : (p.postSlot i).ctu = p.ctu := rfl
@[simp] theorem Part.postSlot_znu (i : Fin 2048) (p : Part) : (p.postSlot i).znu = p.znu := rfl
@[simp] theorem Part.postSlot_prc (i : Fin 2048) (p : Part) : (p.postSlot i).prc = p.prc := rfl
@[simp] theorem Part.postSlot_dou (i : Fin 2048) (p : Part) : (p.postSlot i).dou = p.dou := rfl
@[simp] theorem Part.postSlot_dlu (i : Fin 2048) (p : Part) : (p.postSlot i).dlu = p.dlu := rfl
@[simp] theorem Part.postSlot_flash (i : Fin 2048) (p : Part) : (p.postSlot i).flash = p.flash := rfl
@[simp] theorem Part.postSlot_host (i : Fin 2048) (p : Part) : (p.postSlot i).host = p.host := rfl

/-! ### `Part.startJob` -/

@[simp] theorem Part.startJob_tbu (job : FlashJob) (p : Part) : (p.startJob job).tbu = p.tbu := rfl
@[simp] theorem Part.startJob_exi (job : FlashJob) (p : Part) : (p.startJob job).exi = p.exi := rfl
@[simp] theorem Part.startJob_ctu (job : FlashJob) (p : Part) : (p.startJob job).ctu = p.ctu := rfl
@[simp] theorem Part.startJob_znu (job : FlashJob) (p : Part) : (p.startJob job).znu = p.znu := rfl
@[simp] theorem Part.startJob_prc (job : FlashJob) (p : Part) : (p.startJob job).prc = p.prc := rfl
@[simp] theorem Part.startJob_dou (job : FlashJob) (p : Part) : (p.startJob job).dou = p.dou := rfl
@[simp] theorem Part.startJob_dlu (job : FlashJob) (p : Part) : (p.startJob job).dlu = p.dlu := rfl
@[simp] theorem Part.startJob_flash (job : FlashJob) (p : Part) : (p.startJob job).flash = p.flash := rfl
@[simp] theorem Part.startJob_host (job : FlashJob) (p : Part) : (p.startJob job).host = p.host := rfl

/-! ### `Part.postHeader` -/

@[simp] theorem Part.postHeader_tbu (p : Part) : (p.postHeader).tbu = p.tbu := rfl
@[simp] theorem Part.postHeader_jnc (p : Part) : (p.postHeader).jnc = p.jnc := rfl
@[simp] theorem Part.postHeader_ctu (p : Part) : (p.postHeader).ctu = p.ctu := rfl
@[simp] theorem Part.postHeader_znu (p : Part) : (p.postHeader).znu = p.znu := rfl
@[simp] theorem Part.postHeader_prc (p : Part) : (p.postHeader).prc = p.prc := rfl
@[simp] theorem Part.postHeader_dou (p : Part) : (p.postHeader).dou = p.dou := rfl
@[simp] theorem Part.postHeader_dlu (p : Part) : (p.postHeader).dlu = p.dlu := rfl
@[simp] theorem Part.postHeader_flash (p : Part) : (p.postHeader).flash = p.flash := rfl
@[simp] theorem Part.postHeader_host (p : Part) : (p.postHeader).host = p.host := rfl

/-! ### `Part.postAll` -/

@[simp] theorem Part.postAll_tbu (p : Part) : (p.postAll).tbu = p.tbu := rfl
@[simp] theorem Part.postAll_jnc (p : Part) : (p.postAll).jnc = p.jnc := rfl
@[simp] theorem Part.postAll_ctu (p : Part) : (p.postAll).ctu = p.ctu := rfl
@[simp] theorem Part.postAll_znu (p : Part) : (p.postAll).znu = p.znu := rfl
@[simp] theorem Part.postAll_prc (p : Part) : (p.postAll).prc = p.prc := rfl
@[simp] theorem Part.postAll_dou (p : Part) : (p.postAll).dou = p.dou := rfl
@[simp] theorem Part.postAll_dlu (p : Part) : (p.postAll).dlu = p.dlu := rfl
@[simp] theorem Part.postAll_flash (p : Part) : (p.postAll).flash = p.flash := rfl
@[simp] theorem Part.postAll_host (p : Part) : (p.postAll).host = p.host := rfl

/-! ### `Part.freePort` -/

@[simp] theorem Part.freePort_tbu (p : Part) : (p.freePort).tbu = p.tbu := rfl
@[simp] theorem Part.freePort_exi (p : Part) : (p.freePort).exi = p.exi := rfl
@[simp] theorem Part.freePort_ctu (p : Part) : (p.freePort).ctu = p.ctu := rfl
@[simp] theorem Part.freePort_znu (p : Part) : (p.freePort).znu = p.znu := rfl
@[simp] theorem Part.freePort_prc (p : Part) : (p.freePort).prc = p.prc := rfl
@[simp] theorem Part.freePort_dou (p : Part) : (p.freePort).dou = p.dou := rfl
@[simp] theorem Part.freePort_dlu (p : Part) : (p.freePort).dlu = p.dlu := rfl
@[simp] theorem Part.freePort_flash (p : Part) : (p.freePort).flash = p.flash := rfl
@[simp] theorem Part.freePort_host (p : Part) : (p.freePort).host = p.host := rfl

/-! ### What is written reads back -/

theorem Part.slot_setSlot (i j : Fin 2048) (r : Option Container) (p : Part) :
    (p.setSlot i r).slot j = if i = j then r else p.slot j := by
  simp [Part.slot, Part.setSlot, Vector.getElem_set, Fin.ext_iff]

@[simp] theorem Part.slot_setSlot_self (i : Fin 2048) (r : Option Container) (p : Part) :
    (p.setSlot i r).slot i = r := by
  simp [Part.slot_setSlot]

theorem Part.slot_setSlot_of_ne {i j : Fin 2048} (h : i ≠ j) (r : Option Container) (p : Part) :
    (p.setSlot i r).slot j = p.slot j := by
  simp [Part.slot_setSlot, h]

theorem Part.cls_setCls (i j : Fin 16) (r : ClassRecord) (p : Part) :
    (p.setCls i r).cls j = if i = j then r else p.cls j := by
  simp [Part.cls, Part.setCls, Vector.getElem_set, Fin.ext_iff]

@[simp] theorem Part.cls_setCls_self (i : Fin 16) (r : ClassRecord) (p : Part) : (p.setCls i r).cls i = r := by
  simp [Part.cls_setCls]

theorem Part.cls_setCls_of_ne {i j : Fin 16} (h : i ≠ j) (r : ClassRecord) (p : Part) :
    (p.setCls i r).cls j = p.cls j := by
  simp [Part.cls_setCls, h]

theorem Part.zone_putZone (i j : Fin 64) (r : Zone) (p : Part) :
    (p.putZone i r).zone j = if i = j then r else p.zone j := by
  simp [Part.zone, Part.putZone, Vector.getElem_set, Fin.ext_iff]

@[simp] theorem Part.zone_putZone_self (i : Fin 64) (r : Zone) (p : Part) : (p.putZone i r).zone i = r := by
  simp [Part.zone_putZone]

theorem Part.zone_putZone_of_ne {i j : Fin 64} (h : i ≠ j) (r : Zone) (p : Part) :
    (p.putZone i r).zone j = p.zone j := by
  simp [Part.zone_putZone, h]

theorem Part.probe_setProbe (i j : Fin 32) (r : Probe) (p : Part) :
    (p.setProbe i r).probe j = if i = j then r else p.probe j := by
  simp [Part.probe, Part.setProbe, Vector.getElem_set, Fin.ext_iff]

@[simp] theorem Part.probe_setProbe_self (i : Fin 32) (r : Probe) (p : Part) : (p.setProbe i r).probe i = r := by
  simp [Part.probe_setProbe]

theorem Part.probe_setProbe_of_ne {i j : Fin 32} (h : i ≠ j) (r : Probe) (p : Part) :
    (p.setProbe i r).probe j = p.probe j := by
  simp [Part.probe_setProbe, h]

theorem Part.group_setGroup (i j : Fin 4) (r : PowerGroup) (p : Part) :
    (p.setGroup i r).group j = if i = j then r else p.group j := by
  simp [Part.group, Part.setGroup, Vector.getElem_set, Fin.ext_iff]

@[simp] theorem Part.group_setGroup_self (i : Fin 4) (r : PowerGroup) (p : Part) : (p.setGroup i r).group i = r := by
  simp [Part.group_setGroup]

theorem Part.group_setGroup_of_ne {i j : Fin 4} (h : i ≠ j) (r : PowerGroup) (p : Part) :
    (p.setGroup i r).group j = p.group j := by
  simp [Part.group_setGroup, h]

theorem Part.line_setLine (i j : Fin 16) (r : DoorLine) (p : Part) :
    (p.setLine i r).line j = if i = j then r else p.line j := by
  simp [Part.line, Part.setLine, Vector.getElem_set, Fin.ext_iff]

@[simp] theorem Part.line_setLine_self (i : Fin 16) (r : DoorLine) (p : Part) : (p.setLine i r).line i = r := by
  simp [Part.line_setLine]

theorem Part.line_setLine_of_ne {i j : Fin 16} (h : i ≠ j) (r : DoorLine) (p : Part) :
    (p.setLine i r).line j = p.line j := by
  simp [Part.line_setLine, h]

theorem Part.door_setDoor (i j : Fin 64) (r : DoorRecord) (p : Part) :
    (p.setDoor i r).door j = if i = j then r else p.door j := by
  simp [Part.door, Part.setDoor, Vector.getElem_set, Fin.ext_iff]

@[simp] theorem Part.door_setDoor_self (i : Fin 64) (r : DoorRecord) (p : Part) : (p.setDoor i r).door i = r := by
  simp [Part.door_setDoor]

theorem Part.door_setDoor_of_ne {i j : Fin 64} (h : i ≠ j) (r : DoorRecord) (p : Part) :
    (p.setDoor i r).door j = p.door j := by
  simp [Part.door_setDoor, h]

theorem Part.lineHold_setLineHold (i j : Fin 8) (r : LineHold) (p : Part) :
    (p.setLineHold i r).lineHold j = if i = j then r else p.lineHold j := by
  simp [Part.lineHold, Part.setLineHold, Vector.getElem_set, Fin.ext_iff]

@[simp] theorem Part.lineHold_setLineHold_self (i : Fin 8) (r : LineHold) (p : Part) :
    (p.setLineHold i r).lineHold i = r := by
  simp [Part.lineHold_setLineHold]

theorem Part.lineHold_setLineHold_of_ne {i j : Fin 8} (h : i ≠ j) (r : LineHold) (p : Part) :
    (p.setLineHold i r).lineHold j = p.lineHold j := by
  simp [Part.lineHold_setLineHold, h]

theorem Part.lamp_setLamp (i j : Fin 8) (r : Lamp) (p : Part) :
    (p.setLamp i r).lamp j = if i = j then r else p.lamp j := by
  simp [Part.lamp, Part.setLamp, Vector.getElem_set, Fin.ext_iff]

@[simp] theorem Part.lamp_setLamp_self (i : Fin 8) (r : Lamp) (p : Part) : (p.setLamp i r).lamp i = r := by
  simp [Part.lamp_setLamp]

theorem Part.lamp_setLamp_of_ne {i j : Fin 8} (h : i ≠ j) (r : Lamp) (p : Part) :
    (p.setLamp i r).lamp j = p.lamp j := by
  simp [Part.lamp_setLamp, h]

theorem Part.bus_setBus (a b : Bus) (r : ProbeBus) (p : Part) :
    (p.setBus a r).bus b = if a = b then r else p.bus b := by
  cases a <;> cases b <;> rfl

/-! ### One numbered record does not reach another -/

@[simp] theorem Part.slot_setCls (i : Fin 16) (j : Fin 2048) (r : ClassRecord) (p : Part) :
    (p.setCls i r).slot j = p.slot j := rfl
@[simp] theorem Part.slot_putZone (i : Fin 64) (j : Fin 2048) (r : Zone) (p : Part) :
    (p.putZone i r).slot j = p.slot j := rfl
@[simp] theorem Part.slot_setProbe (i : Fin 32) (j : Fin 2048) (r : Probe) (p : Part) :
    (p.setProbe i r).slot j = p.slot j := rfl
@[simp] theorem Part.slot_setGroup (i : Fin 4) (j : Fin 2048) (r : PowerGroup) (p : Part) :
    (p.setGroup i r).slot j = p.slot j := rfl
@[simp] theorem Part.slot_setLine (i : Fin 16) (j : Fin 2048) (r : DoorLine) (p : Part) :
    (p.setLine i r).slot j = p.slot j := rfl
@[simp] theorem Part.slot_setDoor (i : Fin 64) (j : Fin 2048) (r : DoorRecord) (p : Part) :
    (p.setDoor i r).slot j = p.slot j := rfl
@[simp] theorem Part.slot_setLineHold (i : Fin 8) (j : Fin 2048) (r : LineHold) (p : Part) :
    (p.setLineHold i r).slot j = p.slot j := rfl
@[simp] theorem Part.slot_setLamp (i : Fin 8) (j : Fin 2048) (r : Lamp) (p : Part) :
    (p.setLamp i r).slot j = p.slot j := rfl
@[simp] theorem Part.cls_setSlot (i : Fin 2048) (j : Fin 16) (r : Option Container) (p : Part) :
    (p.setSlot i r).cls j = p.cls j := rfl
@[simp] theorem Part.cls_putZone (i : Fin 64) (j : Fin 16) (r : Zone) (p : Part) :
    (p.putZone i r).cls j = p.cls j := rfl
@[simp] theorem Part.cls_setProbe (i : Fin 32) (j : Fin 16) (r : Probe) (p : Part) :
    (p.setProbe i r).cls j = p.cls j := rfl
@[simp] theorem Part.cls_setGroup (i : Fin 4) (j : Fin 16) (r : PowerGroup) (p : Part) :
    (p.setGroup i r).cls j = p.cls j := rfl
@[simp] theorem Part.cls_setLine (i : Fin 16) (j : Fin 16) (r : DoorLine) (p : Part) :
    (p.setLine i r).cls j = p.cls j := rfl
@[simp] theorem Part.cls_setDoor (i : Fin 64) (j : Fin 16) (r : DoorRecord) (p : Part) :
    (p.setDoor i r).cls j = p.cls j := rfl
@[simp] theorem Part.cls_setLineHold (i : Fin 8) (j : Fin 16) (r : LineHold) (p : Part) :
    (p.setLineHold i r).cls j = p.cls j := rfl
@[simp] theorem Part.cls_setLamp (i : Fin 8) (j : Fin 16) (r : Lamp) (p : Part) :
    (p.setLamp i r).cls j = p.cls j := rfl
@[simp] theorem Part.zone_setSlot (i : Fin 2048) (j : Fin 64) (r : Option Container) (p : Part) :
    (p.setSlot i r).zone j = p.zone j := rfl
@[simp] theorem Part.zone_setCls (i : Fin 16) (j : Fin 64) (r : ClassRecord) (p : Part) :
    (p.setCls i r).zone j = p.zone j := rfl
@[simp] theorem Part.zone_setProbe (i : Fin 32) (j : Fin 64) (r : Probe) (p : Part) :
    (p.setProbe i r).zone j = p.zone j := rfl
@[simp] theorem Part.zone_setGroup (i : Fin 4) (j : Fin 64) (r : PowerGroup) (p : Part) :
    (p.setGroup i r).zone j = p.zone j := rfl
@[simp] theorem Part.zone_setLine (i : Fin 16) (j : Fin 64) (r : DoorLine) (p : Part) :
    (p.setLine i r).zone j = p.zone j := rfl
@[simp] theorem Part.zone_setDoor (i : Fin 64) (j : Fin 64) (r : DoorRecord) (p : Part) :
    (p.setDoor i r).zone j = p.zone j := rfl
@[simp] theorem Part.zone_setLineHold (i : Fin 8) (j : Fin 64) (r : LineHold) (p : Part) :
    (p.setLineHold i r).zone j = p.zone j := rfl
@[simp] theorem Part.zone_setLamp (i : Fin 8) (j : Fin 64) (r : Lamp) (p : Part) :
    (p.setLamp i r).zone j = p.zone j := rfl
@[simp] theorem Part.probe_setSlot (i : Fin 2048) (j : Fin 32) (r : Option Container) (p : Part) :
    (p.setSlot i r).probe j = p.probe j := rfl
@[simp] theorem Part.probe_setCls (i : Fin 16) (j : Fin 32) (r : ClassRecord) (p : Part) :
    (p.setCls i r).probe j = p.probe j := rfl
@[simp] theorem Part.probe_putZone (i : Fin 64) (j : Fin 32) (r : Zone) (p : Part) :
    (p.putZone i r).probe j = p.probe j := rfl
@[simp] theorem Part.probe_setGroup (i : Fin 4) (j : Fin 32) (r : PowerGroup) (p : Part) :
    (p.setGroup i r).probe j = p.probe j := rfl
@[simp] theorem Part.probe_setLine (i : Fin 16) (j : Fin 32) (r : DoorLine) (p : Part) :
    (p.setLine i r).probe j = p.probe j := rfl
@[simp] theorem Part.probe_setDoor (i : Fin 64) (j : Fin 32) (r : DoorRecord) (p : Part) :
    (p.setDoor i r).probe j = p.probe j := rfl
@[simp] theorem Part.probe_setLineHold (i : Fin 8) (j : Fin 32) (r : LineHold) (p : Part) :
    (p.setLineHold i r).probe j = p.probe j := rfl
@[simp] theorem Part.probe_setLamp (i : Fin 8) (j : Fin 32) (r : Lamp) (p : Part) :
    (p.setLamp i r).probe j = p.probe j := rfl
@[simp] theorem Part.group_setSlot (i : Fin 2048) (j : Fin 4) (r : Option Container) (p : Part) :
    (p.setSlot i r).group j = p.group j := rfl
@[simp] theorem Part.group_setCls (i : Fin 16) (j : Fin 4) (r : ClassRecord) (p : Part) :
    (p.setCls i r).group j = p.group j := rfl
@[simp] theorem Part.group_putZone (i : Fin 64) (j : Fin 4) (r : Zone) (p : Part) :
    (p.putZone i r).group j = p.group j := rfl
@[simp] theorem Part.group_setProbe (i : Fin 32) (j : Fin 4) (r : Probe) (p : Part) :
    (p.setProbe i r).group j = p.group j := rfl
@[simp] theorem Part.group_setLine (i : Fin 16) (j : Fin 4) (r : DoorLine) (p : Part) :
    (p.setLine i r).group j = p.group j := rfl
@[simp] theorem Part.group_setDoor (i : Fin 64) (j : Fin 4) (r : DoorRecord) (p : Part) :
    (p.setDoor i r).group j = p.group j := rfl
@[simp] theorem Part.group_setLineHold (i : Fin 8) (j : Fin 4) (r : LineHold) (p : Part) :
    (p.setLineHold i r).group j = p.group j := rfl
@[simp] theorem Part.group_setLamp (i : Fin 8) (j : Fin 4) (r : Lamp) (p : Part) :
    (p.setLamp i r).group j = p.group j := rfl
@[simp] theorem Part.line_setSlot (i : Fin 2048) (j : Fin 16) (r : Option Container) (p : Part) :
    (p.setSlot i r).line j = p.line j := rfl
@[simp] theorem Part.line_setCls (i : Fin 16) (j : Fin 16) (r : ClassRecord) (p : Part) :
    (p.setCls i r).line j = p.line j := rfl
@[simp] theorem Part.line_putZone (i : Fin 64) (j : Fin 16) (r : Zone) (p : Part) :
    (p.putZone i r).line j = p.line j := rfl
@[simp] theorem Part.line_setProbe (i : Fin 32) (j : Fin 16) (r : Probe) (p : Part) :
    (p.setProbe i r).line j = p.line j := rfl
@[simp] theorem Part.line_setGroup (i : Fin 4) (j : Fin 16) (r : PowerGroup) (p : Part) :
    (p.setGroup i r).line j = p.line j := rfl
@[simp] theorem Part.line_setDoor (i : Fin 64) (j : Fin 16) (r : DoorRecord) (p : Part) :
    (p.setDoor i r).line j = p.line j := rfl
@[simp] theorem Part.line_setLineHold (i : Fin 8) (j : Fin 16) (r : LineHold) (p : Part) :
    (p.setLineHold i r).line j = p.line j := rfl
@[simp] theorem Part.line_setLamp (i : Fin 8) (j : Fin 16) (r : Lamp) (p : Part) :
    (p.setLamp i r).line j = p.line j := rfl
@[simp] theorem Part.door_setSlot (i : Fin 2048) (j : Fin 64) (r : Option Container) (p : Part) :
    (p.setSlot i r).door j = p.door j := rfl
@[simp] theorem Part.door_setCls (i : Fin 16) (j : Fin 64) (r : ClassRecord) (p : Part) :
    (p.setCls i r).door j = p.door j := rfl
@[simp] theorem Part.door_putZone (i : Fin 64) (j : Fin 64) (r : Zone) (p : Part) :
    (p.putZone i r).door j = p.door j := rfl
@[simp] theorem Part.door_setProbe (i : Fin 32) (j : Fin 64) (r : Probe) (p : Part) :
    (p.setProbe i r).door j = p.door j := rfl
@[simp] theorem Part.door_setGroup (i : Fin 4) (j : Fin 64) (r : PowerGroup) (p : Part) :
    (p.setGroup i r).door j = p.door j := rfl
@[simp] theorem Part.door_setLine (i : Fin 16) (j : Fin 64) (r : DoorLine) (p : Part) :
    (p.setLine i r).door j = p.door j := rfl
@[simp] theorem Part.door_setLineHold (i : Fin 8) (j : Fin 64) (r : LineHold) (p : Part) :
    (p.setLineHold i r).door j = p.door j := rfl
@[simp] theorem Part.door_setLamp (i : Fin 8) (j : Fin 64) (r : Lamp) (p : Part) :
    (p.setLamp i r).door j = p.door j := rfl
@[simp] theorem Part.lineHold_setSlot (i : Fin 2048) (j : Fin 8) (r : Option Container) (p : Part) :
    (p.setSlot i r).lineHold j = p.lineHold j := rfl
@[simp] theorem Part.lineHold_setCls (i : Fin 16) (j : Fin 8) (r : ClassRecord) (p : Part) :
    (p.setCls i r).lineHold j = p.lineHold j := rfl
@[simp] theorem Part.lineHold_putZone (i : Fin 64) (j : Fin 8) (r : Zone) (p : Part) :
    (p.putZone i r).lineHold j = p.lineHold j := rfl
@[simp] theorem Part.lineHold_setProbe (i : Fin 32) (j : Fin 8) (r : Probe) (p : Part) :
    (p.setProbe i r).lineHold j = p.lineHold j := rfl
@[simp] theorem Part.lineHold_setGroup (i : Fin 4) (j : Fin 8) (r : PowerGroup) (p : Part) :
    (p.setGroup i r).lineHold j = p.lineHold j := rfl
@[simp] theorem Part.lineHold_setLine (i : Fin 16) (j : Fin 8) (r : DoorLine) (p : Part) :
    (p.setLine i r).lineHold j = p.lineHold j := rfl
@[simp] theorem Part.lineHold_setDoor (i : Fin 64) (j : Fin 8) (r : DoorRecord) (p : Part) :
    (p.setDoor i r).lineHold j = p.lineHold j := rfl
@[simp] theorem Part.lineHold_setLamp (i : Fin 8) (j : Fin 8) (r : Lamp) (p : Part) :
    (p.setLamp i r).lineHold j = p.lineHold j := rfl
@[simp] theorem Part.lamp_setSlot (i : Fin 2048) (j : Fin 8) (r : Option Container) (p : Part) :
    (p.setSlot i r).lamp j = p.lamp j := rfl
@[simp] theorem Part.lamp_setCls (i : Fin 16) (j : Fin 8) (r : ClassRecord) (p : Part) :
    (p.setCls i r).lamp j = p.lamp j := rfl
@[simp] theorem Part.lamp_putZone (i : Fin 64) (j : Fin 8) (r : Zone) (p : Part) :
    (p.putZone i r).lamp j = p.lamp j := rfl
@[simp] theorem Part.lamp_setProbe (i : Fin 32) (j : Fin 8) (r : Probe) (p : Part) :
    (p.setProbe i r).lamp j = p.lamp j := rfl
@[simp] theorem Part.lamp_setGroup (i : Fin 4) (j : Fin 8) (r : PowerGroup) (p : Part) :
    (p.setGroup i r).lamp j = p.lamp j := rfl
@[simp] theorem Part.lamp_setLine (i : Fin 16) (j : Fin 8) (r : DoorLine) (p : Part) :
    (p.setLine i r).lamp j = p.lamp j := rfl
@[simp] theorem Part.lamp_setDoor (i : Fin 64) (j : Fin 8) (r : DoorRecord) (p : Part) :
    (p.setDoor i r).lamp j = p.lamp j := rfl
@[simp] theorem Part.lamp_setLineHold (i : Fin 8) (j : Fin 8) (r : LineHold) (p : Part) :
    (p.setLineHold i r).lamp j = p.lamp j := rfl
@[simp] theorem Part.slot_setBus (b : Bus) (r : ProbeBus) (j : Fin 2048) (p : Part) :
    (p.setBus b r).slot j = p.slot j := by
  cases b <;> rfl
@[simp] theorem Part.slot_hostWrite (a : HostAddr) (bs : List Byte) (j : Fin 2048) (p : Part) :
    (p.hostWrite a bs).slot j = p.slot j := rfl
@[simp] theorem Part.slot_onJnc (f : Jnc → Jnc) (j : Fin 2048) (p : Part) : (p.onJnc f).slot j = p.slot j := rfl
@[simp] theorem Part.slot_onDlu (f : Dlu → Dlu) (j : Fin 2048) (p : Part) : (p.onDlu f).slot j = p.slot j := rfl
@[simp] theorem Part.slot_setInHand (d : Option InHand) (j : Fin 2048) (p : Part) :
    (p.setInHand d).slot j = p.slot j := rfl
@[simp] theorem Part.slot_postZone (z : Fin 64) (j : Fin 2048) (p : Part) : (p.postZone z).slot j = p.slot j := rfl
@[simp] theorem Part.slot_postSlot (i : Fin 2048) (j : Fin 2048) (p : Part) : (p.postSlot i).slot j = p.slot j := rfl
@[simp] theorem Part.slot_postHeader (j : Fin 2048) (p : Part) : (p.postHeader).slot j = p.slot j := rfl
@[simp] theorem Part.cls_setBus (b : Bus) (r : ProbeBus) (j : Fin 16) (p : Part) :
    (p.setBus b r).cls j = p.cls j := by
  cases b <;> rfl
@[simp] theorem Part.cls_hostWrite (a : HostAddr) (bs : List Byte) (j : Fin 16) (p : Part) :
    (p.hostWrite a bs).cls j = p.cls j := rfl
@[simp] theorem Part.cls_onJnc (f : Jnc → Jnc) (j : Fin 16) (p : Part) : (p.onJnc f).cls j = p.cls j := rfl
@[simp] theorem Part.cls_onDlu (f : Dlu → Dlu) (j : Fin 16) (p : Part) : (p.onDlu f).cls j = p.cls j := rfl
@[simp] theorem Part.cls_setInHand (d : Option InHand) (j : Fin 16) (p : Part) :
    (p.setInHand d).cls j = p.cls j := rfl
@[simp] theorem Part.cls_postZone (z : Fin 64) (j : Fin 16) (p : Part) : (p.postZone z).cls j = p.cls j := rfl
@[simp] theorem Part.cls_postSlot (i : Fin 2048) (j : Fin 16) (p : Part) : (p.postSlot i).cls j = p.cls j := rfl
@[simp] theorem Part.cls_postHeader (j : Fin 16) (p : Part) : (p.postHeader).cls j = p.cls j := rfl
@[simp] theorem Part.zone_setBus (b : Bus) (r : ProbeBus) (j : Fin 64) (p : Part) :
    (p.setBus b r).zone j = p.zone j := by
  cases b <;> rfl
@[simp] theorem Part.zone_hostWrite (a : HostAddr) (bs : List Byte) (j : Fin 64) (p : Part) :
    (p.hostWrite a bs).zone j = p.zone j := rfl
@[simp] theorem Part.zone_onJnc (f : Jnc → Jnc) (j : Fin 64) (p : Part) : (p.onJnc f).zone j = p.zone j := rfl
@[simp] theorem Part.zone_onDlu (f : Dlu → Dlu) (j : Fin 64) (p : Part) : (p.onDlu f).zone j = p.zone j := rfl
@[simp] theorem Part.zone_setInHand (d : Option InHand) (j : Fin 64) (p : Part) :
    (p.setInHand d).zone j = p.zone j := rfl
@[simp] theorem Part.zone_postZone (z : Fin 64) (j : Fin 64) (p : Part) : (p.postZone z).zone j = p.zone j := rfl
@[simp] theorem Part.zone_postSlot (i : Fin 2048) (j : Fin 64) (p : Part) : (p.postSlot i).zone j = p.zone j := rfl
@[simp] theorem Part.zone_postHeader (j : Fin 64) (p : Part) : (p.postHeader).zone j = p.zone j := rfl
@[simp] theorem Part.probe_setBus (b : Bus) (r : ProbeBus) (j : Fin 32) (p : Part) :
    (p.setBus b r).probe j = p.probe j := by
  cases b <;> rfl
@[simp] theorem Part.probe_hostWrite (a : HostAddr) (bs : List Byte) (j : Fin 32) (p : Part) :
    (p.hostWrite a bs).probe j = p.probe j := rfl
@[simp] theorem Part.probe_onJnc (f : Jnc → Jnc) (j : Fin 32) (p : Part) : (p.onJnc f).probe j = p.probe j := rfl
@[simp] theorem Part.probe_onDlu (f : Dlu → Dlu) (j : Fin 32) (p : Part) : (p.onDlu f).probe j = p.probe j := rfl
@[simp] theorem Part.probe_setInHand (d : Option InHand) (j : Fin 32) (p : Part) :
    (p.setInHand d).probe j = p.probe j := rfl
@[simp] theorem Part.probe_postZone (z : Fin 64) (j : Fin 32) (p : Part) : (p.postZone z).probe j = p.probe j := rfl
@[simp] theorem Part.probe_postSlot (i : Fin 2048) (j : Fin 32) (p : Part) : (p.postSlot i).probe j = p.probe j := rfl
@[simp] theorem Part.probe_postHeader (j : Fin 32) (p : Part) : (p.postHeader).probe j = p.probe j := rfl
@[simp] theorem Part.group_setBus (b : Bus) (r : ProbeBus) (j : Fin 4) (p : Part) :
    (p.setBus b r).group j = p.group j := by
  cases b <;> rfl
@[simp] theorem Part.group_hostWrite (a : HostAddr) (bs : List Byte) (j : Fin 4) (p : Part) :
    (p.hostWrite a bs).group j = p.group j := rfl
@[simp] theorem Part.group_onJnc (f : Jnc → Jnc) (j : Fin 4) (p : Part) : (p.onJnc f).group j = p.group j := rfl
@[simp] theorem Part.group_onDlu (f : Dlu → Dlu) (j : Fin 4) (p : Part) : (p.onDlu f).group j = p.group j := rfl
@[simp] theorem Part.group_setInHand (d : Option InHand) (j : Fin 4) (p : Part) :
    (p.setInHand d).group j = p.group j := rfl
@[simp] theorem Part.group_postZone (z : Fin 64) (j : Fin 4) (p : Part) : (p.postZone z).group j = p.group j := rfl
@[simp] theorem Part.group_postSlot (i : Fin 2048) (j : Fin 4) (p : Part) : (p.postSlot i).group j = p.group j := rfl
@[simp] theorem Part.group_postHeader (j : Fin 4) (p : Part) : (p.postHeader).group j = p.group j := rfl
@[simp] theorem Part.line_setBus (b : Bus) (r : ProbeBus) (j : Fin 16) (p : Part) :
    (p.setBus b r).line j = p.line j := by
  cases b <;> rfl
@[simp] theorem Part.line_hostWrite (a : HostAddr) (bs : List Byte) (j : Fin 16) (p : Part) :
    (p.hostWrite a bs).line j = p.line j := rfl
@[simp] theorem Part.line_onJnc (f : Jnc → Jnc) (j : Fin 16) (p : Part) : (p.onJnc f).line j = p.line j := rfl
@[simp] theorem Part.line_onDlu (f : Dlu → Dlu) (j : Fin 16) (p : Part) : (p.onDlu f).line j = p.line j := rfl
@[simp] theorem Part.line_setInHand (d : Option InHand) (j : Fin 16) (p : Part) :
    (p.setInHand d).line j = p.line j := rfl
@[simp] theorem Part.line_postZone (z : Fin 64) (j : Fin 16) (p : Part) : (p.postZone z).line j = p.line j := rfl
@[simp] theorem Part.line_postSlot (i : Fin 2048) (j : Fin 16) (p : Part) : (p.postSlot i).line j = p.line j := rfl
@[simp] theorem Part.line_postHeader (j : Fin 16) (p : Part) : (p.postHeader).line j = p.line j := rfl
@[simp] theorem Part.door_setBus (b : Bus) (r : ProbeBus) (j : Fin 64) (p : Part) :
    (p.setBus b r).door j = p.door j := by
  cases b <;> rfl
@[simp] theorem Part.door_hostWrite (a : HostAddr) (bs : List Byte) (j : Fin 64) (p : Part) :
    (p.hostWrite a bs).door j = p.door j := rfl
@[simp] theorem Part.door_onJnc (f : Jnc → Jnc) (j : Fin 64) (p : Part) : (p.onJnc f).door j = p.door j := rfl
@[simp] theorem Part.door_onDlu (f : Dlu → Dlu) (j : Fin 64) (p : Part) : (p.onDlu f).door j = p.door j := rfl
@[simp] theorem Part.door_setInHand (d : Option InHand) (j : Fin 64) (p : Part) :
    (p.setInHand d).door j = p.door j := rfl
@[simp] theorem Part.door_postZone (z : Fin 64) (j : Fin 64) (p : Part) : (p.postZone z).door j = p.door j := rfl
@[simp] theorem Part.door_postSlot (i : Fin 2048) (j : Fin 64) (p : Part) : (p.postSlot i).door j = p.door j := rfl
@[simp] theorem Part.door_postHeader (j : Fin 64) (p : Part) : (p.postHeader).door j = p.door j := rfl
@[simp] theorem Part.lineHold_setBus (b : Bus) (r : ProbeBus) (j : Fin 8) (p : Part) :
    (p.setBus b r).lineHold j = p.lineHold j := by
  cases b <;> rfl
@[simp] theorem Part.lineHold_hostWrite (a : HostAddr) (bs : List Byte) (j : Fin 8) (p : Part) :
    (p.hostWrite a bs).lineHold j = p.lineHold j := rfl
@[simp] theorem Part.lineHold_onJnc (f : Jnc → Jnc) (j : Fin 8) (p : Part) :
    (p.onJnc f).lineHold j = p.lineHold j := rfl
@[simp] theorem Part.lineHold_onDlu (f : Dlu → Dlu) (j : Fin 8) (p : Part) :
    (p.onDlu f).lineHold j = p.lineHold j := rfl
@[simp] theorem Part.lineHold_setInHand (d : Option InHand) (j : Fin 8) (p : Part) :
    (p.setInHand d).lineHold j = p.lineHold j := rfl
@[simp] theorem Part.lineHold_postZone (z : Fin 64) (j : Fin 8) (p : Part) :
    (p.postZone z).lineHold j = p.lineHold j := rfl
@[simp] theorem Part.lineHold_postSlot (i : Fin 2048) (j : Fin 8) (p : Part) :
    (p.postSlot i).lineHold j = p.lineHold j := rfl
@[simp] theorem Part.lineHold_postHeader (j : Fin 8) (p : Part) : (p.postHeader).lineHold j = p.lineHold j := rfl
@[simp] theorem Part.lamp_setBus (b : Bus) (r : ProbeBus) (j : Fin 8) (p : Part) :
    (p.setBus b r).lamp j = p.lamp j := by
  cases b <;> rfl
@[simp] theorem Part.lamp_hostWrite (a : HostAddr) (bs : List Byte) (j : Fin 8) (p : Part) :
    (p.hostWrite a bs).lamp j = p.lamp j := rfl
@[simp] theorem Part.lamp_onJnc (f : Jnc → Jnc) (j : Fin 8) (p : Part) : (p.onJnc f).lamp j = p.lamp j := rfl
@[simp] theorem Part.lamp_onDlu (f : Dlu → Dlu) (j : Fin 8) (p : Part) : (p.onDlu f).lamp j = p.lamp j := rfl
@[simp] theorem Part.lamp_setInHand (d : Option InHand) (j : Fin 8) (p : Part) :
    (p.setInHand d).lamp j = p.lamp j := rfl
@[simp] theorem Part.lamp_postZone (z : Fin 64) (j : Fin 8) (p : Part) : (p.postZone z).lamp j = p.lamp j := rfl
@[simp] theorem Part.lamp_postSlot (i : Fin 2048) (j : Fin 8) (p : Part) : (p.postSlot i).lamp j = p.lamp j := rfl
@[simp] theorem Part.lamp_postHeader (j : Fin 8) (p : Part) : (p.postHeader).lamp j = p.lamp j := rfl
@[simp] theorem Part.bus_setProbe (i : Fin 32) (r : Probe) (b : Bus) (p : Part) :
    (p.setProbe i r).bus b = p.bus b := by
  cases b <;> rfl
@[simp] theorem Part.bus_setGroup (i : Fin 4) (r : PowerGroup) (b : Bus) (p : Part) :
    (p.setGroup i r).bus b = p.bus b := by
  cases b <;> rfl

/-! ### The state -/

@[simp] theorem State.withPart_part (s : State) (p : Part) : (s.withPart p).part = p := rfl

@[simp] theorem State.withPart_pending (s : State) (p : Part) : (s.withPart p).pending = s.pending := rfl

/-- A command of the powered part acts on the part alone. -/
theorem State.powered_of_main (f : Part → Part) {s : State} (h : s.part.tbu.mainPower = true) :
    s.powered f = s.withPart (f s.part) := by
  simp [State.powered, h, State.withPart]

/-- Without main power it does nothing. -/
theorem State.powered_of_no_main (f : Part → Part) {s : State} (h : s.part.tbu.mainPower = false) : s.powered f = s := by
  simp [State.powered, h]

end Sys2Proof.Machine
end

