-- ==== Sys2Proof/Laws/Memory.lean ====
section
/-! SUPPORT. Bytes and memory: what is written reads back, every other byte stands, and the canonical form is kept. -/

namespace Sys2Proof.Machine

/-! ### Bytes -/

@[simp] theorem leBytes_length (k n : Nat) : (leBytes k n).length = k := by
  induction k generalizing n with
  | zero => rfl
  | succ k ih => simp [leBytes, ih]

/-- Bytes written least significant first read back as the value, when it fits. -/
theorem leNat_leBytes (k n : Nat) (h : n < 256 ^ k) : leNat (leBytes k n) = n := by
  induction k generalizing n with
  | zero => simp at h; simp [leBytes, leNat, h]
  | succ k ih =>
    have h2 : n / 256 < 256 ^ k := by
      rw [Nat.div_lt_iff_lt_mul (by omega)]; rw [Nat.pow_succ] at h; exact h
    simp only [leBytes, leNat, ih _ h2, BitVec.toNat_ofNat]
    omega

/-! ### Finding a cell -/

/-- The byte a list of cells gives at an address. -/
def cellAt (m : Memory) (x : Nat) : Option Byte := (m.find? fun c => c.1 == x).map (·.2)

theorem Memory.read_eq (blank : Byte) (m : Memory) (x : Nat) : m.read blank x = (cellAt m x).getD blank := by
  simp only [Memory.read, cellAt]
  cases m.find? (fun c => c.1 == x) <;> rfl

theorem cellAt_append (m n : Memory) (x : Nat) : cellAt (m ++ n) x = (cellAt m x).or (cellAt n x) := by
  simp only [cellAt, List.find?_append]
  cases m.find? (fun c => c.1 == x) <;> simp

theorem cellAt_filter (f : Nat → Bool) (m : Memory) (x : Nat) :
    cellAt (m.filter fun c => f c.1) x = if f x then cellAt m x else none := by
  induction m with
  | nil => simp [cellAt]
  | cons c cs ih =>
    have cons : ∀ (d : Host.Cell) (ds : Memory), cellAt (d :: ds) x = if d.1 = x then some d.2 else cellAt ds x := by
      intro d ds
      by_cases hd : d.1 = x
      · simp [cellAt, hd]
      · simp [cellAt, hd, show (d.1 == x) = false by simpa using hd]
    rw [cons, List.filter_cons]
    by_cases hc : c.1 = x
    · subst hc
      cases hf : f c.1
      · simp [hf] at ih ⊢
        exact ih
      · simp [cons]
    · rw [if_neg hc]
      split
      · rw [cons, if_neg hc, ih]
      · exact ih

theorem cellAt_cellsFrom (blank : Byte) (a : Nat) (bs : List Byte) (x : Nat) :
    cellAt (cellsFrom blank a bs) x =
      if h : a ≤ x ∧ x - a < bs.length then (if bs[x - a] = blank then none else some bs[x - a]) else none := by
  induction bs generalizing a with
  | nil => simp [cellsFrom, cellAt]
  | cons b bs ih =>
    have step : cellAt (cellsFrom blank a (b :: bs)) x =
        if a = x then (if b = blank then cellAt (cellsFrom blank (a + 1) bs) x else some b)
        else cellAt (cellsFrom blank (a + 1) bs) x := by
      by_cases hb : b = blank
      · simp [cellsFrom, hb]
      · by_cases ha : a = x
        · simp [cellsFrom, hb, ha, cellAt]
        · simp [cellsFrom, hb, ha, cellAt, show (a == x) = false by simpa using ha]
    rw [step, ih (a + 1)]
    by_cases ha : a = x
    · subst ha
      by_cases hb : b = blank <;> simp [hb]
    · rw [if_neg ha]
      by_cases h1 : a + 1 ≤ x ∧ x - (a + 1) < bs.length
      · have h2 : a ≤ x ∧ x - a < (b :: bs).length := by simp; omega
        have h3 : x - a = (x - (a + 1)) + 1 := by omega
        rw [dif_pos h1, dif_pos h2]
        simp [h3]
      · have h2 : ¬(a ≤ x ∧ x - a < (b :: bs).length) := by simp; omega
        rw [dif_neg h1, dif_neg h2]

/-! ### Read after write -/

/-- A write leaves every byte outside its run alone. -/
theorem Memory.read_write_outside {a x : Nat} {bs : List Byte} (h : outsideRun a bs.length x) (blank : Byte)
    (m : Memory) : (m.write blank a bs).read blank x = m.read blank x := by
  have hc : ¬(a ≤ x ∧ x - a < bs.length) := by unfold outsideRun at h; omega
  simp only [Memory.read_eq, Memory.write, cellAt_append,
    cellAt_filter (fun y => decide (y < a)), cellAt_filter (fun y => decide (a + bs.length ≤ y)),
    cellAt_cellsFrom, dif_neg hc]
  rcases h with h | h
  · have : ¬ a + bs.length ≤ x := by omega
    simp [h, this]
  · have : ¬ x < a := by omega
    simp [h, this]

/-- A written byte reads back. -/
theorem Memory.read_write_inside (blank : Byte) (m : Memory) (a k : Nat) (bs : List Byte) (h : k < bs.length) :
    (m.write blank a bs).read blank (a + k) = bs[k] := by
  have hc : a ≤ a + k ∧ a + k - a < bs.length := by omega
  have h1 : ¬ a + k < a := by omega
  have h2 : ¬ a + bs.length ≤ a + k := by omega
  simp only [Memory.read_eq, Memory.write, cellAt_append,
    cellAt_filter (fun y => decide (y < a)), cellAt_filter (fun y => decide (a + bs.length ≤ y)),
    cellAt_cellsFrom, dif_pos hc]
  have hk : a + k - a = k := by omega
  simp only [hk]
  by_cases hb : bs[k] = blank <;> simp [hb, show ¬ bs.length ≤ k by omega]

theorem Memory.readBlock_length (blank : Byte) (m : Memory) (a n : Nat) : (m.readBlock blank a n).length = n := by
  induction n generalizing a with
  | zero => rfl
  | succ n ih => simp [Memory.readBlock, ih]

theorem Memory.readBlock_getElem (blank : Byte) (m : Memory) (a n k : Nat) (h : k < (m.readBlock blank a n).length) :
    (m.readBlock blank a n)[k] = m.read blank (a + k) := by
  induction n generalizing a k with
  | zero => simp [Memory.readBlock] at h
  | succ n ih =>
    cases k with
    | zero => simp [Memory.readBlock]
    | succ k =>
      simp only [Memory.readBlock, List.getElem_cons_succ]
      rw [ih]
      congr 1; omega

/-- A written run reads back whole. -/
theorem Memory.readBlock_write (blank : Byte) (m : Memory) (a : Nat) (bs : List Byte) :
    (m.write blank a bs).readBlock blank a bs.length = bs := by
  apply List.ext_getElem
  · exact Memory.readBlock_length ..
  · intro k h1 h2
    rw [Memory.readBlock_getElem, Memory.read_write_inside blank m a k bs h2]

/-- A run outside a write reads as before. -/
theorem Memory.readBlock_write_outside (blank : Byte) (m : Memory) (a c n : Nat) (bs : List Byte)
    (h : c + n ≤ a ∨ a + bs.length ≤ c) :
    (m.write blank a bs).readBlock blank c n = m.readBlock blank c n := by
  apply List.ext_getElem
  · simp [Memory.readBlock_length]
  · intro k h1 h2
    rw [Memory.readBlock_length] at h1
    rw [Memory.readBlock_getElem, Memory.readBlock_getElem]
    exact Memory.read_write_outside (by unfold outsideRun; omega) blank m

/-- A cleared run reads as the blank, and every other byte stands. -/
theorem Memory.read_clear (blank : Byte) (m : Memory) (a n x : Nat) :
    (m.clear a n).read blank x = if a ≤ x ∧ x < a + n then blank else m.read blank x := by
  simp only [Memory.read_eq, Memory.clear, cellAt_filter (fun y => decide (y < a) || decide (a + n ≤ y))]
  by_cases h : a ≤ x ∧ x < a + n
  · have h1 : ¬ x < a := by omega
    have h2 : ¬ a + n ≤ x := by omega
    simp [h, h1, h2]
  · have : (decide (x < a) || decide (a + n ≤ x)) = true := by simp; omega
    simp [this, h]

/-! ### The canonical form -/

theorem cellsFrom_bounds (blank : Byte) (a : Nat) (bs : List Byte) :
    ∀ c ∈ cellsFrom blank a bs, a ≤ c.1 ∧ c.1 < a + bs.length ∧ c.2 ≠ blank := by
  induction bs generalizing a with
  | nil => simp [cellsFrom]
  | cons b bs ih =>
    intro c hc
    simp only [cellsFrom] at hc
    have tail : c ∈ cellsFrom blank (a + 1) bs → a ≤ c.1 ∧ c.1 < a + (b :: bs).length ∧ c.2 ≠ blank := by
      intro h
      have := ih (a + 1) c h
      simp only [List.length_cons]
      exact ⟨by omega, by omega, this.2.2⟩
    split at hc
    · exact tail hc
    · rcases List.mem_cons.1 hc with rfl | h
      · rename_i hb
        simp only [List.length_cons]
        exact ⟨by omega, by omega, hb⟩
      · exact tail h

theorem cellsFrom_rising (blank : Byte) (a : Nat) (bs : List Byte) :
    (cellsFrom blank a bs).Pairwise (fun c d => c.1 < d.1) := by
  induction bs generalizing a with
  | nil => simp [cellsFrom]
  | cons b bs ih =>
    simp only [cellsFrom]
    split
    · exact ih _
    · exact List.pairwise_cons.2 ⟨fun c hc => by have := cellsFrom_bounds blank (a + 1) bs c hc; simp only; omega, ih _⟩

theorem Memory.wf_iff (blank : Byte) (m : Memory) :
    m.wf blank = true ↔ m.Pairwise (fun a b => a.1 < b.1) ∧ ∀ c ∈ m, c.2 ≠ blank := by
  simp [Memory.wf]

/-- A write keeps the canonical form. -/
theorem Memory.write_wf {blank : Byte} {m : Memory} (h : m.wf blank = true) (a : Nat) (bs : List Byte) :
    (m.write blank a bs).wf blank = true := by
  rw [Memory.wf_iff] at h ⊢
  obtain ⟨hp, hb⟩ := h
  refine ⟨?_, ?_⟩
  · unfold Memory.write
    refine List.pairwise_append.2 ⟨List.pairwise_append.2 ⟨hp.filter _, cellsFrom_rising .., ?_⟩, hp.filter _, ?_⟩
    · intro c hc d hd
      have := cellsFrom_bounds _ _ _ d hd
      simp only [List.mem_filter, decide_eq_true_eq] at hc
      omega
    · intro c hc d hd
      simp only [List.mem_filter, decide_eq_true_eq] at hd
      rcases List.mem_append.1 hc with hc | hc
      · simp only [List.mem_filter, decide_eq_true_eq] at hc
        omega
      · have := cellsFrom_bounds _ _ _ c hc
        omega
  · intro c hc
    unfold Memory.write at hc
    simp only [List.mem_append, List.mem_filter] at hc
    rcases hc with (hc | hc) | hc
    · exact hb c hc.1
    · exact (cellsFrom_bounds _ _ _ c hc).2.2
    · exact hb c hc.1

/-- Returning a run to the blank keeps the canonical form. -/
theorem Memory.clear_wf {blank : Byte} {m : Memory} (h : m.wf blank = true) (a n : Nat) :
    (m.clear a n).wf blank = true := by
  rw [Memory.wf_iff] at h ⊢
  exact ⟨h.1.filter _, fun c hc => h.2 c (List.mem_filter.1 hc).1⟩

/-- A page program and a sector erase keep the canonical form. -/
theorem Flash.program_wf {f : Flash} (h : f.cells.wf flashBlank = true) (a : Nat) (bs : List Byte) :
    (f.program a bs).cells.wf flashBlank = true := Memory.write_wf h _ _

theorem Flash.eraseSector_wf {f : Flash} (h : f.cells.wf flashBlank = true) (n : Nat) :
    (f.eraseSector n).cells.wf flashBlank = true := Memory.clear_wf h _ _

/-- The host's own stores keep it, and reach nothing but its memory. -/
theorem Part.hostStores_wf (stores : Stores) (p : Part) (h : p.host.wf hostBlank = true) :
    (p.hostStores stores).host.wf hostBlank = true := by
  induction stores generalizing p with
  | nil => exact h
  | cons w ws ih =>
    show ((p.hostWrite w.1 [w.2]).hostStores ws).host.wf hostBlank = true
    exact ih _ (Memory.write_wf h _ _)

theorem Part.hostStores_eq (stores : Stores) (p : Part) :
    p.hostStores stores = { p with host := (p.hostStores stores).host } := by
  induction stores generalizing p with
  | nil => rfl
  | cons w ws ih =>
    show (p.hostWrite w.1 [w.2]).hostStores ws = _
    rw [ih]
    rfl

/-- Reset's memories stand in the canonical form. -/
theorem reset_memories_wf : State.reset.part.memoriesCanonical := by
  constructor <;> rfl

end Sys2Proof.Machine
end

