-- ==== Sys2Proof/Laws/Journal.lean ====
section
/-! SUPPORT. What staging and the arbiter can do while staging is not closed: the journal's own record, the journal-dirty
marks and the header's mark change, and nothing else of the part. -/

namespace Sys2Proof.Machine

/-! ### The arbiter -/

/-- What the arbiter may change of the journal's record. -/
def Jnc.served (j j' : Jnc) : Prop :=
  j' = { j with port := j'.port, headSector := j'.headSector, headPos := j'.headPos, sectorOpen := j'.sectorOpen
                sectorCounted := j'.sectorCounted, notErased := j'.notErased, format := j'.format
                failures := j'.failures, compaction := j'.compaction }

theorem Part.serveCommit_spec (p : Part) : ∃ j, p.serveCommit = { p with jnc := j } ∧ p.jnc.served j := by
  unfold Part.serveCommit
  dsimp only
  split
  · split <;> exact ⟨_, rfl, rfl⟩
  · split
    · exact ⟨_, rfl, rfl⟩
    · split <;> exact ⟨_, rfl, rfl⟩

theorem Part.stopStaging_spec (p : Part) : ∃ j, p.stopStaging = { p with jnc := j } ∧ p.jnc.served j := by
  unfold Part.stopStaging
  split
  · split <;> exact ⟨_, rfl, rfl⟩
  · exact ⟨_, rfl, rfl⟩

theorem Part.arbitrateFormat_spec (f : FormatRecord) (p : Part) :
    ∃ j, p.arbitrateFormat f = { p with jnc := j } ∧ p.jnc.served j := by
  have self : ∃ j, p = { p with jnc := j } ∧ p.jnc.served j := ⟨p.jnc, rfl, rfl⟩
  unfold Part.arbitrateFormat
  split
  · split
    · exact p.serveCommit_spec
    · split
      · exact ⟨_, rfl, rfl⟩
      · exact self
  · split <;> exact ⟨_, rfl, rfl⟩
  · exact self
  · exact self

theorem Part.arbitrate_spec {p : Part} (h : p.jnc.closing = none) :
    ∃ j, p.arbitrate = { p with jnc := j } ∧ p.jnc.served j := by
  simp only [Part.arbitrate, h]
  split
  · exact p.serveCommit_spec
  · split <;> exact ⟨_, rfl, rfl⟩

/-- All that the arbiter can do while staging is open. -/
theorem Part.pump_open {p : Part} (h : p.jnc.closing = none) :
    ∃ j, p.pump = { p with jnc := j } ∧ p.jnc.served j := by
  have hc : p.closingMark = p := by simp [Part.closingMark, h]
  obtain ⟨j, hq, hj⟩ := p.stopStaging_spec
  have hcl : j.closing = none := by rw [hj]; exact h
  have next : ∀ r : Part, (∃ j', r = { p.stopStaging with jnc := j' } ∧ p.stopStaging.jnc.served j') →
      ∃ j', r = { p with jnc := j' } ∧ p.jnc.served j' := by
    rintro r ⟨j', rfl, h'⟩
    refine ⟨j', by rw [hq], ?_⟩
    rw [hq] at h'
    unfold Jnc.served at hj h' ⊢
    rw [h', hj]
  unfold Part.pump
  simp only [hc]
  apply next
  split
  · exact ⟨_, rfl, rfl⟩
  · split
    · exact Part.arbitrateFormat_spec _ _
    · split
      · exact ⟨_, rfl, rfl⟩
      · exact Part.arbitrate_spec (by rw [hq]; exact hcl)

/-- The queue, and the fields that staging reads, stand through the arbiter. -/
theorem Part.pump_jnc {p : Part} (h : p.jnc.closing = none) :
    p.pump.jnc.queue = p.jnc.queue ∧ p.pump.jnc.waiting = p.jnc.waiting ∧ p.pump.jnc.engine = p.jnc.engine ∧
      p.pump.jnc.journal = p.jnc.journal ∧ p.pump.jnc.closing = none ∧ p.pump.jnc.freeCount = p.jnc.freeCount ∧
      p.pump.jnc.sinceMark = p.jnc.sinceMark ∧ p.pump.jnc.restore = p.jnc.restore ∧
      p.pump.jnc.dropTime = p.jnc.dropTime := by
  obtain ⟨j, hp, hj⟩ := Part.pump_open h
  rw [hp]
  rw [Jnc.served] at hj
  refine ⟨?_, ?_, ?_, ?_, ?_, ?_, ?_, ?_, ?_⟩ <;> (simp only; rw [hj]; try exact h)

/-- A compaction goes on through the arbiter, but for a FORMAT, which abandons it. -/
theorem Part.pump_compaction {p : Part} (h : p.jnc.closing = none) (hf : p.jnc.format = none) :
    p.pump.jnc.compaction = p.jnc.compaction := by
  have hc : p.closingMark.stopStaging = p := by simp [Part.closingMark, h, Part.stopStaging, hf]
  simp only [Part.pump, hc, hf]
  split
  · rfl
  · split
    · rfl
    · simp only [Part.arbitrate, h]
      split
      · unfold Part.serveCommit
        dsimp only
        split
        · split <;> rfl
        · split
          · rfl
          · split <;> rfl
      · split <;> rfl

/-! ### The marks of a resync -/

/-- A container record without its journal-dirty mark. -/
def Container.unmarked (c : Container) : Container := { c with dirty := false }

def Zone.unmarked (r : Zone) : Zone := { r with dirty := false }

/-- The two parts differ in the journal's record, the journal-dirty marks and the header's mark alone. -/
def Part.staged (p q : Part) : Prop :=
  q = { p with jnc := q.jnc
               exi := { p.exi with headerMark := q.exi.headerMark }
               ctu := { p.ctu with slots := q.ctu.slots }
               znu := { p.znu with zones := q.znu.zones } } ∧
    (∀ i, (q.slot i).map Container.unmarked = (p.slot i).map Container.unmarked) ∧
    (∀ z, (q.zone z).unmarked = (p.zone z).unmarked) ∧
    q.jnc.closing = p.jnc.closing ∧ q.jnc.engine = p.jnc.engine

theorem Part.staged_refl (p : Part) : p.staged p := ⟨rfl, fun _ => rfl, fun _ => rfl, rfl, rfl⟩

theorem Part.staged_trans {p q r : Part} (h : p.staged q) (k : q.staged r) : p.staged r := by
  obtain ⟨h1, h2, h3, h4, h5⟩ := h
  obtain ⟨k1, k2, k3, k4, k5⟩ := k
  refine ⟨?_, fun i => (k2 i).trans (h2 i), fun z => (k3 z).trans (h3 z), k4.trans h4, k5.trans h5⟩
  rw [k1, h1]

/-- A change of the journal's record that leaves the engine state and the closing alone. -/
theorem Part.staged_onJnc (f : Jnc → Jnc) (p : Part) (h : (f p.jnc).closing = p.jnc.closing)
    (h2 : (f p.jnc).engine = p.jnc.engine) : p.staged (p.onJnc f) :=
  ⟨rfl, fun _ => rfl, fun _ => rfl, h, h2⟩

theorem Part.staged_mark (i : Fin 2048) (b : Bool) {c : Container} {p : Part} (h : p.slot i = some c) :
    p.staged (p.setSlot i (some { c with dirty := b })) := by
  refine ⟨rfl, fun j => ?_, fun z => rfl, rfl, rfl⟩
  rw [Part.slot_setSlot]
  split
  · rename_i hij; subst hij; simp [h, Container.unmarked]
  · rfl

theorem Part.staged_markZone (z : Fin 64) (b : Bool) (p : Part) :
    p.staged (p.putZone z { p.zone z with dirty := b }) := by
  refine ⟨rfl, fun j => rfl, fun y => ?_, rfl, rfl⟩
  rw [Part.zone_putZone]
  split
  · rename_i hzy; subst hzy; rfl
  · rfl

theorem Part.staged_postHeader (p : Part) : p.staged p.postHeader :=
  ⟨rfl, fun _ => rfl, fun _ => rfl, rfl, rfl⟩

theorem Part.staged_pump {p : Part} (h : p.jnc.closing = none) : p.staged p.pump := by
  obtain ⟨j, hp, -⟩ := Part.pump_open h
  have := Part.pump_jnc h
  refine ⟨?_, ?_, ?_, this.2.2.2.2.1.trans h.symm, this.2.2.1⟩
  · rw [hp]
  · intro i; rw [hp]; rfl
  · intro z; rw [hp]; rfl

theorem Part.staged_clearMark (pl : Payload) (p : Part) : p.staged (p.clearMark pl) := by
  unfold Part.clearMark
  split
  · split
    · split
      · exact Part.staged_mark _ _ ‹_›
      · exact p.staged_refl
    · exact Part.staged_markZone _ _ _
    · exact p.staged_refl
  · exact p.staged_refl

theorem Part.clearMark_jnc (pl : Payload) (p : Part) : (p.clearMark pl).jnc = p.jnc := by
  unfold Part.clearMark
  split
  · split
    · split <;> rfl
    · rfl
    · rfl
  · rfl

theorem Part.clearMark_now (pl : Payload) (p : Part) : (p.clearMark pl).now = p.now := by
  unfold Part.clearMark
  split
  · split
    · split <;> rfl
    · rfl
    · rfl
  · rfl

/-! ### Entering the queue -/

theorem Part.staged_enqueue (owner : StagedBy) (pls : List Payload) (p : Part) : p.staged (p.enqueue owner pls) := by
  induction pls generalizing p with
  | nil => exact p.staged_refl
  | cons pl pls ih =>
    refine Part.staged_trans ?_ (ih _)
    exact Part.staged_trans (p.staged_clearMark pl) (Part.staged_onJnc _ _ rfl rfl)

/-- Entries enter at the tail of the queue, in order, stamped with the engine second. -/
theorem Part.enqueue_queue (owner : StagedBy) (pls : List Payload) (p : Part) :
    (p.enqueue owner pls).jnc.queue =
      p.jnc.queue ++ pls.map fun pl => { payload := pl, time := p.now, owner := owner } := by
  induction pls generalizing p with
  | nil => simp [Part.enqueue]
  | cons pl pls ih =>
    have step : (p.enqueue owner (pl :: pls)) = ((p.clearMark pl).onJnc fun j =>
        { j with queue := j.queue ++ [{ payload := pl, time := (p.clearMark pl).now, owner := owner }]
                 sinceMark := match pl with
                   | .timeMark _ => 0
                   | _ => j.sinceMark }).enqueue owner pls := rfl
    rw [step, ih]
    simp [Part.onJnc, Part.clearMark_jnc, Part.now]
    have := p.clearMark_now pl
    simp only [Part.now] at this
    simp [this]

/-! ### Offers -/

/-- All that an offered docket-caused entry can do while staging is open. -/
theorem Part.staged_offerDocket (o : Offer) {p : Part} (h : p.jnc.closing = none) : p.staged (p.offerDocket o) := by
  unfold Part.offerDocket
  split
  · exact p.staged_refl
  · dsimp only
    split
    · have hq := p.staged_enqueue .docket (p.offerPayloads o)
      exact Part.staged_trans hq (Part.staged_pump (hq.2.2.2.1.trans h))
    · exact Part.staged_onJnc _ _ rfl rfl

theorem Part.staged_markDirty (pl : Payload) (p : Part) : p.staged (p.markDirty pl) := by
  have one : ∀ (q : Part) (i : Fin 2048), q.staged (match q.slot i with
      | some c => q.setSlot i (some { c with dirty := true })
      | none => q) := by
    intro q i
    split
    · exact Part.staged_mark _ _ ‹_›
    · exact q.staged_refl
  have all : ∀ (is : List (Fin 2048)) (q : Part), q.staged (is.foldl (fun q i => match q.slot i with
      | some c => q.setSlot i (some { c with dirty := true })
      | none => q) q) := by
    intro is
    induction is with
    | nil => exact fun q => q.staged_refl
    | cons i is ih => exact fun q => Part.staged_trans (one q i) (ih _)
  unfold Part.markDirty
  split
  · exact Part.staged_trans (Part.staged_markZone _ _ _) (all _ _)
  · exact Part.staged_markZone _ _ _
  · exact one _ _
  · exact p.staged_refl

theorem Part.staged_dropEntry (pl : Payload) (p : Part) : p.staged (p.dropEntry pl) := by
  have h1 : p.staged (p.onJnc fun j => { j with dropTime := some (j.dropTime.getD p.now), endStaged := false }) :=
    Part.staged_onJnc _ p rfl rfl
  have h2 := Part.staged_trans h1 (Part.staged_markDirty pl _)
  unfold Part.dropEntry
  dsimp only
  split
  · exact h2
  · exact Part.staged_trans h2 (Part.staged_trans (Part.staged_onJnc _ _ rfl rfl) (Part.staged_postHeader _))

/-- All that an offered internal entry can do while staging is open. -/
theorem Part.staged_offerInternal (pl : Payload) {p : Part} (h : p.jnc.closing = none) :
    p.staged (p.offerInternal pl) := by
  unfold Part.offerInternal
  split
  · exact p.staged_refl
  · split
    · have hq := p.staged_enqueue .internal [pl]
      exact Part.staged_trans hq (Part.staged_pump (hq.2.2.2.1.trans h))
    · exact p.staged_dropEntry pl

theorem Part.staged_imageInternal (i : Fin 2048) {p : Part} (h : p.jnc.closing = none) :
    p.staged (p.imageInternal i) := by
  unfold Part.imageInternal
  split
  · exact Part.staged_offerInternal _ h
  · exact p.staged_refl

end Sys2Proof.Machine
end

