-- ==== Sys2Proof/Laws/Account.lean ====
section
/-! SUPPORT. What the exposure account and the zones can change while staging is open: settling, reports, evaluations and
triggers leave the identity of every container, every zone's configuration and members, the probes, the door lines, the
memories and the time as they were. -/

namespace Sys2Proof.Machine

/-- What no settle changes of a container. -/
def Container.identity (c : Container) : ContainerId × Fin 16 × Fin 64 := (c.id, c.cls, c.zone)

/-- All that the account, the zones and their reports can change of a part. -/
def Part.accounted (p q : Part) : Prop :=
  q = { p with jnc := q.jnc
               exi := { p.exi with headerMark := q.exi.headerMark, zoneMarks := q.exi.zoneMarks
                                   slotMarks := q.exi.slotMarks, rise := q.exi.rise, cause := q.exi.cause
                                   messages := q.exi.messages }
               ctu := { p.ctu with slots := q.ctu.slots }
               znu := { p.znu with zones := q.znu.zones }
               dou := { p.dou with holds := q.dou.holds, lamps := q.dou.lamps }
               dlu := q.dlu } ∧
    (∀ i, (q.slot i).map Container.identity = (p.slot i).map Container.identity) ∧
    (∀ z, (q.zone z).config = (p.zone z).config ∧ (q.zone z).members = (p.zone z).members) ∧
    q.jnc.closing = p.jnc.closing ∧ q.jnc.engine = p.jnc.engine

theorem Part.accounted_refl (p : Part) : p.accounted p := ⟨rfl, fun _ => rfl, fun _ => ⟨rfl, rfl⟩, rfl, rfl⟩

theorem Part.accounted_trans {p q r : Part} (h : p.accounted q) (k : q.accounted r) : p.accounted r := by
  obtain ⟨h1, h2, h3, h4, h5⟩ := h
  obtain ⟨k1, k2, k3, k4, k5⟩ := k
  refine ⟨?_, fun i => (k2 i).trans (h2 i), fun z => ⟨(k3 z).1.trans (h3 z).1, (k3 z).2.trans (h3 z).2⟩,
    k4.trans h4, k5.trans h5⟩
  rw [k1, h1]

theorem Part.accounted_foldl {α : Type} (f : Part → α → Part) 
    (h : ∀ (p : Part) (a : α), p.jnc.closing = none → p.accounted (f p a))
    (xs : List α) {p : Part} (hp : p.jnc.closing = none) : p.accounted (xs.foldl f p) := by
  induction xs generalizing p with
  | nil => exact p.accounted_refl
  | cons x xs ih =>
    have h1 := h p x hp
    exact Part.accounted_trans h1 (ih (h1.2.2.2.1.trans hp))

/-- A fold of updates that need no premise. -/
theorem Part.accounted_fold {α : Type} (f : Part → α → Part) (h : ∀ (p : Part) (a : α), p.accounted (f p a))
    (xs : List α) (p : Part) : p.accounted (xs.foldl f p) := by
  induction xs generalizing p with
  | nil => exact p.accounted_refl
  | cons x xs ih => exact Part.accounted_trans (h p x) (ih _)

theorem Part.accounted_of_staged {p q : Part} (h : p.staged q) : p.accounted q := by
  obtain ⟨h1, h2, h3, h4, h5⟩ := h
  refine ⟨?_, fun i => ?_, fun z => ?_, h4, h5⟩
  · rw [h1]
  · have := congrArg (Option.map Container.identity) (h2 i)
    rw [Option.map_map, Option.map_map] at this
    exact this
  · have := h3 z
    exact ⟨congrArg (·.config) this, congrArg (·.members) this⟩

/-! ### Posts and causes -/

theorem Part.accounted_postZone (z : Fin 64) (p : Part) : p.accounted (p.postZone z) :=
  ⟨rfl, fun _ => rfl, fun _ => ⟨rfl, rfl⟩, rfl, rfl⟩

theorem Part.accounted_postSlot (i : Fin 2048) (p : Part) : p.accounted (p.postSlot i) :=
  ⟨rfl, fun _ => rfl, fun _ => ⟨rfl, rfl⟩, rfl, rfl⟩

/-- Raising a cause changes the causes and the messages alone. -/
theorem Part.raise_eq (c : IrqCause) (p : Part) :
    p.raise c = { p with exi := { p.exi with cause := (p.raise c).exi.cause, messages := (p.raise c).exi.messages } } := by
  unfold Part.raise
  split
  · rfl
  · dsimp only
    split <;> rfl

/-- A cause raised is set. -/
theorem Part.raise_sets (c : IrqCause) (p : Part) : (p.raise c).exi.cause.getLsbD c.bit = true := by
  unfold Part.raise
  split
  · assumption
  · dsimp only
    split <;> cases c <;> simp [IrqCause.bit]

/-- Raising a cause clears none. -/
theorem Part.raise_keeps (c d : IrqCause) (p : Part) (h : p.exi.cause.getLsbD d.bit = true) :
    (p.raise c).exi.cause.getLsbD d.bit = true := by
  unfold Part.raise
  split
  · assumption
  · dsimp only
    split <;> simp [h]

theorem Part.accounted_raise (c : IrqCause) (p : Part) : p.accounted (p.raise c) := by
  have h := p.raise_eq c
  refine ⟨?_, ?_, ?_, ?_, ?_⟩
  · rw [h]
  · intro i; rw [h]; rfl
  · intro z; rw [h]; exact ⟨rfl, rfl⟩
  · rw [h]
  · rw [h]

theorem Part.accounted_handRise (p : Part) : p.accounted p.handRise := by
  unfold Part.handRise
  split
  · exact ⟨rfl, fun _ => rfl, fun _ => ⟨rfl, rfl⟩, rfl, rfl⟩
  · exact p.accounted_raise _

/-! ### Zone records and drives -/

/-- A zone record that keeps its configuration and its members. -/
theorem Part.accounted_putZone (z : Fin 64) (r : Zone) (p : Part) (hc : r.config = (p.zone z).config)
    (hm : r.members = (p.zone z).members) : p.accounted (p.putZone z r) := by
  refine ⟨rfl, fun _ => rfl, fun y => ?_, rfl, rfl⟩
  rw [Part.zone_putZone]
  split
  · rename_i h; subst h; exact ⟨hc, hm⟩
  · exact ⟨rfl, rfl⟩

theorem Part.accounted_setZone (z : Fin 64) (r : Zone) (p : Part) (hc : r.config = (p.zone z).config)
    (hm : r.members = (p.zone z).members) : p.accounted (p.setZone z r) := by
  unfold Part.setZone
  dsimp only
  split
  · exact p.accounted_putZone z r hc hm
  · exact Part.accounted_trans (p.accounted_putZone z r hc hm) (Part.accounted_postZone _ _)

/-- A zone record reads back, posted or not. -/
theorem Part.zone_setZone (z y : Fin 64) (r : Zone) (p : Part) :
    (p.setZone z r).zone y = if z = y then r else p.zone y := by
  unfold Part.setZone
  dsimp only
  split <;> simp [Part.zone_putZone]

theorem Part.accounted_deriveHold (n : Fin 8) (p : Part) : p.accounted (p.deriveHold n) :=
  ⟨rfl, fun _ => rfl, fun _ => ⟨rfl, rfl⟩, rfl, rfl⟩

theorem Part.accounted_deriveLamp (n : Fin 8) (p : Part) : p.accounted (p.deriveLamp n) := by
  unfold Part.deriveLamp
  dsimp only
  split
  · exact ⟨rfl, fun _ => rfl, fun _ => ⟨rfl, rfl⟩, rfl, rfl⟩
  · split
    · exact p.accounted_refl
    · exact ⟨rfl, fun _ => rfl, fun _ => ⟨rfl, rfl⟩, rfl, rfl⟩

theorem Part.accounted_reportCounts (z : Fin 64) (p : Part) : p.accounted (p.reportCounts z) := by
  unfold Part.reportCounts
  exact Part.accounted_trans (Part.accounted_fold _ (fun p n => p.accounted_deriveHold n) _ _)
    (Part.accounted_fold _ (fun p n => p.accounted_deriveLamp n) _ _)

theorem Part.accounted_moveCounts (z : Fin 64) (a b c d : Bool) (p : Part) : p.accounted (p.moveCounts z a b c d) := by
  unfold Part.moveCounts
  split
  · exact p.accounted_refl
  · dsimp only
    refine Part.accounted_trans (p.accounted_setZone z _ ?_ ?_) (Part.accounted_reportCounts _ _) <;> rfl

/-! ### Levels, summaries and deadlines -/

theorem Part.accounted_reportLevel (a b : AlertLevel) (p : Part) : p.accounted (p.reportLevel a b) := by
  have count : p.accounted (p.countLevel a b) := ⟨rfl, fun _ => rfl, fun _ => ⟨rfl, rfl⟩, rfl, rfl⟩
  unfold Part.reportLevel
  split
  · exact p.accounted_refl
  · dsimp only
    split
    · exact Part.accounted_trans count (Part.accounted_handRise _)
    · exact count

theorem Part.accounted_postIfChanged (i : Fin 2048) (a b : Option Container) (p : Part) :
    p.accounted (p.postIfChanged i a b) := by
  unfold Part.postIfChanged
  split
  · exact p.accounted_refl
  · exact p.accounted_postSlot i

theorem Part.accounted_onDlu (f : Dlu → Dlu) (p : Part) : p.accounted (p.onDlu f) :=
  ⟨rfl, fun _ => rfl, fun _ => ⟨rfl, rfl⟩, rfl, rfl⟩

theorem Part.accounted_placeDue (i : Fin 2048) (c : Container) (p : Part) : p.accounted (p.placeDue i c) := by
  unfold Part.placeDue
  split <;> exact p.accounted_onDlu _

/-- A record that keeps its container's identity. -/
theorem Part.accounted_setSlot {i : Fin 2048} {c old : Container} {p : Part} (hs : p.slot i = some old)
    (hi : c.identity = old.identity) : p.accounted (p.setSlot i (some c)) := by
  refine ⟨rfl, fun j => ?_, fun _ => ⟨rfl, rfl⟩, rfl, rfl⟩
  rw [Part.slot_setSlot]
  split
  · rename_i h; subst h; simp [hs, hi]
  · rfl

theorem Part.accounted_commitRecord {i : Fin 2048} {c old : Container} {p : Part} (hs : p.slot i = some old)
    (hi : c.identity = old.identity) : p.accounted (p.commitRecord i old c) := by
  unfold Part.commitRecord
  dsimp only
  refine Part.accounted_trans (Part.accounted_setSlot hs hi) ?_
  refine Part.accounted_trans (Part.accounted_placeDue i c _) ?_
  refine Part.accounted_trans (Part.accounted_moveCounts c.zone old.blocks old.countsWarned c.blocks c.countsWarned _) ?_
  exact Part.accounted_trans (Part.accounted_reportLevel _ _ _) (Part.accounted_postIfChanged _ _ _ _)

/-! ### Settling and carrying a change through -/

@[simp] theorem settleRecord_identity (k : ClassDef) (T : Nat) (c : Container) :
    (settleRecord k T c).1.identity = c.identity := by
  unfold settleRecord
  split
  · rfl
  · dsimp only
    split
    · split <;> rfl
    · rfl
    · rfl
    · rfl
    · split <;> rfl

@[simp] theorem warnRecord_identity (k : ClassDef) (c : Container) : (warnRecord k c).1.identity = c.identity := by
  unfold warnRecord
  split
  · rfl
  · split <;> rfl

@[simp] theorem withDues_identity (k : ClassDef) (c : Container) : (withDues k c).identity = c.identity := by
  unfold withDues
  split
  · split <;> rfl
  · rfl

@[simp] theorem Part.deriveRecord_identity (keep : Bool) (c : Container) (p : Part) :
    (p.deriveRecord keep c).1.identity = c.identity := by
  simp only [Part.deriveRecord, withDues_identity, warnRecord_identity]
  rfl

/-- All that a settle with a change can do: the identity stands when the change keeps it. -/
theorem Part.accounted_changeTo (i : Fin 2048) (T : Nat) (keep : Bool) (f : Container → Container)
    (hf : ∀ c, (f c).identity = c.identity) (p : Part) : p.accounted (p.changeTo i T keep f).1 := by
  unfold Part.changeTo
  split
  · rename_i c hc
    refine Part.accounted_commitRecord hc ?_
    rw [Part.deriveRecord_identity, hf, settleRecord_identity]
  · exact p.accounted_refl

theorem Part.accounted_imageIf (i : Fin 2048) {p : Part} (b : Bool) (h : p.jnc.closing = none) :
    p.accounted (Part.imageIf i (p, b)) := by
  unfold Part.imageIf
  split
  · exact Part.accounted_of_staged (Part.staged_imageInternal i h)
  · exact p.accounted_refl

theorem Part.accounted_reachMember (i : Fin 2048) (z : Fin 64) {p : Part} (h : p.jnc.closing = none) :
    p.accounted (p.reachMember i z) := by
  unfold Part.reachMember
  split
  · rename_i g hg
    split
    · dsimp only
      have h1 := p.accounted_putZone z
        { p.zone z with change := if (g.remaining.filter (· != i)).isEmpty then none
                                  else some { g with remaining := g.remaining.filter (· != i) } } rfl rfl
      have h2 := Part.accounted_trans h1
        (Part.accounted_changeTo i g.time (staysDrying g.old (p.zone z).condition) id (fun _ => rfl) _)
      have h3 := Part.accounted_trans h2 (Part.accounted_postSlot i _)
      exact Part.accounted_trans h3 (Part.accounted_imageIf i _ (h3.2.2.2.1.trans h))
    · exact p.accounted_refl
  · exact p.accounted_refl

theorem Part.accounted_reached (i : Fin 2048) {p : Part} (h : p.jnc.closing = none) : p.accounted (p.reached i) := by
  unfold Part.reached
  split
  · exact Part.accounted_reachMember _ _ h
  · exact p.accounted_refl

/-- All that settling a slot can do. -/
theorem Part.accounted_settleSlot (i : Fin 2048) (T : Nat) {p : Part} (h : p.jnc.closing = none) :
    p.accounted (p.settleSlot i T).1 :=
  Part.accounted_trans (Part.accounted_reached i h) (Part.accounted_changeTo _ _ _ _ (fun _ => rfl) _)

/-! ### Evaluations and triggers -/

theorem Part.evaluated_config (p : Part) (r : Zone) :
    (p.evaluated r).1.config = r.config ∧ (p.evaluated r).1.members = r.members := by
  unfold Part.evaluated
  dsimp only
  split
  · exact ⟨rfl, rfl⟩
  · split <;> exact ⟨rfl, rfl⟩
  · split <;> exact ⟨rfl, rfl⟩
  · split
    · exact ⟨rfl, rfl⟩
    · split <;> exact ⟨rfl, rfl⟩
  · exact ⟨rfl, rfl⟩

theorem Part.accounted_carryChange (z : Fin 64) (reach : Reach) {p : Part} (h : p.jnc.closing = none) :
    p.accounted (p.carryChange z reach) := by
  unfold Part.carryChange
  split
  · exact Part.accounted_foldl _ (fun p i hp => Part.accounted_reachMember i z hp) _ h
  · exact p.accounted_refl

theorem Part.accounted_evaluateOne (z : Fin 64) (t : Nat) (own : Bool) (reach : Reach) {p : Part}
    (h : p.jnc.closing = none) : p.accounted (p.evaluateOne z t own reach).1 := by
  have he := p.evaluated_config (p.zone z)
  unfold Part.evaluateOne
  dsimp only
  split
  · exact p.accounted_setZone z _ he.1 he.2
  · have h1 := p.accounted_setZone z
      { (p.evaluated (p.zone z)).1 with
        condition := (p.evaluated (p.zone z)).2
        conditionTime := max t (p.zone z).conditionTime
        change := if (p.zone z).members.isEmpty then none
          else some { old := (p.zone z).condition, time := max t (p.zone z).conditionTime
                      remaining := (p.zone z).members } } he.1 he.2
    have c1 := h1.2.2.2.1.trans h
    cases own
    · have h2 := fun pl => Part.accounted_trans h1 (Part.accounted_of_staged (Part.staged_offerInternal pl c1))
      exact Part.accounted_trans (h2 _) (Part.accounted_carryChange z reach ((h2 _).2.2.2.1.trans h))
    · exact Part.accounted_trans h1 (Part.accounted_carryChange z reach c1)

theorem Zone.wait_config (r : Zone) (src : TriggerSource) (t : Nat) (own : Bool) :
    (r.wait src t own).config = r.config ∧ (r.wait src t own).members = r.members := by
  cases src <;> exact ⟨rfl, rfl⟩

theorem Part.accounted_triggerOne (src : TriggerSource) (z : Fin 64) (t : Nat) (own : Bool) (reach : Reach) {p : Part}
    (h : p.jnc.closing = none) : p.accounted (p.triggerOne src z t own reach).1 := by
  unfold Part.triggerOne
  split
  · exact p.accounted_putZone z _ (Zone.wait_config ..).1 (Zone.wait_config ..).2
  · exact Part.accounted_evaluateOne z t own reach h

theorem Part.accounted_triggerFollowers (z : Fin 64) (t : Nat) (reach : Reach) {p : Part} (h : p.jnc.closing = none) :
    p.accounted (p.triggerFollowers z t reach) := by
  unfold Part.triggerFollowers
  exact Part.accounted_foldl _ (fun p y hp => Part.accounted_triggerOne _ y t _ reach hp) _ h

theorem Part.accounted_evaluateZone (z : Fin 64) (t : Nat) (own : Bool) (reach : Reach) {p : Part}
    (h : p.jnc.closing = none) : p.accounted (p.evaluateZone z t own reach) := by
  have h1 := Part.accounted_evaluateOne z t own reach h
  unfold Part.evaluateZone
  dsimp only
  split
  · exact Part.accounted_trans h1 (Part.accounted_triggerFollowers _ _ _ (h1.2.2.2.1.trans h))
  · exact h1

/-- All that a trigger can do. -/
theorem Part.accounted_trigger (src : TriggerSource) (z : Fin 64) (t : Nat) (own : Bool) (reach : Reach) {p : Part}
    (h : p.jnc.closing = none) : p.accounted (p.trigger src z t own reach) := by
  unfold Part.trigger
  split
  · exact p.accounted_putZone z _ (Zone.wait_config ..).1 (Zone.wait_config ..).2
  · exact Part.accounted_evaluateZone z t own reach h

theorem Part.accounted_triggerAll {p : Part} (h : p.jnc.closing = none) : p.accounted p.triggerAll := by
  unfold Part.triggerAll
  exact Part.accounted_foldl _ (fun p z hp => Part.accounted_trigger _ z _ _ _ hp) _ h

/-! ### Readings, staleness, doors -/

theorem Part.accounted_passTo (i : Fin 2048) (temp : Int) (t : Nat) {p : Part} (h : p.jnc.closing = none) :
    p.accounted (p.passTo i temp t) := by
  have hr := Part.accounted_reached i h
  unfold Part.passTo
  dsimp only
  split
  · rename_i c hc
    split
    · have h1 := Part.accounted_trans hr (Part.accounted_changeTo i t true
        (overheat ((p.reached i).classDef c.cls) temp) (fun c => by unfold overheat; split <;> rfl) (p.reached i))
      split
      · split
        · exact Part.accounted_trans h1 (Part.accounted_imageIf i _ (h1.2.2.2.1.trans h))
        · have h2 := Part.accounted_trans h1 (Part.accounted_postSlot i _)
          exact Part.accounted_trans h2 (Part.accounted_imageIf i _ (h2.2.2.2.1.trans h))
      · exact h1
    · exact hr
  · exact hr

theorem Part.accounted_passReading (z : Fin 64) (temp : Int) (t : Nat) {p : Part} (h : p.jnc.closing = none) :
    p.accounted (p.passReading z temp t) := by
  unfold Part.passReading
  split
  · exact Part.accounted_foldl _ (fun p i hp => Part.accounted_passTo i temp t hp) _ h
  · exact p.accounted_refl

theorem Part.accounted_deliverReading (z : Fin 64) (v : Reading) (t : Nat) (reach : Reach) {p : Part}
    (h : p.jnc.closing = none) : p.accounted (p.deliverReading z v t reach) := by
  have h1 := p.accounted_setZone z { p.zone z with held := some v, stale := false } rfl rfl
  have h2 := Part.accounted_trans h1 (Part.accounted_trigger .reading z t false reach (h1.2.2.2.1.trans h))
  exact Part.accounted_trans h2 (Part.accounted_passReading _ _ _ (h2.2.2.2.1.trans h))

theorem Part.accounted_reportStale (z : Fin 64) (t : Nat) (reach : Reach) {p : Part} (h : p.jnc.closing = none) :
    p.accounted (p.reportStale z t reach) := by
  have h1 := p.accounted_setZone z { p.zone z with stale := true } rfl rfl
  unfold Part.reportStale
  dsimp only
  split
  · have h2 := Part.accounted_trans h1 (Part.accounted_handRise _)
    exact Part.accounted_trans h2 (Part.accounted_trigger _ _ _ _ _ (h2.2.2.2.1.trans h))
  · exact Part.accounted_trans h1 (Part.accounted_trigger _ _ _ _ _ (h1.2.2.2.1.trans h))

theorem Part.accounted_reportDoor (z : Fin 64) (isOpen : Bool) (t : Nat) (reach : Reach) {p : Part}
    (h : p.jnc.closing = none) : p.accounted (p.reportDoor z isOpen t reach) := by
  have h1 := p.accounted_setZone z { p.zone z with doorOpen := isOpen } rfl rfl
  unfold Part.reportDoor
  split
  · exact p.accounted_refl
  · exact Part.accounted_trans h1 (Part.accounted_trigger _ _ _ _ _ (h1.2.2.2.1.trans h))

theorem Part.accounted_reportAjar (z : Fin 64) (ajar : Bool) (p : Part) : p.accounted (p.reportAjar z ajar) := by
  have h1 := p.accounted_setZone z { p.zone z with ajar := ajar } rfl rfl
  unfold Part.reportAjar
  split
  · exact p.accounted_refl
  · dsimp only
    split
    · exact Part.accounted_trans h1 (Part.accounted_handRise _)
    · exact h1

end Sys2Proof.Machine
end

