-- ==== Sys2Proof/Laws/Deadlines.lean ====
section
/-! SUPPORT. The deadline list: each operation keeps its order and its one entry for each slot. What a settle leaves of a
record, and what a failure of the journal leaves of the docket in hand. -/

namespace Sys2Proof.Machine

/-- The order of a deadline list, and one entry for each slot. -/
def dueOrdered (xs : List Due) : Prop :=
  xs.Pairwise (fun a b => a.before b = true) ∧ (xs.map (·.slot)).Nodup

theorem Due.before_iff (a b : Due) : a.before b = true ↔ a.due < b.due ∨ (a.due = b.due ∧ a.slot < b.slot) := by
  simp [Due.before]

theorem Due.before_trans {a b c : Due} (h : a.before b = true) (k : b.before c = true) : a.before c = true := by
  rw [Due.before_iff] at *
  rcases h with h | ⟨h, h'⟩ <;> rcases k with k | ⟨k, k'⟩
  · exact .inl (by omega)
  · exact .inl (by omega)
  · exact .inl (by omega)
  · exact .inr ⟨by omega, lt_trans h' k'⟩

/-- Two entries of different slots stand in one order or the other. -/
theorem Due.before_of_not {a b : Due} (h : ¬ a.before b = true) (hs : a.slot ≠ b.slot) : b.before a = true := by
  rw [Due.before_iff] at *
  push Not at h
  by_cases hd : a.due = b.due
  · exact .inr ⟨hd.symm, lt_of_le_of_ne (h.2 hd) (Ne.symm hs)⟩
  · exact .inl (by have := h.1; omega)

theorem mem_insertDue (e x : Due) (xs : List Due) : x ∈ insertDue e xs ↔ x = e ∨ x ∈ xs := by
  induction xs with
  | nil => simp [insertDue]
  | cons y ys ih =>
    simp only [insertDue]
    split
    · simp
    · simp only [List.mem_cons, ih]
      tauto

theorem insertDue_slots (e : Due) (xs : List Due) :
    ((insertDue e xs).map (·.slot)).Perm (e.slot :: xs.map (·.slot)) := by
  induction xs with
  | nil => simp [insertDue]
  | cons y ys ih =>
    simp only [insertDue]
    split
    · simp
    · simp only [List.map_cons]
      exact (List.Perm.cons _ ih).trans (List.Perm.swap _ _ _)

theorem insertDue_ordered {e : Due} {xs : List Due} (h : dueOrdered xs) (hs : ∀ x ∈ xs, x.slot ≠ e.slot) :
    dueOrdered (insertDue e xs) := by
  obtain ⟨hp, hn⟩ := h
  refine ⟨?_, ?_⟩
  · clear hn
    induction xs with
    | nil => simp [insertDue]
    | cons y ys ih =>
      rw [List.pairwise_cons] at hp
      simp only [insertDue]
      split
      · rename_i hb
        refine List.pairwise_cons.2 ⟨?_, List.pairwise_cons.2 hp⟩
        intro z hz
        rcases List.mem_cons.1 hz with rfl | hz
        · exact hb
        · exact Due.before_trans hb (hp.1 z hz)
      · rename_i hb
        have hy : y.before e = true :=
          Due.before_of_not hb (fun heq => hs y (List.mem_cons_self ..) heq.symm)
        refine List.pairwise_cons.2 ⟨?_, ih (fun x hx => hs x (List.mem_cons_of_mem _ hx)) hp.2⟩
        intro z hz
        rcases (mem_insertDue e z ys).1 hz with rfl | hz
        · exact hy
        · exact hp.1 z hz
  · rw [(insertDue_slots e xs).nodup_iff, List.nodup_cons]
    refine ⟨?_, hn⟩
    simp only [List.mem_map, not_exists, not_and]
    exact fun x hx => hs x hx

theorem removeDue_ordered {xs : List Due} (h : dueOrdered xs) (i : Fin 2048) : dueOrdered (removeDue i xs) :=
  ⟨h.1.filter _, h.2.sublist (List.filter_sublist.map _)⟩

theorem mem_removeDue (i : Fin 2048) (x : Due) (xs : List Due) : x ∈ removeDue i xs ↔ x ∈ xs ∧ x.slot ≠ i := by
  simp [removeDue]

@[simp] theorem Dlu.checkPass_entries (d : Dlu) : d.checkPass.entries = d.entries := by
  unfold Dlu.checkPass
  split
  · split <;> rfl
  · rfl

@[simp] theorem Dlu.noteMoved_entries (i : Fin 2048) (d : Dlu) : (d.noteMoved i).entries = d.entries := by
  unfold Dlu.noteMoved
  split <;> rfl

/-- R130: a placed entry is in the list, and it is its slot's one entry. -/
theorem Dlu.place_ordered (i : Fin 2048) (due : Nat) (kind : DueKind) {d : Dlu} (h : dueOrdered d.entries) :
    dueOrdered (d.place i due kind).entries := by
  unfold Dlu.place
  dsimp only
  split
  · exact h
  · rw [Dlu.checkPass_entries, Dlu.noteMoved_entries]
    exact insertDue_ordered (removeDue_ordered h i) (fun x hx => ((mem_removeDue i x _).1 hx).2)

theorem Dlu.mem_place (i : Fin 2048) (due : Nat) (kind : DueKind) (d : Dlu) :
    { due := due, slot := i, kind := kind } ∈ (d.place i due kind).entries := by
  unfold Dlu.place
  dsimp only
  split
  · rename_i h; simpa using h
  · rw [Dlu.checkPass_entries, Dlu.noteMoved_entries, mem_insertDue]
    exact .inl rfl

/-- R130: a removed slot has no entry, and the others stand. -/
theorem Dlu.mem_remove (i : Fin 2048) (d : Dlu) (x : Due) :
    x ∈ (d.remove i).entries ↔ x ∈ d.entries ∧ x.slot ≠ i := by
  unfold Dlu.remove
  split
  · rw [Dlu.checkPass_entries, mem_removeDue]
  · rename_i h
    simp only [List.any_eq_true, beq_iff_eq, not_exists, not_and] at h
    exact ⟨fun hx => ⟨hx, h x hx⟩, fun hx => hx.1⟩

theorem Dlu.remove_ordered (i : Fin 2048) {d : Dlu} (h : dueOrdered d.entries) : dueOrdered (d.remove i).entries := by
  unfold Dlu.remove
  split
  · rw [Dlu.checkPass_entries]; exact removeDue_ordered h i
  · exact h

/-- R131: an entry that a pass takes stands in the list, is due at or before the pass time, was not placed or moved during
the pass, and lies beyond the place the pass has come to. -/
theorem passNext_spec {q : Pass} {xs : List Due} {e : Due} (h : passNext q xs = some e) :
    e ∈ xs ∧ e.due ≤ q.time ∧ e.slot ∉ q.moved ∧
      ∀ r, q.reached = some r → r.1 < e.due ∨ (r.1 = e.due ∧ r.2 < e.slot.val) := by
  unfold passNext at h
  split at h
  · rename_i y hy
    split at h
    · rename_i hc
      obtain rfl := Option.some.inj h
      have hb := List.find?_some hy
      simp only [Bool.and_eq_true, decide_eq_true_eq, Bool.not_eq_true', List.contains_eq_mem,
        decide_eq_false_iff_not] at hc
      refine ⟨List.mem_of_find?_eq_some hy, hc.1, hc.2, fun r hr => ?_⟩
      simpa [hr] using hb
    · cases h
  · cases h

/-- What a pass takes leaves the list. -/
theorem Dlu.take_ordered {kind : DueKind} {d d' : Dlu} {e : Due} (h : dueOrdered d.entries)
    (ht : d.take kind = some (e, d')) : dueOrdered d'.entries ∧ e ∈ d.entries ∧ e.kind = kind := by
  unfold Dlu.take at ht
  split at ht
  · split at ht
    · rename_i q _ x hx
      split at ht
      · rename_i hk
        obtain ⟨rfl, rfl⟩ := Prod.mk.inj (Option.some.inj ht)
        exact ⟨removeDue_ordered h _, (passNext_spec hx).1, hk⟩
      · cases ht
    · cases ht
  · cases ht

/-! ### Settling -/

/-- R10: what a settle leaves of a record besides its exposure, its bake and its custody. -/
theorem settleRecord_settled (k : ClassDef) {T : Nat} {c : Container} (h : c.settled ≤ T) :
    (settleRecord k T c).1.settled = T := by
  unfold settleRecord
  rw [if_neg (by omega)]
  dsimp only
  split
  · split <;> rfl
  · rfl
  · rfl
  · rfl
  · split <;> rfl

/-- A settle to a time before S changes nothing (R10). -/
theorem settleRecord_before (k : ClassDef) {T : Nat} {c : Container} (h : T < c.settled) :
    settleRecord k T c = (c, false) := by
  unfold settleRecord
  rw [if_pos h]

/-- R19: the derivation of a record leaves its exposure, its settle time and its custody. -/
theorem Part.deriveRecord_spec (keep : Bool) (c : Container) (p : Part) :
    (p.deriveRecord keep c).1.exposure = c.exposure ∧ (p.deriveRecord keep c).1.settled = c.settled ∧
      (p.deriveRecord keep c).1.custody = c.custody := by
  have dues : ∀ (k : ClassDef) (c : Container), (withDues k c).exposure = c.exposure ∧
      (withDues k c).settled = c.settled ∧ (withDues k c).custody = c.custody := by
    intro k c
    unfold withDues
    split
    · split <;> exact ⟨rfl, rfl, rfl⟩
    · exact ⟨rfl, rfl, rfl⟩
  have warn : ∀ (k : ClassDef) (c : Container), (warnRecord k c).1.exposure = c.exposure ∧
      (warnRecord k c).1.settled = c.settled ∧ (warnRecord k c).1.custody = c.custody := by
    intro k c
    unfold warnRecord
    split
    · exact ⟨rfl, rfl, rfl⟩
    · split <;> exact ⟨rfl, rfl, rfl⟩
  unfold Part.deriveRecord
  dsimp only
  refine ⟨?_, ?_, ?_⟩
  · rw [(dues _ _).1, (warn _ _).1]; rfl
  · rw [(dues _ _).2.1, (warn _ _).2.1]; rfl
  · rw [(dues _ _).2.2, (warn _ _).2.2]; rfl

/-! ### The docket in hand -/

/-- All that finishing a docket can do. -/
theorem Part.finishDocket_spec {p : Part} {d : InHand} (h : p.exi.inHand = some d) (a : Answer) :
    p.finishDocket a = { p with exi := { p.exi with inHand := some { d with stage := .finished a } } } := by
  simp [Part.finishDocket, h, Part.setInHand]

theorem Part.refuseDocket_spec {p : Part} {d : InHand} (h : p.exi.inHand = some d) (r : ResultCode) :
    p.refuseDocket r = p.refusedWith d r := Part.finishDocket_spec h _

/-- A docket has finished when its owner has answered it and no trigger and no entry to RUNNING is awaited (R67, R172). -/
theorem Part.finishedDocket_eq_some {p : Part} {d : InHand} {a : Answer} : p.finishedDocket = some (d, a) ↔
    p.exi.inHand = some d ∧ d.stage = .finished a ∧ d.triggers = [] ∧
      (d.awaitRunning = false ∨ p.jnc.engine = .running) := by
  unfold Part.finishedDocket
  cases p.exi.inHand with
  | none => simp
  | some e =>
    dsimp only
    split
    · rename_i b hb
      simp only [List.isEmpty_iff, Option.some.injEq]
      constructor
      · intro h
        split at h
        · rename_i hw
          obtain ⟨rfl, rfl⟩ := Prod.mk.inj (Option.some.inj h)
          exact ⟨rfl, hb, hw⟩
        · cases h
      · rintro ⟨rfl, ha, hw⟩
        rw [if_pos hw, DocketStage.finished.inj (hb.symm.trans ha)]
    · rename_i hn
      exact ⟨nofun, fun ⟨he, ha, _⟩ => absurd (Option.some.inj he ▸ ha) (hn a)⟩

theorem Part.docketCommitted_iff (p : Part) :
    p.docketCommitted = true ↔ p.jnc.waiting = [] ∧ ∀ e ∈ p.jnc.queue, e.owner ≠ .docket := by
  simp [Part.docketCommitted, Part.docketEntries, List.filter_eq_nil_iff]

/-- All that the mark before a failure of the journal can do (R149 step 2). -/
theorem Part.markDurable_spec (p : Part) : ∃ f, p.markDurable = p.setInHand f ∧
    (p.jnc.format = none → p.handAfterFailure (p.setInHand f)) := by
  have keep : p.markDurable = p → (∀ d a, p.finishedDocket = some (d, a) → p.docketCommitted = true →
      p.jnc.format ≠ none) → ∃ f, p.markDurable = p.setInHand f ∧
        (p.jnc.format = none → p.handAfterFailure (p.setInHand f)) := fun hp h =>
    ⟨p.exi.inHand, hp, fun hf => ⟨id, fun d hd => ⟨fun ⟨⟨⟨a, ha⟩, hw⟩, hc⟩ =>
      absurd hf (h d a (Part.finishedDocket_eq_some.mpr ⟨hd, ha, hw⟩) (p.docketCommitted_iff.mpr hc)), fun _ => hd⟩⟩⟩
  cases hx : p.finishedDocket with
  | none => exact keep (by simp [Part.markDurable, hx]) (by simp [hx])
  | some x =>
    obtain ⟨d, a⟩ := x
    have hd := Part.finishedDocket_eq_some.mp hx
    by_cases hm : p.docketCommitted = true ∧ p.jnc.format = none
    · refine ⟨some { d with durable := true }, by simp [Part.markDurable, hx, hm], fun _ => ⟨?_, fun e he => ?_⟩⟩
      · intro h; rw [hd.1] at h; cases h
      · obtain rfl := Option.some.inj (hd.1.symm.trans he)
        exact ⟨fun _ => rfl, fun h => absurd ⟨⟨⟨a, hd.2.1⟩, hd.2.2⟩, p.docketCommitted_iff.mp hm.1⟩ h⟩
    · exact keep (by simp only [Part.markDurable, hx, if_neg hm]) fun _ _ _ hc hf => hm ⟨hc, hf⟩

/-- All that a failure of the journal does while staging is open and no FORMAT runs (R165, R149 step 2). -/
theorem Part.failJournal_spec {p : Part} (hc : p.jnc.closing = none) (hf : p.jnc.format = none) :
    p.handAfterFailure p.failJournal ∧ p.failJournal.exi.cause.getLsbD 2 = true ∧ p.failJournal = { p with
      jnc := { p.jnc with journal := .failed, queue := [], waiting := [], compaction := .idle, port := .reset }
      exi := { p.exi with inHand := p.failJournal.exi.inHand, headerMark := true, cause := p.failJournal.exi.cause
                          messages := p.failJournal.exi.messages } } := by
  obtain ⟨f, hm, hh⟩ := p.markDurable_spec
  have hr : p.failJournal = ((((p.setInHand f).onJnc fun j => { j with
      journal := .failed, queue := [], waiting := [], compaction := .idle, port := .reset }).postHeader).raise
        .engine) := by
    unfold Part.failJournal
    rw [hm]
    have := Part.raise_eq .engine (((p.setInHand f).onJnc fun j => { j with
      journal := .failed, queue := [], waiting := [], compaction := .idle, port := .reset }).postHeader)
    dsimp only
    rw [this]
    simp [Part.setInHand, Part.onJnc, Part.postHeader, hc, hf]
  rw [hr]
  have hs := Part.raise_sets .engine (((p.setInHand f).onJnc fun j => { j with
    journal := .failed, queue := [], waiting := [], compaction := .idle, port := .reset }).postHeader)
  have he := Part.raise_eq .engine (((p.setInHand f).onJnc fun j => { j with
    journal := .failed, queue := [], waiting := [], compaction := .idle, port := .reset }).postHeader)
  refine ⟨?_, hs, ?_⟩
  · rw [he]; exact hh hf
  · rw [he]; rfl

theorem Part.handedRequest_of_hands {p : Part} {d : InHand} {q : Request} (h : p.hands d q) :
    p.handedRequest = some q := by
  obtain ⟨h1, h2, h3⟩ := h
  simp [Part.handedRequest, h1, h2, h3]

/-- The ID index: what a search finds, and what it means to find nothing (R24). -/
theorem Part.findId_some {p : Part} {id : ContainerId} {i : Fin 2048} (h : p.findId id = some i) :
    id ≠ 0 ∧ p.holdsId i id := by
  unfold Part.findId at h
  split at h
  · cases h
  · rename_i hid
    refine ⟨hid, ?_⟩
    have := List.find?_some h
    revert this
    cases hs : p.slot i with
    | none => simp
    | some c => simp only [beq_iff_eq]; exact fun hc => ⟨c, hs, hc⟩

theorem Part.findId_none {p : Part} {id : ContainerId} (hid : id ≠ 0) (h : ∀ j, ¬p.holdsId j id) :
    p.findId id = none := by
  unfold Part.findId
  rw [if_neg hid]
  simp only [firstFin, List.find?_eq_none]
  intro j _
  cases hs : p.slot j with
  | none => simp
  | some c => simp only [beq_iff_eq]; exact fun hc => h j ⟨c, hs, hc⟩

/-- With IDs unique, the search finds the slot that holds the ID. -/
theorem Part.findId_of_holds {p : Part} (hu : p.idsUnique) {id : ContainerId} (hid : id ≠ 0) {i : Fin 2048}
    {c : Container} (hs : p.slot i = some c) (hc : c.id = id) : p.findId id = some i := by
  cases hf : p.findId id with
  | none =>
    unfold Part.findId at hf
    rw [if_neg hid] at hf
    simp only [firstFin, List.find?_eq_none] at hf
    have := hf i (List.mem_finRange i)
    simp [hs, hc] at this
  | some j =>
    obtain ⟨-, d, hd, hdid⟩ := Part.findId_some hf
    rw [hu j i d c hd hs (hdid.trans hc.symm) (hdid ▸ hid)]

end Sys2Proof.Machine
end

