-- ==== Sys2Proof/Tests/Slice0.lean ====
section
/-! SUPPORT. The smoke test of the operand checks, a few steps and figures checked against the spec's own worked values,
and for each statement with hypotheses a concrete state that meets them. -/

namespace Sys2Proof.Tests

open Sys2Proof.Machine

/-! ## Operand checks and decoding -/

theorem test_busReset_cut_too_long_refused : (Instr.busReset (some ⟨false, 2116⟩)).wellFormed = false := by decide

theorem test_busReset_cut_accepted : (Instr.busReset (some ⟨true, 2115⟩)).wellFormed = true := by decide

theorem test_groupWrite_too_long_refused :
    (Instr.hostAccessFailure ⟨.groupWrite ⟨true, 2116⟩, []⟩).wellFormed = false := by decide

theorem test_docketRead_too_long_refused : (Instr.hostAccessFailure ⟨.docketRead 257, []⟩).wellFormed = false := by decide

theorem test_readback_too_long_refused :
    (Instr.programComplete (.altered (List.replicate 64 0))).wellFormed = false := by decide

theorem test_powerLoss_left_too_long_refused :
    (Instr.mainPowerLoss (List.replicate 4160 0)).wellFormed = false := by
  simp only [Instr.wellFormed, List.length_replicate]; decide

/-- No row of the table has bits. -/
theorem test_no_word_spells_a_command (nbits w : Nat) : decodeTableWord nbits w = none := rfl

theorem test_withFetchWord_changes_nothing (s : State) (nbits w : Nat) : s.withFetchWord nbits w = s := rfl

/-! ## States -/

/-- A part with no command waiting. -/
def at_ (p : Part) : State := { part := p, pending := [] }

/-- The part right after reset, in RUNNING. -/
def running : Part := { Part.reset with jnc := { Jnc.reset with engine := .running } }

def withIntake (p : Part) : Part := { p with exi := { p.exi with intake := .on } }

/-- A docket handed to its owner. -/
def docket (q : Request) : InHand :=
  { slot := 0, notify := true, request := q, stage := .handed, givenUp := false, triggers := [], awaitRunning := false
    durable := false }

def handing (q : Request) (p : Part) : Part := p.setInHand (some (docket q))

/-- Class 3: 100 minutes, warn margin 10, ceiling 50 %, bake at 125.0 to 130.0 °C for 1 minute. -/
def someClass : ClassDef :=
  { allowance := 100, warnMargin := 10, ceiling := 50, bakeTemp := 1250, bakeMax := 1300, bakeDuration := 1
    maxBakes := 2, warnTicks := 153600, creditLimit := 768000 }

/-- An OPEN container of class 3 in zone 5, settled to 100. -/
def someContainer : Container :=
  { id := 0xA1, cls := 3, custody := .opened, zone := 5, mode := .accrue 256, exposure := 0, settled := 100
    zoneEntry := 100, lastMove := none, warned := false, bakeCount := 0, bakedThisStay := false, bakeProgress := none
    bakeRunStart := none, quarantineCause := none, parent := none, enrolled := 100, warnDue := none
    expireDue := none, dirty := false }

/-- The container of `someContainer`, quarantined. -/
def quarantined : Container := { someContainer with custody := .quarantined, quarantineCause := some .host }

/-- Zone 5 is a FLOOR zone at 23.0 °C and 35.0 %, EXPOSING at 256. -/
def someZone : Zone :=
  { Zone.unused with
    config := { ZoneConfig.unused with kind := .floor, fixed := some { temp := 230, rh := 350 } }
    held := some { temp := 230, rh := 350 }, condition := some (.exposing 256), members := [7] }

/-- RUNNING at second 200, with class 3, zone 5 and a container in slot 7. -/
def stocked (c : Container) : Part :=
  (((({ running with tbu := { Tbu.reset with counter := 200, timeValid := true } } : Part).setCls 3
    { defn := some someClass, useCount := 1 }).putZone 5 someZone).setSlot 7 (some c))

theorem stocked_slot (c : Container) (j : Fin 2048) : (stocked c).slot j = if 7 = j then some c else none := by
  rw [stocked, Part.slot_setSlot]
  split
  · rfl
  · simp [running, Part.slot, Part.setCls, Part.putZone, Part.reset, Ctu.reset]

theorem stocked_idsUnique (c : Container) : (stocked c).idsUnique := by
  intro i j a b ha hb _ _
  rw [stocked_slot] at ha hb
  split at ha
  · split at hb
    · rename_i h1 h2; exact h1.symm.trans h2
    · cases hb
  · cases ha

theorem stocked_no_other (c : Container) (id : ContainerId) (h : c.id ≠ id) (j : Fin 2048) :
    ¬(stocked c).holdsId j id := by
  rintro ⟨d, hd, hid⟩
  rw [stocked_slot] at hd
  split at hd
  · obtain rfl := Option.some.inj hd; exact h hid
  · cases hd

theorem reset_slot (j : Fin 2048) : Part.reset.slot j = none := by
  simp [Part.slot, Part.reset, Ctu.reset]

/-! ## Small steps -/

/-- 00_scope.md 1.5.2, R10: 100 s at 256 charge 25,600 ticks. -/
theorem test_settle_accrues : (settleRecord someClass 200 someContainer).1.exposure = 25600 := by decide

/-- R12: at the limit of 100 minutes the container is EXPIRED and its exposure clamped. -/
theorem test_settle_expires :
    (settleRecord someClass 10000 someContainer).1.custody = .expired ∧
      (settleRecord someClass 10000 someContainer).1.exposure = 1536000 := by decide

/-- R13: 6,000 s at 256 reach 100 minutes; the warn margin of 10 minutes is reached 600 s before. -/
theorem test_dues : (withDues someClass someContainer).expireDue = some 6100 ∧
    (withDues someClass someContainer).warnDue = some 5500 := by decide

/-- R105: a time before the backdate limit is clamped to it. -/
theorem test_backdate_clamps : appliedTime 100 10000 900 50 60 70 = 9100 := by decide

/-- R150, 11.4: NOT_DURABLE is bit 0 of the second answer byte. -/
theorem test_answer_bytes : ((plainAnswer .partialDone).bytes true).take 2 = [14, 1] := by decide

/-- R176: −10.0 °C is 0xFF9C, least significant byte first. -/
theorem test_negative_temperature : leBytes 2 (signed16 (-100)) = [0x9C, 0xFF] := by decide

/-- R176, 11.9: an UNUSED zone's condition time and a probe's last count are absent, written 4,294,967,295 and 0xFF. -/
theorem test_absent_fields : (Zone.unused.image.conditionTime = none ∧ timeCode none = 4294967295) ∧
    ((Part.reset.setProbe 4 { Probe.off with config := some ⟨.busA, 0x44, none, 60, 500⟩ }).probeReport 4).getD 14 0 =
      0xFF := by decide

/-- R142: INTAKE set with the base at 0 is a configuration error, bit 7 of ENGSTAT. -/
theorem test_intake_without_base :
    Part.engstat (Part.intakeSet Part.reset) = 0x80#32 := by decide

/-- R168: the counter rises by one at a second. -/
theorem test_second_tick : (Part.secondTick Part.reset).tbu.counter = 1 := by decide

/-! ## Witnesses: states that meet the hypotheses of each statement -/

theorem witness_EmptyQueueStepRunsTimersOnly : State.reset.pending = [] ∧ State.reset.part.tbu.mainPower = true := by
  decide

/-- A part without main power. -/
def dark : Part := { running with tbu := { Tbu.reset with mainPower := false } }

theorem witness_UnpoweredPartStandsStill : (at_ dark).part.tbu.mainPower = false ∧
    (∀ id b, Instr.nudge 0 [] ≠ .mainPowerOn id b) ∧ (∀ n h, Instr.nudge 0 [] ≠ .doorInputChange n h) ∧
    Instr.nudge 0 [] ≠ .secondTick ∧ Instr.nudge 0 [] ≠ .backupSupplyFail := by
  refine ⟨rfl, ?_, ?_, ?_, ?_⟩ <;> intros <;> exact Instr.noConfusion

/-- One second passes in a part that runs. -/
def second : State := { part := running, pending := [.secondTick] }

theorem second_steps : ∃ t, step second = .next t := ⟨_, rfl⟩

theorem witness_StepKeepsMemoriesCanonical :
    second.part.memoriesCanonical ∧ ∃ t, step second = .next t := ⟨⟨rfl, rfl⟩, second_steps⟩

theorem witness_StepKeepsIdsUnique : (at_ (stocked someContainer)).part.idsUnique ∧
    ∃ t, step { part := stocked someContainer, pending := [.secondTick] } = .next t :=
  ⟨stocked_idsUnique _, _, rfl⟩

theorem witness_StepKeepsHoldsDriven : second.part.holdsDriven ∧ (∃ t, step second = .next t) ∧
    (∀ n, (second.part.lineHold n).override = .auto ∧ (second.part.lineHold n).zone = none) ∧
    (running.setLineHold 2 { override := .forceOn, zone := some 5, asserted := true }).holdsDriven := by
  refine ⟨?_, second_steps, by decide, ?_⟩ <;> (unfold Part.holdsDriven; decide)

theorem witness_StepKeepsGenerationEven : second.part.generationEven ∧ ∃ t, step second = .next t :=
  ⟨by unfold Part.generationEven; decide, second_steps⟩

theorem witness_StepKeepsDeadlinesOrdered :
    ({ running with dlu := { Dlu.reset with
        entries := [⟨5, 9, .warnDue⟩, ⟨5, 11, .bakeDue⟩] } } : Part).deadlinesOrdered ∧ ∃ t, step second = .next t := by
  refine ⟨?_, second_steps⟩
  unfold Part.deadlinesOrdered
  decide

theorem witness_StepKeepsTimeCounted : second.part.timeCounted ∧ ∃ t, step second = .next t :=
  ⟨by unfold Part.timeCounted; decide, second_steps⟩

theorem witness_JournalEntryReadsBack :
    (Payload.timeMark (some 1023)).fits ∧ (Payload.dropMark 4294967295).fits ∧ fits32 4294967295 := by
  refine ⟨?_, ?_, ?_⟩
  · intro n h; obtain rfl := Option.some.inj h; decide
  · show (4294967295 : Nat) < 4294967296; decide
  · show (4294967295 : Nat) < 4294967296; decide

/-- A part whose port programs the entry at the head of its queue. -/
def programming : Part :=
  { running with jnc := { running.jnc with
      queue := [{ payload := .timeMark none, time := 3, owner := .internal }], sectorOpen := true, headPos := 1
      port := { FlashPort.reset with job := some (.program .entryBody) } } }

theorem witness_MainPowerOnAndLoss : (at_ dark).part.tbu.mainPower = false ∧
    (at_ programming).part.tbu.mainPower = true ∧ programming.jnc.port.job = some (.program .entryBody) ∧
    outsideRun (programming.programTarget .entryBody).1 (programming.programTarget .entryBody).2.length 0 ∧
    programming.jnc.port.suspended = none := by
  refine ⟨rfl, rfl, rfl, ?_, rfl⟩
  unfold outsideRun
  decide

theorem witness_SecondTickAndBackupSupply :
    (second.part.tbu.mainPower = true ∧ second.part.tbu.counter < Config.lastSecond) ∧
    (dark.tbu.mainPower = false ∧ dark.tbu.backupSupply = true ∧ dark.tbu.counter < Config.lastSecond) ∧
    Config.lastSecond ≤ ({ running with tbu := { Tbu.reset with counter := 4294967294 } } : Part).tbu.counter := by
  decide

/-- An idle journal with its sector open. -/
def journaling : Part := { running with jnc := { running.jnc with sectorOpen := true, headPos := 1 } }

/-- A part that has closed staging at a warning and committed everything. -/
def closed : Part :=
  { running with
    tbu := { Tbu.reset with powerFail := true }
    jnc := { running.jnc with closing := some { recover := false, marked := true } } }

/-- A soft reset whose last TIME_MARK is about to commit. -/
def recovering : Part :=
  { programming with jnc := { programming.jnc with
      closing := some { recover := true, marked := true }
      port := { FlashPort.reset with job := some (.program .entryMark) } } }

theorem witness_WarningAndSoftResetCloseStaging :
    (journaling.journalIdle ∧ journaling.jnc.engine = .running ∧ journaling.jnc.sectorOpen = true ∧
      journaling.jnc.headPos < 64 ∧ journaling.ctu.list = none ∧ journaling.tbu.powerFail = false) ∧
    (closed.tbu.mainPower = true ∧ closed.tbu.powerFail = true ∧ closed.jnc.queue = [] ∧ closed.jnc.port.job = none ∧
      closed.jnc.port.suspended = none ∧ closed.jnc.format = none ∧
      closed.jnc.closing = some { recover := false, marked := true }) ∧
    (∃ t, recovering.tbu.mainPower = true ∧ recovering.jnc.closing = some { recover := true, marked := true } ∧
      recovering.jnc.format = none ∧ recovering.jnc.journal ≠ .failed ∧
      recovering.jnc.queue = [{ payload := .timeMark none, time := t, owner := .internal }] ∧
      recovering.jnc.port.job = some (.program .entryMark) ∧ recovering.jnc.port.timedOut = false ∧
      recovering.jnc.port.suspended = none) ∧
    (let p : Part := { running with jnc := { running.jnc with journal := .failed } }
     p.tbu.mainPower = true ∧ p.jnc.journal = .failed ∧ p.jnc.format = none ∧ p.jnc.closing = none ∧
      p.jnc.waiting = [] ∧ p.jnc.resetWaits = false ∧ p.ctu.list = none) := by
  refine ⟨⟨?_, rfl, rfl, by decide, rfl, rfl⟩, ⟨rfl, rfl, rfl, rfl, rfl, rfl, rfl⟩, ⟨3, by decide⟩, by decide⟩
  exact ⟨rfl, rfl, rfl, rfl, rfl, rfl, rfl, rfl⟩

theorem witness_RegisterWritesStoreOrAreIgnored :
    (running.tbu.mainPower = true ∧ running.exi.intake ≠ .on) ∧ (withIntake running).exi.intake = .on := by decide

/-- Interrupt causes set, one of them enabled. -/
def caused : Part := { running with exi := { Exi.reset with cause := 0b1001, mask := 0b0001 } }

theorem witness_InterruptCausesAndMessages : caused.tbu.mainPower = true ∧
    caused.exi.cause.getLsbD IrqCause.access.bit = true ∧ caused.exi.cause.getLsbD IrqCause.alert.bit = false := by
  decide

/-- The exchange area at 0x10000. -/
def based (p : Part) : Part := { p with exi := { p.exi with exbaseL := 0x10000 } }

theorem witness_IntakeTurnsOnAndOff :
    (running.exi.intake ≠ .on ∧ ((based running).exi.exbaseH ++ (based running).exi.exbaseL).toNat % 4096 = 0 ∧
      ((based running).exi.exbaseH ++ (based running).exi.exbaseL).toNat ≠ 0 ∧
      (based running).exi.docketCode.toNat ≤ 5 ∧ 1 ≤ (based running).exi.periodCode.toNat) ∧
    (running.exi.exbaseH ++ running.exi.exbaseL).toNat = 0 ∧
    ((withIntake running).exi.intake = .on ∧ (withIntake running).exi.turnOff = false) ∧
    ({ running with exi := { Exi.reset with intake := .accessFault } } : Part).exi.intake = .accessFault := by
  decide

/-- Intake ON over an area whose first slot the host has just posted a QUERY_PROBE into. -/
def posted : Stores := [(0x19000, 1), (0x19001, 14)]

theorem witness_SweepTakesPostedDocket :
    let q := (withIntake (based running)).hostStores posted
    let idle := (withIntake (based running)).hostStores []
    (q.tbu.mainPower = true ∧ q.exi.intake = .on ∧ q.exi.sweeping = false ∧ q.jnc.engine ≠ .restoring ∧
      q.exi.inHand = none ∧ q.exi.turnOff = false ∧ q.tbu.powerFail = false ∧ q.jnc.closing = none ∧
      fieldAt (q.hostRead (q.slotAddr q.exi.cursor) 64) 0 1 = 1) ∧
    fieldAt (q.hostRead (q.slotAddr q.exi.cursor) 64) 1 1 = 14 ∧
    fieldAt (idle.hostRead (idle.slotAddr idle.exi.cursor) 64) 0 1 ≠ 1 ∧
    ({ q with exi := { q.exi with sweepTimer := some 1 } } : Part).exi.sweepTimer ≠ none ∧
    running.exi.intake ≠ .on ∧ ({ q with exi := { q.exi with sweeping := true } } : Part).exi.sweeping = true := by
  decide

/-- A docket performed, with nothing to commit. -/
def answered : Part :=
  (withIntake (based running)).setInHand (some { docket .format with stage := .finished (plainAnswer .ok) })

/-- A FORMAT has ended, its docket is to be answered, and a soft reset waits. -/
def resetWaiting : Part := answered.onJnc fun j => { j with engine := .running, resetWaits := true }

theorem witness_WarningAndSoftResetCloseStaging_format :
    (let p : Part := { running with jnc := { running.jnc with format := some { stage := .erasing, serial := 1, time := 5 } } }
     p.jnc.format ≠ none ∧ p.jnc.closing = none) ∧
    (let p := resetWaiting.hostStores []
     p.jnc.resetWaits = true ∧ p.exi.inHand = some { docket .format with stage := .finished (plainAnswer .ok) } ∧
      p.tbu.powerFail = false ∧ p.jnc.engine = .running ∧ p.jnc.port.job = none ∧ p.jnc.port.suspended = none ∧
      p.jnc.queue = [] ∧ p.jnc.waiting = [] ∧ p.jnc.closing = none ∧ p.jnc.format = none ∧ p.jnc.journal = .ok) := by
  decide

/-- R175: the soft reset that waited for the FORMAT begins with the answer of its docket. -/
theorem test_soft_reset_after_format : (resetWaiting.answerDocket.jnc.closing.map (·.recover)) = some true := by decide

theorem witness_AnswerWaitsThenWrites :
    let p := answered.hostStores []
    (p.tbu.mainPower = true ∧ p.exi.inHand = some { docket .format with stage := .finished (plainAnswer .ok) } ∧
      (p.jnc.waiting = [] ∧ ∀ e ∈ p.jnc.queue, e.owner ≠ .docket) ∧ p.tbu.powerFail = false ∧
      p.jnc.closing = none ∧ p.exi.turnOff = false ∧ p.exi.sweeping = false ∧ p.exi.faultAfter = false ∧
      p.jnc.resetWaits = false) ∧
    (let p : Part := { answered.hostStores [(0x19040, 1), (0x19041, 14)] with exi := { answered.exi with sweeping := true } }
     p.exi.sweeping = true ∧ p.exi.extraPass = false ∧
      fieldAt (p.hostRead (p.slotAddr ((p.exi.cursor + 1) % p.docketCount)) 64) 0 1 = 1 ∧
      fieldAt ((answered.hostStores []).hostRead (p.slotAddr ((p.exi.cursor + 1) % p.docketCount)) 64) 0 1 ≠ 1) ∧
    (let d : InHand := { docket .format with stage := .finished (plainAnswer .ok), givenUp := true }
     let p := answered.setInHand (some d)
     p.exi.inHand = some d ∧ d.stage = .finished (plainAnswer .ok) ∧ d.givenUp = true ∧ d.triggers = [] ∧
      d.awaitRunning = false ∧ p.exi.sweeping = false ∧ p.exi.faultAfter = false) ∧
    (running.jnc.journal ≠ .failed ∧ ({ running with jnc := { running.jnc with waiting := [.timeMark] } } : Part).jnc.waiting
      ≠ []) := by
  decide

/-- A finished docket is in hand, and the program of the entry at the head of the queue is about to fail for the second
time. -/
def failing (owner : StagedBy) : Part :=
  { programming with
    exi := { programming.exi with inHand := some { docket .format with stage := .finished (plainAnswer .ok) } }
    jnc := { programming.jnc with
      failures := 1, queue := [{ payload := .timeMark none, time := 3, owner := owner }] } }

/-- R149 step 2: a journal that fails while a docket waits for its entry gives NOT_DURABLE; one that fails once the docket has
nothing left to commit does not. -/
theorem test_not_durable_only_while_waiting :
    (let fails (owner : StagedBy) : Part := (failing owner).programComplete .latchClear
     (fails .docket).jnc.journal = .failed ∧ (fails .docket).exi.inHand.map (fails .docket).notDurable = some true ∧
       (fails .internal).jnc.journal = .failed ∧
       (fails .internal).exi.inHand.map (fails .internal).notDurable = some false) := by
  decide

theorem witness_AnswerWaitsThenWrites_failed :
    (let d : InHand := { docket .format with stage := .finished (plainAnswer .ok), durable := true }
     let p : Part := { answered.setInHand (some d) with jnc := { answered.jnc with journal := .failed } }
     p.tbu.mainPower = true ∧ p.exi.inHand = some d ∧ d.stage = .finished (plainAnswer .ok) ∧ d.givenUp = false ∧
      d.triggers = [] ∧ d.awaitRunning = false ∧ p.jnc.journal = .failed ∧ p.tbu.powerFail = false ∧
      p.jnc.closing = none ∧ p.jnc.resetWaits = false ∧ p.exi.turnOff = false ∧ p.exi.faultAfter = false) ∧
    (let p := failing .internal
     let d : InHand := { docket .format with stage := .finished (plainAnswer .ok) }
     1 ≤ p.jnc.failures ∧ p.exi.inHand = some d ∧ d.stage = .finished (plainAnswer .ok) ∧ d.triggers = [] ∧
      d.awaitRunning = false ∧ p.jnc.waiting = [] ∧ ∀ e ∈ p.jnc.queue, e.owner ≠ .docket) ∧
    ¬∀ e ∈ (failing .docket).jnc.queue, e.owner ≠ .docket := by
  decide

theorem witness_FailedAccessAndBusReset :
    ((withIntake running).tbu.mainPower = true ∧ (withIntake running).exi.intake = .on ∧
      (withIntake running).exi.inHand = none ∧ (withIntake running).exi.turnOff = false ∧
      (withIntake running).tbu.powerFail = false ∧ (withIntake running).jnc.closing = none ∧
      (withIntake running).jnc.engine ≠ .restoring) ∧
    (let p := (withIntake (based running)).hostStores posted
     fieldAt (p.hostRead (p.slotAddr p.exi.cursor) 64) 0 1 = 1) ∧
    ((0x5000 : HostAddr) ≠ 0 ∧ (0x5000 : HostAddr).toNat % 64 = 0) ∧
    (let p := withIntake (based (Part.postSlot 2047 running))
     p.exi.intake = .on ∧ p.exi.marked = true ∧ p.exi.inHand = none ∧
      ({ p with exi := { p.exi with turnOff := true } } : Part).exi.turnOff = true) ∧
    (let d : InHand := { docket .format with stage := .finished (plainAnswer .ok) }
     d.stage = .finished (plainAnswer .ok) ∧ d.givenUp = false ∧ d.triggers = [] ∧ d.awaitRunning = false ∧
      answered.jnc.waiting = [] ∧ (∀ e ∈ answered.jnc.queue, e.owner ≠ .docket) ∧ answered.tbu.powerFail = false ∧
      answered.jnc.closing = none ∧ answered.jnc.resetWaits = false) ∧
    ({ answered with exi := { answered.exi with timeWrite := some 9 } } : Part).exi.timeWrite = some 9 ∧
    answered.exi.inHand = some { docket .format with stage := .finished (plainAnswer .ok) } ∧
    answered.exi.intake = .on := by
  decide

theorem witness_FailedAccessAndBusReset_dockets :
    (handing (.setConditions 0x5000) (withIntake running)).hands (docket (.setConditions 0x5000)) (.setConditions 0x5000) ∧
    (handing (.queryProbe { probe := 31, clearLate := true, reply := 0x20 }) (withIntake running)).hands
      (docket (.queryProbe { probe := 31, clearLate := true, reply := 0x20 }))
      (.queryProbe { probe := 31, clearLate := true, reply := 0x20 }) ∧ 31 < 32 ∧ (0x20 : HostAddr).toNat % 32 = 0 :=
  ⟨⟨rfl, rfl, rfl⟩, ⟨rfl, rfl, rfl⟩, by decide, by decide⟩

/-! ### Doors, lamps, the board -/

/-- Zone 5 a DRY zone with lines 0 and 1, line 0's edge about to be confirmed. -/
def doored (high openNow : Bool) : Part :=
  (({ running with znu := { Znu.reset with zones := Znu.reset.zones.set 5 { someZone with
      config := { someZone.config with kind := .dry } } } } : Part).setLine 0
    { DoorLine.reset with zone := some 5, high := high, timer := some 0, openLimit := 30
                          filteredOpen := openNow }).setDoor 5
    { isOpen := openNow, since := if openNow then some 0 else none, ajar := false }

theorem witness_DoorLineEventsReachTheLine :
    (running.tbu.mainPower = true ∧ dark.tbu.mainPower = false) ∧ ((doored true false).line 0).timer ≠ none ∧
    ((doored true false).line 1).zone = none ∧ ((doored true false).line 1).timer = none ∧
    ((running.setLine 0 { DoorLine.reset with sample := some 50 }).line 0).sample ≠ none := by
  decide

theorem witness_ZoneDoorFollowsLineEdges :
    (let p := doored true false
     p.tbu.mainPower = true ∧ p.jnc.engine = .running ∧ p.jnc.closing = none ∧ (p.line 0).timer ≠ none ∧
      (p.line 0).zone = some 5 ∧ ((p.line 0).high != (p.line 0).openLow) = true ∧ (p.door 5).isOpen = false) ∧
    (let p := doored false true
     p.jnc.engine = .running ∧ p.jnc.closing = none ∧ (p.line 0).timer ≠ none ∧ (p.line 0).zone = some 5 ∧
      ((p.line 0).high != (p.line 0).openLow) = false ∧ (p.door 5).isOpen = true ∧
      ∀ m, m ≠ 0 → (p.line m).zone = some 5 → (p.line m).filteredOpen = false) := by
  decide

theorem witness_OpenLimitAndLampSteps :
    (let p := withIntake { doored true true with tbu := { Tbu.reset with counter := 30 } }
     p.tbu.mainPower = true ∧ p.jnc.engine = .running ∧ (p.door 5).isOpen = true ∧ (p.door 5).ajar = false ∧
      (p.door 5).since = some 0 ∧ (p.line 0).zone = some 5 ∧ (p.line 0).filteredOpen = true ∧
      0 < (p.line 0).openLimit ∧ (p.line 0).openLimit ≤ p.now - 0 ∧ (p.zone 5).config.kind ≠ .unused ∧
      (p.zone 5).ajar = false ∧ p.exi.intake = .on) ∧
    (running.door 5).isOpen = false ∧
    ((running.setLamp 1 { Lamp.reset with shown := some .warn, timer := some 1, position := 3 }).lamp 1).shown =
      some .warn ∧
    (running.lamp 1).shown = none := by
  decide

theorem witness_BoardGroupWritesEveryMark :
    let p := withIntake (based (Part.postZone 5 (Part.postSlot 2047 running)))
    p.tbu.mainPower = true ∧ p.exi.intake = .on ∧ p.exi.marked = true ∧ 5 ∈ p.exi.zoneMarks ∧
      2047 ∈ p.exi.slotMarks ∧ p.exbase.toNat + 65536 ≤ 2 ^ 64 ∧ p.exi.rise = false ∧
      ({ p with exi := { p.exi with rise := true, headerMark := true } } : Part).exi.rise = true := by
  decide

theorem witness_TurnOffAndEngineTimeWrites :
    let p : Part := { running with exi := { Exi.reset with intake := .on, turnOff := true, timeWrite := some 77 } }
    p.tbu.mainPower = true ∧ p.exi.intake = .on ∧ p.exi.turnOff = true ∧ p.exi.inHand = none ∧
      p.exi.timeWrite = some 77 ∧ p.exbase.toNat + 65536 ≤ 2 ^ 64 ∧
      (withIntake running).exi.turnOff = false ∧ (withIntake running).exi.timeWrite = none := by
  decide

/-! ### Restore -/

/-- A flash with a committed FORMAT entry of serial 1, and no headed sector. -/
def formatted : Flash :=
  { cells := Memory.write flashBlank [] 0 (entryBody (.formatEntry 1) false 0 10 ++ [0]), idByte := 0x20 }

theorem witness_RestoreReplaysOrIsBlank :
    let p := Part.reset.hostStores []
    (p.tbu.mainPower = true ∧ p.jnc.engine = .restoring ∧ p.jnc.restore = none ∧ p.jnc.closing = none ∧
      p.jnc.format = none ∧ p.exi.extraPass = false) ∧
    ((0x20 : Byte) ≠ 0x00#8 ∧ (0x20 : Byte) ≠ 0xFF#8 ∧ p.flash.formatEntry = none) ∧
    (formatted.identified = true ∧ formatted.formatEntry = some (1, 10)) ∧ p.tbu.timeValid = false ∧
    ({ p with tbu := { p.tbu with timeValid := true } } : Part).tbu.timeValid = true := by
  decide

theorem witness_RestoreReplaysOrIsBlank_empty (i : Fin 2048) : (Part.reset.hostStores []).slot i = none := reset_slot i

/-- Probe 4 on bus A at 0x44. -/
def probe4 : ProbeConfig := { bus := .busA, address := 0x44, group := none, interval := 60, conversion := 500 }

/-- A reconciled part whose samples are taken, with one configured probe. -/
def restored : Part :=
  ({ Part.reset with jnc := { Jnc.reset with restore := some { tLast := 5, openDrop := none, imagedAfter := []
                                                               reconciled := true } } } : Part).setProbe 4
    { Probe.off with config := some probe4, state := .doubtful }

theorem witness_EnterRunningStartsProbesAndDoors :
    let p := restored.hostStores []
    p.tbu.mainPower = true ∧ p.jnc.engine = .restoring ∧ (∀ n, (p.line n).sample = none) ∧
      p.jnc.restore = some { tLast := 5, openDrop := none, imagedAfter := [], reconciled := true } ∧
      (∀ e ∈ p.jnc.queue, ∀ t, e.payload ≠ .dropMark t) ∧ p.jnc.closing = none ∧ p.exi.extraPass = false ∧
      (p.probe 4).config = some probe4 ∧ (p.group 3).cycled = false := by
  refine ⟨by decide, by decide, by decide, by decide, ?_, by decide, by decide, by decide, by decide⟩
  intro e he
  exact absurd (show e ∈ ([] : List Staged) from he) List.not_mem_nil

/-- A sweep asked for in RESTORING, over a POSTED slot. -/
def sweepDue (p : Part) : Part :=
  let p := (withIntake (based p)).hostStores posted
  { p with exi := { p.exi with extraPass := true } }

theorem witness_EnterRunningStartsProbesAndDoors_sweep : ∀ p ∈ [sweepDue Part.reset, sweepDue restored],
    p.tbu.mainPower = true ∧ p.jnc.engine = .restoring ∧ p.jnc.closing = none ∧ p.tbu.powerFail = false ∧
      p.exi.intake = .on ∧ p.exi.turnOff = false ∧ p.exi.inHand = none ∧ p.exi.sweeping = false ∧
      p.exi.extraPass = true ∧ fieldAt (p.hostRead (p.slotAddr p.exi.cursor) 64) 0 1 = 1 := by
  decide

theorem witness_EnterRunningStartsProbesAndDoors_mayRun : (sweepDue restored).mayRun = true ∧
    (sweepDue Part.reset).jnc.restore = none ∧ (sweepDue Part.reset).jnc.format = none ∧
    (sweepDue Part.reset).flash.formatEntry = none := by
  decide

/-- R156, R146: the slot read of a sweep that begins as RESTORE ends in BLANK fails: BLANK, and ACCESS_FAULT. -/
theorem test_deferred_slot_read_fails :
    (let q := (sweepDue Part.reset).hostAccessFails (.slotRead (.restored 0x20))
     q.jnc.engine = .blank ∧ q.exi.intake = .accessFault) := by
  decide

theorem witness_EnterRunningStartsProbesAndDoors_gates :
    (restored.jnc.journal = .ok ∧ restored.exi.intake ≠ .on) ∧
    (let p := withIntake (Part.postSlot 0 restored)
     p.exi.intake = .on ∧ p.exi.marked = true ∧ (withIntake restored).exi.marked = false) ∧
    (let j : Jnc := { restored.jnc with journal := .resync, dropTime := some 5 }
     j.journal = .resync ∧ j.dropTime ≠ none) := by
  decide

/-! ### The container table -/

def enrollArgs : EnrollArgs := { id := 0xB2, cls := 3, zone := 5, custody := 1, minutes := 5 }

/-- The journal of a stocked part takes a docket's entries at once. -/
theorem stocked_takes (c : Container) : (stocked c).journalTakes := by
  refine ⟨rfl, rfl, rfl, rfl, ?_, ?_⟩
  · show 4 < 1022; decide
  · show 0 + 5 ≤ 64; decide

theorem handing_hands (q : Request) (p : Part) : (handing q p).hands (docket q) q := ⟨rfl, rfl, rfl⟩

theorem witness_EnrollChecksThenMakesContainer :
    let p := handing (.enroll enrollArgs) (stocked someContainer)
    (p.tbu.mainPower = true ∧ p.hands (docket (.enroll enrollArgs)) (.enroll enrollArgs) ∧ enrollArgs.id ≠ 0 ∧
      enrollArgs.custody ≤ 1 ∧ (3 : Fin 16).val = enrollArgs.cls ∧ (p.cls 3).defn = some someClass ∧
      (5 : Fin 64).val = enrollArgs.zone ∧ (p.zone 5).config.kind ≠ .unused ∧ (∀ j, ¬p.holdsId j enrollArgs.id) ∧
      p.slot 0 = none ∧ (∀ j, j < 0 → p.slot j ≠ none) ∧ p.jnc.closing = none ∧ p.journalTakes) ∧
    (∃ i, p.holdsId i 0xA1) ∧ (p.zone 6).config.kind = .unused ∧ (p.cls 15).defn = none := by
  refine ⟨⟨rfl, handing_hands _ _, by decide, by decide, rfl, by decide, rfl, by decide,
    stocked_no_other someContainer _ (by decide), ?_, ?_, rfl, stocked_takes someContainer⟩, ?_, by decide, by decide⟩
  · exact (stocked_slot someContainer 0).trans (by decide)
  · intro j hj; exact absurd hj (by simp)
  · exact ⟨7, someContainer, (stocked_slot someContainer 7).trans (by decide), rfl⟩

theorem witness_EnrollChecksThenMakesContainer_full :
    let p : Part := { running with ctu := { Ctu.reset with slots := Vector.replicate 2048 (some someContainer) } }
    ∀ i, ∃ c, p.slot i = some c ∧ c.id ≠ 0xB2 := by
  intro p i
  exact ⟨someContainer, by simp [p, Part.slot], by decide⟩

def splitArgs : SplitArgs :=
  { parent := 0xA1, count := 4, retireParent := true, children := [0xB1, 0xB2, 0xB3, 0xB4] }

theorem stocked_freeSlots (c : Container) : 4 ≤ (stocked c).freeSlots.length := by
  have h : ∀ j : Fin 2048, j ∈ (stocked c).freeSlots ↔ j ≠ 7 := by
    intro j
    simp only [Part.freeSlots, allFin, List.mem_filter, List.mem_finRange, true_and, stocked_slot]
    by_cases hj : 7 = j
    · simp [hj]
    · simp [hj, Ne.symm hj]
  have hn : (stocked c).freeSlots.Nodup := (List.nodup_finRange _).filter _
  have hs : [(0 : Fin 2048), 1, 2, 3] ⊆ (stocked c).freeSlots := by
    intro j hj
    rw [h]
    simp only [List.mem_cons, List.not_mem_nil, or_false] at hj
    rcases hj with rfl | rfl | rfl | rfl <;> decide
  exact (List.subperm_of_subset (by decide) hs).length_le

theorem splitArgs_ids {id : ContainerId} (h : id ∈ splitArgs.children.take splitArgs.count) :
    id = 0xB1 ∨ id = 0xB2 ∨ id = 0xB3 ∨ id = 0xB4 := by
  simpa [splitArgs] using h

theorem witness_SplitMakesChildren :
    let p := handing (.split splitArgs) (stocked someContainer)
    p.tbu.mainPower = true ∧ p.hands (docket (.split splitArgs)) (.split splitArgs) ∧ 1 ≤ splitArgs.count ∧
      splitArgs.count ≤ 4 ∧ splitArgs.children.length = 4 ∧ 0 ∉ splitArgs.children.take splitArgs.count ∧
      (splitArgs.children.take splitArgs.count).Nodup ∧
      (∀ id ∈ splitArgs.children.take splitArgs.count, ∀ j, ¬p.holdsId j id) ∧ splitArgs.parent ≠ 0 ∧ p.idsUnique ∧
      p.slot 7 = some someContainer ∧ someContainer.id = splitArgs.parent ∧ someContainer.custody = .opened ∧
      (p.zone someContainer.zone).change = none ∧ splitArgs.count ≤ p.freeSlots.length ∧ p.jnc.closing = none := by
  refine ⟨rfl, handing_hands _ _, by decide, by decide, rfl, by decide, by decide, ?_, by decide,
    stocked_idsUnique someContainer, (stocked_slot someContainer 7).trans (by decide), rfl, rfl, by decide,
    stocked_freeSlots someContainer, rfl⟩
  · intro id hid
    refine stocked_no_other someContainer id ?_
    rcases splitArgs_ids hid with rfl | rfl | rfl | rfl <;> decide

/-- The same docket with other child IDs. -/
def splitInto (ids : List ContainerId) : SplitArgs := { splitArgs with children := ids }

/-- A full container table, each slot with an ID of its own. -/
def full : Part :=
  let p := stocked someContainer
  { p with ctu := { p.ctu with
    slots := Vector.ofFn fun i : Fin 2048 => some { someContainer with id := BitVec.ofNat 64 (i.val + 1) } } }

theorem full_slot (i : Fin 2048) : full.slot i = some { someContainer with id := BitVec.ofNat 64 (i.val + 1) } := by
  simp [full, Part.slot]

theorem full_idsUnique : full.idsUnique := by
  intro i j a b ha hb hab _
  rw [full_slot] at ha hb
  obtain rfl := Option.some.inj ha
  obtain rfl := Option.some.inj hb
  have h := congrArg BitVec.toNat hab
  simp only [BitVec.toNat_ofNat] at h
  apply Fin.ext
  omega

theorem full_holds (j : Fin 2048) (id : ContainerId) (h : 2048 < id.toNat) : ¬full.holdsId j id := by
  rintro ⟨d, hd, rfl⟩
  rw [full_slot] at hd
  obtain rfl := Option.some.inj hd
  simp only [BitVec.toNat_ofNat] at h
  omega

theorem full_freeSlots : full.freeSlots = [] := by
  simp [Part.freeSlots, allFin, full_slot]

theorem witness_SplitMakesChildren_refused :
    (0 ∈ (splitInto [0xB1, 0, 0xB3, 0xB4]).children.take 4 ∧
      ¬((splitInto [0xB1, 0xB2, 0xB1, 0xB4]).children.take 4).Nodup) ∧
    ((stocked quarantined).idsUnique ∧ (stocked quarantined).slot 7 = some quarantined ∧
      quarantined.id = splitArgs.parent ∧ quarantined.custody ≠ .opened ∧
      ((stocked quarantined).zone quarantined.zone).change = none) ∧
    (0xA1 ∈ (splitInto [0xB1, 0xA1, 0xB3, 0xB4]).children.take 4 ∧ (stocked someContainer).holdsId 7 0xA1) :=
  ⟨⟨by decide, by decide⟩, ⟨stocked_idsUnique quarantined, (stocked_slot quarantined 7).trans (by decide), rfl, by decide,
    by decide⟩, by decide, someContainer, (stocked_slot someContainer 7).trans (by decide), rfl⟩

theorem witness_SplitMakesChildren_full :
    let a := splitInto [0xF001, 0xF002, 0xF003, 0xF004]
    (0 ∉ a.children.take a.count ∧ (a.children.take a.count).Nodup ∧
      (∀ id ∈ a.children.take a.count, ∀ j, ¬full.holdsId j id)) ∧ full.idsUnique ∧
    (∃ c, full.slot 160 = some c ∧ c.id = a.parent ∧ c.custody = .opened ∧ (full.zone c.zone).change = none) ∧
    full.freeSlots.length < a.count := by
  refine ⟨⟨by decide, by decide, ?_⟩, full_idsUnique, ⟨_, full_slot 160, by decide, rfl, by decide⟩, ?_⟩
  · intro id hid j
    refine full_holds j id ?_
    rcases (show id = 0xF001 ∨ id = 0xF002 ∨ id = 0xF003 ∨ id = 0xF004 by simpa [splitInto, splitArgs] using hid) with
      rfl | rfl | rfl | rfl <;> decide
  · rw [full_freeSlots]; decide

theorem witness_RetireFreesSlot :
    let p := handing (.retire 0xA1) (stocked someContainer)
    (p.tbu.mainPower = true ∧ p.hands (docket (.retire 0xA1)) (.retire 0xA1) ∧ (0xA1 : ContainerId) ≠ 0 ∧
      p.idsUnique ∧ p.slot 7 = some someContainer ∧ someContainer.id = 0xA1 ∧
      (p.zone someContainer.zone).change = none ∧ p.jnc.closing = none ∧ p.journalTakes) ∧
    ∀ j, ¬(handing (.retire 0xCC) (stocked someContainer)).holdsId j 0xCC :=
  ⟨⟨rfl, handing_hands _ _, by decide, stocked_idsUnique someContainer, (stocked_slot someContainer 7).trans (by decide), rfl,
    by decide, rfl, stocked_takes someContainer⟩, stocked_no_other someContainer _ (by decide)⟩

theorem witness_QuarantineAndRelease :
    (∀ c, c = someContainer ∨ c = quarantined →
      let p := stocked c
      p.tbu.mainPower = true ∧ p.idsUnique ∧ p.slot 7 = some c ∧ c.id = 0xA1 ∧ (p.zone c.zone).change = none ∧
        p.jnc.closing = none) ∧
    (handing (.quarantine 0xA1) (stocked someContainer)).hands (docket (.quarantine 0xA1)) (.quarantine 0xA1) ∧
    someContainer.custody ≠ .quarantined ∧ quarantined.custody = .quarantined ∧
    (handing (.release { id := 0xA1, resume := 1 }) (stocked quarantined)).hands
      (docket (.release { id := 0xA1, resume := 1 })) (.release { id := 0xA1, resume := 1 }) := by
  refine ⟨?_, handing_hands _ _, by decide, by decide, handing_hands _ _⟩
  rintro c (rfl | rfl)
  · exact ⟨rfl, stocked_idsUnique someContainer, (stocked_slot someContainer 7).trans (by decide), rfl, by decide, rfl⟩
  · exact ⟨rfl, stocked_idsUnique quarantined, (stocked_slot quarantined 7).trans (by decide), rfl, by decide, rfl⟩

def queryArgs : QueryArgs := { id := 0xA1, reply := 0x8000 }

theorem witness_QueryReportsSettledRecord :
    let p := handing (.query queryArgs) (stocked someContainer)
    (p.tbu.mainPower = true ∧ p.hands (docket (.query queryArgs)) (.query queryArgs) ∧ queryArgs.reply ≠ 0 ∧
      queryArgs.reply.toNat % 64 = 0 ∧ queryArgs.id ≠ 0 ∧ p.idsUnique ∧ p.slot 7 = some someContainer ∧
      someContainer.id = queryArgs.id ∧ p.jnc.engine = .running ∧ (p.zone someContainer.zone).change = none ∧
      p.jnc.closing = none) ∧
    (0x8020 : HostAddr).toNat % 64 ≠ 0 ∧
    ({ p with jnc := { p.jnc with engine := .awaitTime } } : Part).jnc.engine ≠ .running :=
  ⟨⟨rfl, handing_hands _ _, by decide, by decide, by decide, stocked_idsUnique someContainer,
    (stocked_slot someContainer 7).trans (by decide), rfl, rfl, by decide, rfl⟩, by decide, by decide⟩

/-! ### Movements -/

theorem witness_MoveListStartsAndFinishes_start :
    (handing (.moveList { addr := 0x4000, count := 256 }) running).hands
      (docket (.moveList { addr := 0x4000, count := 256 })) (.moveList { addr := 0x4000, count := 256 }) ∧
    ((0x4000 : HostAddr) ≠ 0 ∧ (0x4000 : HostAddr).toNat % 16 = 0 ∧ 1 ≤ 256 ∧ 256 ≤ 256) ∧
    ¬((0x4008 : HostAddr) ≠ 0 ∧ (0x4008 : HostAddr).toNat % 16 = 0 ∧ 1 ≤ 1 ∧ 1 ≤ 256) :=
  ⟨handing_hands _ _, by decide, by decide⟩

/-- A list at 0x4000 of `n` entries, none handled. -/
def listAt (n : Nat) : ListRecord :=
  { addr := 0x4000, count := n, next := 0, handled := 0, applied := 0, clamped := 0, touched := [] }

def listDocket (n : Nat) : InHand := { docket (.moveList { addr := 0x4000, count := n }) with stage := .working }

/-- A stocked part with a list under way. -/
def listing (n : Nat) (c : Container) : Part :=
  let p := stocked c
  { p with ctu := { p.ctu with list := some (listAt n) }, exi := { p.exi with inHand := some (listDocket n) } }

theorem listing_slot (n : Nat) (c : Container) (stores : Stores) (j : Fin 2048) :
    ((listing n c).hostStores stores).slot j = if 7 = j then some c else none := by
  rw [Part.hostStores_eq]
  exact stocked_slot c j

/-- Entry 0: the container 0xA1 into zone 5 at now, with the flag byte given. -/
def moveStores (id zone flags : Byte) : Stores := [(0x4000, id), (0x4008, zone), (0x4009, flags)]

theorem listing_holds (c : Container) (n : Nat) (stores : Stores) (id : ContainerId) (h : c.id ≠ id) (j : Fin 2048) :
    ¬((listing n c).hostStores stores).holdsId j id := by
  rintro ⟨d, hd, hid⟩
  rw [listing_slot] at hd
  split at hd
  · obtain rfl := Option.some.inj hd; exact h hid
  · cases hd

theorem listing_idsUnique (c : Container) (n : Nat) (stores : Stores) :
    ((listing n c).hostStores stores).idsUnique := by
  intro i j a b ha hb _ _
  rw [listing_slot] at ha hb
  split at ha
  · split at hb
    · rename_i h1 h2; exact h1.symm.trans h2
    · cases hb
  · cases ha

theorem witness_MoveListStartsAndFinishes_finish :
    let p := (listing 1 someContainer).hostStores (moveStores 0xCC 5 0)
    p.tbu.mainPower = true ∧ p.ctu.list = some (listAt 1) ∧ p.exi.inHand = some (listDocket 1) ∧
      (listDocket 1).stage = .working ∧ (listAt 1).next + 1 = (listAt 1).count ∧ p.tbu.powerFail = false ∧
      p.jnc.closing = none ∧ (decodeMoveEntry (p.hostRead ((listAt 1).entryAddr 0) 16)).id = 0xCC ∧
      ∀ j, ¬p.holdsId j 0xCC :=
  ⟨rfl, rfl, rfl, rfl, rfl, rfl, rfl, by decide, listing_holds _ _ _ _ (by decide)⟩

/-- The container of `someContainer`, moved into zone 5 at second 198. -/
def moved : Container := { someContainer with lastMove := some (5, 198), zoneEntry := 198, settled := 198 }

theorem witness_MoveEntryWithoutEffectWritesOutcome :
    (∀ c id zone flags, let p := (listing 2 c).hostStores (moveStores id zone flags)
      p.tbu.mainPower = true ∧ p.ctu.list = some (listAt 2) ∧ p.exi.inHand = some (listDocket 2) ∧
      (listDocket 2).stage = .working ∧ (listAt 2).next + 1 < (listAt 2).count ∧ p.tbu.powerFail = false ∧
      p.jnc.closing = none ∧ p.idsUnique ∧ p.slot 7 = some c) ∧
    (let p := (listing 2 someContainer).hostStores (moveStores 0xCC 5 0)
     (decodeMoveEntry (p.hostRead ((listAt 2).entryAddr 0) 16)).id = 0xCC ∧ ∀ j, ¬p.holdsId j 0xCC) ∧
    (let p := (listing 2 someContainer).hostStores (moveStores 0xA1 6 0)
     (decodeMoveEntry (p.hostRead ((listAt 2).entryAddr 0) 16)).id = someContainer.id ∧
      (decodeMoveEntry (p.hostRead ((listAt 2).entryAddr 0) 16)).zone = 6 ∧ (p.zone 6).config.kind = .unused) ∧
    (let p := (listing 2 someContainer).hostStores (moveStores 0xA1 5 3)
     (decodeMoveEntry (p.hostRead ((listAt 2).entryAddr 0) 16)).resealFlag = true ∧
      (decodeMoveEntry (p.hostRead ((listAt 2).entryAddr 0) 16)).unsealFlag = true ∧
      (decodeMoveEntry (p.hostRead ((listAt 2).entryAddr 0) 16)).zone = 5 ∧ (p.zone 5).config.kind ≠ .unused) ∧
    (let p := (listing 2 moved).hostStores (moveStores 0xA1 5 0)
     let e := decodeMoveEntry (p.hostRead ((listAt 2).entryAddr 0) 16)
     e.id = moved.id ∧ e.resealFlag = false ∧ moved.lastMove = some (5, 198) ∧ e.zone = 5 ∧
      appliedTime e.time p.now p.znu.settings.backdate moved.settled (p.zone moved.zone).conditionTime
        (p.zone 5).conditionTime < 198 + p.znu.settings.repeatWindow ∧ 0 < p.znu.settings.repeatWindow) := by
  refine ⟨?_, ⟨by decide, listing_holds _ _ _ _ (by decide)⟩, by decide, by decide, by decide⟩
  intro c id zone flags
  exact ⟨rfl, rfl, rfl, rfl, by decide, rfl, rfl, listing_idsUnique _ _ _, (listing_slot _ _ _ 7).trans (by simp)⟩

/-- A list whose first entry moves the container into zone 5, which has the kind given. -/
def movingTo (kind : ZoneKind) (flags : Byte) (c : Container) : Part :=
  ((listing 2 c).putZone 5 { someZone with config := { someZone.config with kind := kind } }).hostStores
    (moveStores 0xA1 5 flags)

theorem movingTo_slot (kind : ZoneKind) (flags : Byte) (c : Container) (j : Fin 2048) :
    (movingTo kind flags c).slot j = if 7 = j then some c else none := by
  rw [movingTo, Part.hostStores_eq]
  exact stocked_slot c j

theorem witness_MoveEntryMovesItsContainer (kind : ZoneKind) (flags : Byte) (c : Container) :
    let p := movingTo kind flags c
    p.tbu.mainPower = true ∧ p.ctu.list = some (listAt 2) ∧ p.exi.inHand = some (listDocket 2) ∧
      (listDocket 2).stage = .working ∧ (listAt 2).next + 1 < (listAt 2).count ∧ p.tbu.powerFail = false ∧
      p.jnc.closing = none ∧ p.idsUnique ∧ p.slot 7 = some c := by
  refine ⟨rfl, rfl, rfl, rfl, by decide, rfl, rfl, ?_, (movingTo_slot kind flags c 7).trans (by simp)⟩
  intro i j a b ha hb _ _
  rw [movingTo_slot] at ha hb
  split at ha
  · split at hb
    · rename_i h1 h2; exact h1.symm.trans h2
    · cases hb
  · cases ha

/-- A re-entry of a container last moved into zone 5 at second 190, a reseal, and an entry into an oven. -/
theorem witness_MoveEntryMovesItsContainer_entries :
    (∀ x ∈ ([(.floor, 0), (.floor, 2), (.oven, 0)] : List (ZoneKind × Byte)),
      let p := movingTo x.1 x.2 someContainer
      let e := decodeMoveEntry (p.hostRead ((listAt 2).entryAddr 0) 16)
      e.id = someContainer.id ∧ e.id ≠ 0 ∧ e.zone = 5 ∧ (p.zone 5).config.kind = x.1 ∧ x.1 ≠ .unused ∧ x.1 ≠ .line ∧
        (p.zone 5).change = none ∧ e.unsealFlag = false ∧
        (settleRecord (p.classDef 3) 200 someContainer).1.custody = .opened ∧
        (settleRecord (p.classDef 3) 200 quarantined).1.custody ≠ .opened ∧
        (settleRecord (p.classDef 3) 200 someContainer).1.bakeCount < (p.classDef 3).maxBakes ∧
        (p.classDef 3).maxBakes ≤ (settleRecord (p.classDef 3) 200 { someContainer with bakeCount := 2 }).1.bakeCount) ∧
    (let p := movingTo .floor 0 { someContainer with lastMove := some (5, 190) }
     p.znu.settings.repeatWindow ≤ appliedTime 0 p.now p.znu.settings.backdate someContainer.settled
       (p.zone 5).conditionTime (p.zone 5).conditionTime - 190) := by
  decide

/-! ### Configuration dockets -/

def classArgs (n : Nat) : ClassArgs :=
  { cls := n, defined := 1, allowance := 1048575, warnMargin := 0, ceiling := 100, maxBakes := 15, bakeTemp := 300
    bakeMax := 1500, bakeDuration := 65535 }

/-- SET_ENGINE naming the backdate limit, at the top of its range; then the ceiling. -/
def engineArgs (mask : BitVec 8) (ceiling : Nat) : EngineArgs :=
  { mask := mask, ceiling := ceiling, outage := 0, backdate := 3600, repeatWindow := 0, tempHyst := 0, rhHyst := 0 }

theorem witness_ClassAndEngineSettingsAreWritten :
    let p := stocked someContainer
    (p.tbu.mainPower = true ∧ p.jnc.closing = none ∧ (docket .format).triggers = [] ∧ p.journalTakes) ∧
    ((handing (.setClass (classArgs 15)) p).hands (docket (.setClass (classArgs 15))) (.setClass (classArgs 15)) ∧
      (15 : Fin 16).val = (classArgs 15).cls ∧ (p.cls 15).useCount = 0 ∧ (classArgs 15).valid = true ∧
      { classArgs 15 with defined := 0 }.defined = 0 ∧ 0 < (p.cls 3).useCount ∧ 15 < (classArgs 16).cls ∧
      ¬({ classArgs 15 with bakeMax := 1501 } : ClassArgs).bakeMax ≤ 1500) ∧
    ((handing (.setEngine (engineArgs 4 0)) p).hands (docket (.setEngine (engineArgs 4 0)))
        (.setEngine (engineArgs 4 0)) ∧
      (engineArgs 4 0).names = true ∧ (engineArgs 4 0).reevaluates = false ∧
      ((engineArgs 4 0).apply p.znu.settings).valid = true ∧
      ({ engineArgs 4 0 with backdate := 3601 }.apply p.znu.settings).valid = false) :=
  ⟨⟨rfl, rfl, rfl, stocked_takes someContainer⟩, ⟨handing_hands _ _, by decide⟩, handing_hands _ _, by decide⟩

/-- A cell table block of rising edges and cells at 300, from `a`; `bad` breaks the order of the RH edges. -/
def blockStores (a : Nat) (bad : Bool) : Stores :=
  let bytes := ((List.replicate 48 (leBytes 2 33068)).flatten ++
    ([150, 200, 250, 300, 350, 100, 200, 300, 400, 500, 600, if bad then 600 else 700].map (leBytes 2)).flatten)
  bytes.zipIdx.map fun x => (BitVec.ofNat 64 (a + x.2), x.1)

theorem witness_EngineAndConditionsRetriggerZones :
    let p := stocked someContainer
    (p.tbu.mainPower = true ∧ p.jnc.closing = none) ∧
    ((handing (.setEngine (engineArgs 1 256)) p).hands (docket (.setEngine (engineArgs 1 256)))
        (.setEngine (engineArgs 1 256)) ∧ (engineArgs 1 256).reevaluates = true ∧
      ((engineArgs 1 256).apply p.znu.settings).valid = true) ∧
    ((handing (.setConditions 0x5000) p).hands (docket (.setConditions 0x5000)) (.setConditions 0x5000) ∧
      (0x5000 : HostAddr) ≠ 0 ∧ (0x5000 : HostAddr).toNat % 64 = 0) :=
  ⟨⟨rfl, rfl⟩, ⟨handing_hands _ _, by decide⟩, handing_hands _ _, by decide⟩

theorem witness_EngineAndConditionsRetriggerZones_blocks :
    (decodeCellBlock ((running.hostStores (blockStores 0x5000 false)).hostRead 0x5000 120)).valid = true ∧
    (decodeCellBlock ((running.hostStores (blockStores 0x5000 true)).hostRead 0x5000 120)).valid = false := by
  decide +kernel

def zoneArgs (kind : Nat) : ZoneArgs :=
  { zone := 6, kind := kind, probe := 255, reference := 255, lineOutput := 255, creditRate := 0, dryThreshold := 0
    fixedTemp := 230, fixedRh := 350 }

theorem witness_SetZoneConfiguresTheZone :
    let p := stocked someContainer
    (p.tbu.mainPower = true ∧ (handing (.setZone (zoneArgs 4)) p).hands (docket (.setZone (zoneArgs 4)))
        (.setZone (zoneArgs 4)) ∧ (6 : Fin 64).val = (zoneArgs 4).zone ∧ p.jnc.closing = none ∧
      (p.zone 6).busy = false ∧ p.dryZonesOf 6 = []) ∧
    4 < (zoneArgs 5).kind ∧
    (decodeKind (zoneArgs 4).kind = some .oven ∧ (zoneArgs 4).probe = 255 ∧ (p.zone 6).members = []) ∧
    ((p.checkZone (zoneArgs 2)).toOption.isSome = true ∧ p.jnc.journal = .ok) ∧
    ((zoneArgs 0).kind = 0 ∧ (p.zone 6).config.lineOutput = none) ∧
    (decodeKind (zoneArgs 1).kind = some .floor ∧ ZoneKind.oven ≠ (p.zone 5).config.kind ∧ (p.zone 5).members ≠ []) := by
  refine ⟨⟨rfl, handing_hands _ _, rfl, rfl, by decide, by decide⟩, by decide, by decide, by decide, by decide,
    by decide⟩

def probeArgs (enable : Nat) (probe address : Nat) : ProbeArgs :=
  { probe := probe, enable := enable, bus := 0, address := address, group := 255, interval := 2, conversion := 2550 }

/-- A part whose probe 4 is configured and bound by zone 5. -/
def probed : Part :=
  (running.setProbe 4 { Probe.off with config := some probe4, state := .doubtful, staleReported := false }).putZone 5
    { someZone with config := { someZone.config with probe := some 4, fixed := none } }

theorem witness_SetProbeStartsRetimesOrStops :
    (probed.tbu.mainPower = true ∧ (handing (.setProbe (probeArgs 1 4 0x45)) probed).hands
        (docket (.setProbe (probeArgs 1 4 0x45))) (.setProbe (probeArgs 1 4 0x45)) ∧
      (4 : Fin 32).val = (probeArgs 1 4 0x45).probe ∧ probed.queued 4 = false ∧ probed.jnc.closing = none) ∧
    1 < (probeArgs 2 4 0x45).enable ∧
    ((probed.probe 4).staleReported = false ∧ (probed.zone 5).config.probe = some 4) ∧
    (probeArgs 1 9 0x44).config.isSome = true ∧
    (∀ c, (probeArgs 1 9 0x44).config = some c → probed.addressTaken 9 c = true) ∧
    (∀ c, (probeArgs 1 4 0x45).config = some c → probed.addressTaken 4 c = false ∧ probe4.address ≠ c.address) ∧
    (∀ c, (probeArgs 1 4 0x44).config = some c → probe4.bus = c.bus ∧ probe4.address = c.address) := by
  refine ⟨⟨rfl, handing_hands _ _, rfl, by decide, rfl⟩, by decide, by decide, by decide, ?_, ?_, ?_⟩ <;>
    (intro c hc; obtain rfl := Option.some.inj hc; decide)

theorem witness_SetProbeStartsRetimesOrStops_queued :
    (let p := probed.setBus .busA { ProbeBus.reset with queue := [4], phase := .reading, poll := some {
       probe := 4, address := 0x44, conversion := 500, group := none, second := false, discarded := false } }
     p.queued 4 = true ∧ (p.probe 4).config = some probe4 ∧ (p.bus probe4.bus).phase = .reading) ∧
    (let p := (probed.setBus .busA { ProbeBus.reset with phase := .reading, poll := some {
       probe := 4, address := 0x44, conversion := 500, group := some 2, second := false, discarded := true } }).setGroup 2
         { PowerGroup.reset with cycled := true, on := true }
     (p.bus .busA).queue = [] ∧ (p.group 2).cycled = true ∧ p.groupQueued 2 = false) := by
  decide

def groupArgs (lead : Nat) : GroupArgs :=
  { mask := 0x33, modes := #v[0, 1, 0, 0], leads := #v[lead, 0, 0, 0], speedA := 400, speedB := 100 }

theorem witness_SetGroupWritesFlaggedValues :
    ((handing (.setGroup (groupArgs 2550)) running).hands (docket (.setGroup (groupArgs 2550)))
        (.setGroup (groupArgs 2550)) ∧ running.jnc.closing = none ∧
      (groupArgs 2550).mask.setWidth 6 ≠ 0#6 ∧ (groupArgs 2550).valid = true) ∧
    (groupArgs 2551).valid = false ∧ ({ groupArgs 0 with mask := 0xC0 } : GroupArgs).mask.setWidth 6 = 0#6 ∧
    (groupArgs 0).mask.getLsbD 0 = true ∧ (groupArgs 0).mask.getLsbD 2 = false :=
  ⟨⟨handing_hands _ _, rfl, by decide, by decide⟩, by decide, by decide, by decide, by decide⟩

def doorArgs (zone filter : Nat) : DoorArgs :=
  { line := 0, zone := zone, polarity := 1, filterTime := filter, openLimit := 60 }

theorem witness_SetDoorConfiguresTheLine :
    ((handing (.setDoor (doorArgs 5 2550)) (doored true false)).hands (docket (.setDoor (doorArgs 5 2550)))
        (.setDoor (doorArgs 5 2550)) ∧ (0 : Fin 16).val = (doorArgs 5 2550).line ∧
      (doored true false).jnc.closing = none ∧ (doorArgs 5 2550).polarity ≤ 1 ∧ 10 ≤ (doorArgs 5 2550).filterTime ∧
      (doorArgs 5 2550).filterTime ≤ 2550 ∧ (doorArgs 5 2550).filterTime % 10 = 0 ∧
      (5 : Fin 64).val = (doorArgs 5 2550).zone ∧ ((doored true false).zone 5).config.kind = .dry) ∧
    ¬(doorArgs 5 9).filterTime % 10 = 0 ∧ ((doored true false).zone 6).config.kind = .unused ∧
    (doorArgs 255 10).zone = 255 ∧ ((doored true false).line 0).zone = some 5 :=
  ⟨⟨handing_hands _ _, rfl, rfl, by decide, by decide, by decide, by decide, rfl, by decide⟩, by decide, by decide, rfl,
    by decide⟩

def outputArgs (step lampZone : Nat) : OutputArgs :=
  { mask := 0xF0103, overrides := #v[1, 2, 0, 0, 0, 0, 0, 0], lampZones := #v[lampZone, 0, 0, 0, 0, 0, 0, 0]
    stepPeriod := step, calm := { length := 2, steps := 1 }, warn := { length := 16, steps := 1 }
    hold := { length := 4, steps := 1 } }

theorem witness_SetOutputWritesFlaggedValues :
    let p := stocked someContainer
    ((handing (.setOutput (outputArgs 1000 5)) p).hands (docket (.setOutput (outputArgs 1000 5)))
        (.setOutput (outputArgs 1000 5)) ∧ p.tbu.mainPower = true ∧ p.jnc.closing = none ∧
      (outputArgs 1000 5).mask.setWidth 20 ≠ 0#20 ∧ (outputArgs 1000 5).valid = true ∧
      (outputArgs 1000 5).zonesOk p = true) ∧
    (outputArgs 1001 5).valid = false ∧ (outputArgs 50 6).zonesOk p = false ∧
    (outputArgs 50 5).mask.getLsbD 2 = false ∧ (outputArgs 50 5).mask.getLsbD 0 = true ∧
    ((outputArgs 1001 6).valid = false ∧ (outputArgs 1001 6).zonesOk p = false) ∧
    ({ outputArgs 50 5 with mask := 0xFFF00000 } : OutputArgs).mask.setWidth 20 = 0#20 :=
  ⟨⟨handing_hands _ _, rfl, rfl, by decide, by decide, by decide⟩, by decide, by decide, by decide, by decide,
    by decide, by decide⟩

def queryProbeArgs : QueryProbeArgs := { probe := 31, clearLate := true, reply := 0x20 }

theorem witness_QueryProbeReportsTheProbe :
    (handing (.queryProbe queryProbeArgs) running).hands (docket (.queryProbe queryProbeArgs))
      (.queryProbe queryProbeArgs) ∧ (31 : Fin 32).val = queryProbeArgs.probe ∧ queryProbeArgs.reply ≠ 0 ∧
    queryProbeArgs.reply.toNat % 32 = 0 ∧ (0x21 : HostAddr).toNat % 32 ≠ 0 :=
  ⟨handing_hands _ _, rfl, by decide, by decide, by decide⟩

/-- A restored part in AWAIT_TIME whose journal ends at second 5. -/
def awaiting : Part :=
  { Part.reset with jnc := { Jnc.reset with engine := .awaitTime, restore := some {
      tLast := 5, openDrop := none, imagedAfter := [], reconciled := false } } }

def blankPart : Part := { running with tbu := { Tbu.reset with timeValid := true }, jnc := { Jnc.reset with engine := .blank } }

theorem witness_SetTimeSetsTheClock :
    (handing (.setTime 5) awaiting).hands (docket (.setTime 5)) (.setTime 5) ∧
    (awaiting.jnc.engine = .awaitTime ∧ awaiting.jnc.restore = some {
      tLast := 5, openDrop := none, imagedAfter := [], reconciled := false } ∧ awaiting.jnc.closing = none) ∧
    (4 < 5 ∧ 5 < Config.timeNone) ∧ running.jnc.engine = .running ∧ blankPart.jnc.engine = .blank :=
  ⟨handing_hands _ _, by decide, by decide, rfl, rfl⟩

theorem witness_FormatErasesFromSectorZero :
    (handing .format blankPart).hands (docket .format) .format ∧
    ((0x20 : Byte) ≠ 0x00#8 ∧ (0x20 : Byte) ≠ 0xFF#8 ∧ blankPart.tbu.timeValid = true ∧ blankPart.jnc.engine = .blank ∧
      blankPart.jnc.port.job = none ∧ blankPart.jnc.port.suspended = none ∧ blankPart.jnc.queue = []) ∧
    running.tbu.timeValid = false :=
  ⟨handing_hands _ _, by decide, rfl⟩

/-- A FORMAT at an operation of the port. -/
def formatting (stage : FormatStage) (job : FlashJob) : Part :=
  { blankPart with
    jnc := { blankPart.jnc with
      format := some { stage := stage, serial := 4294967295, time := 10 }, port := { FlashPort.reset with job := some job } }
    exi := { blankPart.exi with inHand := some { docket .format with stage := .working } } }

theorem witness_FormatErasesFromSectorZero_progress :
    (∀ x ∈ ([(.erasing, .erase (.format 1022)), (.erasing, .erase (.format 1023)), (.entry, .program .formatBody),
        (.entry, .program .formatMark)] : List (FormatStage × FlashJob)),
      let p := formatting x.1 x.2
      p.tbu.mainPower = true ∧ p.jnc.format = some { stage := x.1, serial := 4294967295, time := 10 } ∧
        p.jnc.closing = none ∧ p.jnc.port.timedOut = false ∧ p.jnc.port.job = some x.2 ∧
        p.exi.inHand = some { docket .format with stage := .working }) ∧
    (formatting .entry (.program .formatBody)).flash.cells.readBlock flashBlank 0 64 = List.replicate 64 flashBlank ∧
    (entryBody (.formatEntry 4294967295) false 0 10).length = 63 ∧
    (let p := formatting .erasing (.erase (.format 0))
     1 ≤ ({ p with jnc := { p.jnc with failures := 1 } } : Part).jnc.failures) ∧
    (let p := formatting .entry (.program .formatMark)
     p.jnc.engine ≠ .running ∧ ({ p with jnc := { p.jnc with engine := .running } } : Part).jnc.engine = .running ∧
      (p.line 0).high = false ∧ ((p.setLine 0 { p.line 0 with high := true }).line 0).high = true ∧
      p.prc.busA.poll = none) := by
  decide

/-! ### Fire requests and probes -/

/-- A pass at `t` over one entry of slot 7. -/
def passing (kind : DueKind) (due : Nat) (c : Container) : Part :=
  let p := stocked c
  { p with dlu := { Dlu.reset with entries := [⟨due, 7, kind⟩], pass := some ⟨due, none, []⟩ } }

/-- The container of `someContainer`, 30 s into a bake of 60 s. -/
def baking : Container :=
  { someContainer with custody := .baking, mode := .bakeRun, bakeProgress := some 30, bakeRunStart := some 100 }

theorem witness_FireRequestsSettleAtTheDue :
    (∀ kind due c, (passing kind due c).dlu.pass = some ⟨due, none, []⟩ ∧
      passNext ⟨due, none, []⟩ (passing kind due c).dlu.entries = some ⟨due, 7, kind⟩ ∧
      (passing kind due c).slot 7 = some c ∧ (passing kind due c).jnc.closing = none) ∧
    (∀ c, c.zone = 5 → ((passing .bakeDue 130 c).zone c.zone).change = none) ∧
    (someContainer.settled ≤ 5500 ∧ someContainer.exposure + 5400 * 256 < someClass.limit ∧
      someClass.limit - (someContainer.exposure + 5400 * 256) ≤ someClass.warnTicks) ∧
    someClass.limit ≤ someContainer.exposure + 6000 * 256 ∧
    (baking.custody = .baking ∧ baking.mode = .bakeRun ∧
      someClass.bakeDuration * 60 - baking.bakeProgress.getD 0 ≤ 130 - baking.settled) ∧
    (running.dlu.pass = none ∧ ({ running with dlu := { Dlu.reset with pendingPass := some 9 } } : Part).dlu.pendingPass =
      some 9) := by
  refine ⟨?_, ?_, by decide, by decide, by decide, by decide⟩
  · intro kind due c
    refine ⟨rfl, ?_, (stocked_slot c 7).trans (by simp), rfl⟩
    simp [passNext, passing]
  · intro c hc
    rw [hc]
    rfl

theorem witness_PollTimersQueueProbes :
    ((probed.probe 4).config = some probe4 ∧ probed.jnc.engine = .running ∧ probed.queued 4 = false ∧
      (probed.bus .busA).poll = none ∧ (probed.bus .busA).queue = [] ∧ probe4.group = none) ∧
    (probed.setBus .busA { ProbeBus.reset with queue := [4] }).queued 4 = true ∧
    ((probed.setBus .busA { ProbeBus.reset with poll := some ⟨9, 9, 9, none, false, false⟩ }).bus .busA).poll ≠ none ∧
    ((running.setGroup 2 { PowerGroup.reset with cycled := true }).group 2).cycled = true ∧
    (running.probe 3).config = none ∧ ((running.setGroup 1 { PowerGroup.reset with on := true }).group 1).on = true ∧
    (running.group 1).on = false := by
  decide

theorem witness_StaleTimeTurnsProbeStale :
    (probed.tbu.mainPower = true ∧ probed.jnc.closing = none ∧ probed.jnc.engine = .running ∧
      (probed.probe 4).state = .doubtful ∧ (probed.probe 4).staleTime ≤ probed.now ∧
      (probed.probe 4).staleReported = false ∧ (probed.zone 5).config.probe = some 4) ∧
    (running.probe 4).state = .off := by
  decide

/-- Bus A serving probe 4 in a phase. -/
def polling (phase : BusPhase) (second : Bool) : Part :=
  probed.setBus .busA { ProbeBus.reset with queue := [4], phase := phase, poll := some {
    probe := 4, address := 0x44, conversion := 500, group := none, second := second, discarded := false } }

/-- A FORMAT's last program, with an attempt under way on bus A and one that is due to begin. -/
theorem witness_FormatErasesFromSectorZero_buses :
    let p (phase : BusPhase) : Part := { formatting .entry (.program .formatMark) with prc := (polling phase false).prc }
    ((p (.converting 9)).prc.busA.poll ≠ none ∧ (p (.converting 9)).prc.busA.phase.underWay = true) ∧
    ((p .start).prc.busA.poll ≠ none ∧ (p .start).prc.busA.phase.underWay = false) := by
  decide

theorem witness_AttemptStepsOnTheBus :
    (∀ phase second, ((polling phase second).bus .busA).poll = some {
      probe := 4, address := 0x44, conversion := 500, group := none, second := second, discarded := false }) ∧
    ((polling .start false).bus .busA).phase = .start ∧ ((polling (.awaitFree 25) false).bus .busA).phase = .awaitFree 25 ∧
    ((polling (.converting 0) false).bus .busA).phase = .converting 0 ∧
    ((polling (.retryGap 0) false).bus .busA).phase = .retryGap 0 :=
  ⟨fun _ _ => rfl, rfl, rfl, rfl, rfl⟩

theorem witness_ResponseEndsThePoll :
    (∀ second, let p := polling .reading second
      p.tbu.mainPower = true ∧ (p.bus .busA).phase = .reading ∧ (p.bus .busA).queue = [4] ∧
      (p.probe 4).config = some probe4 ∧ p.jnc.closing = none ∧ (p.probe 4).lastCount = none) ∧
    ((1 : Byte).getLsbD 1 = false ∧ (1 : Byte).getLsbD 0 = true) ∧ (2 : Byte).getLsbD 1 = true := by
  decide

/-- Zone 5 a ready oven bound to probe 4, with the container of `baking` in slot 7. -/
def ovenPolled : Part :=
  (({ stocked baking with prc := (polling .reading false).prc } : Part).putZone 5 { someZone with
    config := { someZone.config with kind := .oven, probe := some 4, fixed := none }, condition := some .ovenReady })

theorem witness_ResponseEndsThePoll_oven :
    (let p := ovenPolled
     (p.bus .busA).phase = .reading ∧ (p.bus .busA).queue = [4] ∧ (p.probe 4).config = some probe4 ∧
      p.jnc.closing = none ∧ p.zonesOfProbe 4 = [5] ∧ (p.zone 5).config.kind = .oven ∧
      (p.zone 5).condition = some .ovenReady ∧ (p.zone 5).doorOpen = false ∧ (p.zone 5).busy = false ∧
      (p.zone 5).members = [7]) ∧
    (baking.zone = 5 ∧ baking.custody = .baking ∧ (settleRecord someClass 129 baking).1.custody = .baking ∧
      (settleRecord someClass 200 baking).1.custody = .opened) := by
  decide

theorem witness_ResponseEndsThePoll_member : ovenPolled.slot 7 = some baking :=
  (stocked_slot baking 7).trans (by simp)

/-! ### Zones -/

theorem witness_EvaluationDecidesTheCondition :
    (someZone.config.kind = .floor ∧ someZone.stale = false ∧ someZone.held ≠ none ∧ Znu.reset.bandsOf someZone = some (2, 3) ∧
      (Znu.reset.cell (2, 3)).enabled = true) ∧
    ({ someZone with stale := true } : Zone).stale = true ∧
    ({ someZone with config := { someZone.config with kind := .dry, dryThreshold := 350 } } : Zone).config.kind = .dry ∧
    ({ someZone with config := { someZone.config with kind := .oven } } : Zone).config.kind = .oven ∧
    Zone.unused.config.kind = .unused := by
  decide

/-- Zone 5 with a reading trigger and a door trigger waiting. -/
def waitingPart (a b : Nat) : Part :=
  running.putZone 5 { someZone with waitReading := some ⟨a, false⟩, waitDoor := some ⟨b, false⟩ }

theorem witness_WaitingTriggerIsTakenEarliestFirst :
    (running.tbu.mainPower = true ∧ running.jnc.closing = none ∧ (running.zone 5).waitReading = none ∧
      (running.zone 5).waitDoor = none) ∧
    (((waitingPart 9 9).zone 5).change = none ∧ ((waitingPart 9 9).zone 5).waitConfig = none ∧
      (waitingPart 9 9).dryZonesOf 5 = [] ∧ ((waitingPart 9 9).zone 5).waitReading = some ⟨9, false⟩) ∧
    ((waitingPart 9 8).zone 5).waitDoor = some ⟨8, false⟩ := by
  decide

/-! ### The journal -/

/-- A resync with its DROP_MARK staged. -/
def resyncing : Part :=
  { journaling with jnc := { journaling.jnc with journal := .resync, markStaged := true, sinceMark := 60 } }

theorem witness_EntriesAreStagedInOrder :
    (let p : Part := { journaling with jnc := { journaling.jnc with waiting := [.retire 7 0xA1], sinceMark := 60 } }
     p.tbu.mainPower = true ∧ p.jnc.closing = none ∧ p.jnc.format = none ∧ p.jnc.journal ≠ .failed ∧
      p.jnc.waiting = [.retire 7 0xA1] ∧ p.docketEntries + 1 ≤ 64 ∧ p.jnc.queue.length + 1 ≤ 96 ∧ 4 < p.jnc.freeCount ∧
      p.jnc.engine = .running ∧ 60 ≤ p.jnc.sinceMark ∧ p.jnc.queue.length < 96) ∧
    ({ journaling with jnc := { journaling.jnc with freeCount := 4 } } : Part).jnc.freeCount ≤ 4 ∧
    (let p : Part := { journaling with jnc := { journaling.jnc with waiting := [.zone 5 someZone.image] } }
     p.jnc.journal = .ok ∧ p.jnc.waiting = [.zone 5 someZone.image]) ∧
    (resyncing.jnc.journal = .resync ∧ resyncing.jnc.queue.length < 32 ∧ resyncing.jnc.dropTime = none ∧
      resyncing.jnc.markStaged = true ∧ resyncing.jnc.endStaged = false ∧ ∀ z, (resyncing.zone z).dirty = false) ∧
    ({ resyncing with jnc := { resyncing.jnc with dropTime := some 5 } } : Part).jnc.dropTime = some 5 ∧
    ((resyncing.putZone 63 { Zone.unused with dirty := true }).zone 63).dirty = true ∧
    journaling.jnc.journal ≠ .resync := by
  decide

theorem witness_EntriesAreStagedInOrder_no_container (i : Fin 2048) (c : Container) (h : resyncing.slot i = some c) :
    c.dirty = false := by
  rw [show resyncing.slot i = none from reset_slot i] at h
  cases h

/-- A resync in which the container of slot 7 alone is journal-dirty. -/
def resyncingSlot : Part := { stocked { someContainer with dirty := true } with jnc := resyncing.jnc }

theorem resyncingSlot_slot (j : Fin 2048) :
    resyncingSlot.slot j = if 7 = j then some { someContainer with dirty := true } else none := stocked_slot _ j

theorem witness_EntriesAreStagedInOrder_container :
    (resyncingSlot.tbu.mainPower = true ∧ resyncingSlot.jnc.engine = .running ∧ resyncingSlot.jnc.journal = .resync ∧
      4 < resyncingSlot.jnc.freeCount ∧ resyncingSlot.jnc.queue.length < 32 ∧ resyncingSlot.jnc.dropTime = none ∧
      resyncingSlot.jnc.markStaged = true ∧ (∀ z, (resyncingSlot.zone z).dirty = false) ∧
      (resyncingSlot.zone someContainer.zone).change = none) ∧
    resyncingSlot.slot 7 = some { someContainer with dirty := true } ∧
    ∀ j d, j < 7 → resyncingSlot.slot j = some d → d.dirty = false := by
  refine ⟨by decide, resyncingSlot_slot 7, fun j d hj hd => ?_⟩
  rw [resyncingSlot_slot, if_neg (by omega)] at hd
  cases hd

/-- A part whose staging queue is full, and one in which staging is held for compaction. -/
theorem witness_EntriesAreStagedInOrder_dropped :
    (let p : Part := { journaling with jnc := { journaling.jnc with
       queue := List.replicate 96 { payload := .timeMark none, time := 3, owner := .internal }, sinceMark := 60 } }
     p.tbu.mainPower = true ∧ p.jnc.closing = none ∧ p.jnc.format = none ∧ p.jnc.engine = .running ∧
      p.jnc.journal ≠ .failed ∧ 96 ≤ p.jnc.queue.length ∧ 60 ≤ p.jnc.sinceMark) ∧
    ({ journaling with jnc := { journaling.jnc with freeCount := 4 } } : Part).jnc.freeCount ≤ 4 ∧
    (7 : Fin 2048) ∈ ((stocked someContainer).zone 5).members ∧ (8 : Fin 2048) ∉ ((stocked someContainer).zone 5).members := by
  decide

/-- R164: a dropped ZONE_CONDITION marks its zone and the container in its member list. -/
theorem test_dropped_condition_marks_zone_and_member :
    (let p : Part := { stocked someContainer with jnc := { running.jnc with freeCount := 4 } }
     let q := p.offerInternal (.zoneCondition 5 someZone.conditionImage)
     (q.zone 5).dirty = true ∧ (q.slot 7).map (·.dirty) = some true ∧ q.jnc.dropTime = some 200) := by
  decide

theorem witness_ProgramsCommitTheOldestEntry :
    (let p := programming
     p.tbu.mainPower = true ∧ p.jnc.closing = none ∧ p.jnc.format = none ∧ p.jnc.journal ≠ .failed ∧
      p.jnc.sectorOpen = true ∧ p.jnc.port.timedOut = false ∧ p.jnc.port.suspended = none ∧
      p.jnc.queue = [{ payload := .timeMark none, time := 3, owner := .internal }] ∧
      p.jnc.port.job = some (.program .entryBody) ∧
      p.flash.cells.readBlock flashBlank (p.jnc.headSector * 4096 + p.jnc.headPos * 64) 64 =
        List.replicate 64 flashBlank ∧
      (entryBody (.timeMark none) false p.jnc.nextSeq.toNat 3).length = 63 ∧ p.jnc.failures = 0 ∧
      p.jnc.headPos + 1 < 64) ∧
    ({ programming with jnc := { programming.jnc with failures := 1 } } : Part).jnc.failures = 1 ∧
    ({ programming with jnc := { programming.jnc with port := { FlashPort.reset with
      job := some (.program .entryMark) } } } : Part).jnc.port.job = some (.program .entryMark) := by
  decide

/-- The port opens sector 2. -/
def opening (step : ProgramStep) : Part :=
  { running with jnc := { running.jnc with
      headSector := 2, headPos := 0, sectorOpen := false, sectorCounted := false
      port := { FlashPort.reset with job := some (.program step) } } }

theorem witness_ProgramsCommitTheOldestEntry_opening :
    (let j : Jnc := { programming.jnc with headPos := 63, notErased := [2], tail := 1 }
     64 ≤ j.headPos + 1 ∧ j.headSector + 1 ≠ j.tail ∧ j.headSector + 1 ∈ j.notErased ∧
      j.headSector + 1 ∉ ({ j with notErased := [] } : Jnc).notErased) ∧
    (∀ step, (opening step).tbu.mainPower = true ∧ (opening step).jnc.queue = [] ∧ (opening step).jnc.closing = none ∧
      (opening step).jnc.format = none ∧ (opening step).jnc.journal ≠ .failed ∧ (opening step).jnc.sectorOpen = false ∧
      (opening step).jnc.port.timedOut = false ∧ (opening step).jnc.port.suspended = none ∧
      (opening step).jnc.headPos < 63 ∧ (opening step).jnc.port.job = some (.program step)) ∧
    (opening .headBody).flash.cells.readBlock flashBlank (2 * 4096) 64 = List.replicate 64 flashBlank ∧
    (entryBody (.sectorHead 0 1) false 0 0).length = 63 := by
  refine ⟨by decide, ?_, by decide, by decide⟩
  intro step
  exact ⟨rfl, rfl, rfl, rfl, nofun, rfl, rfl, rfl, show (0 : Nat) < 63 by decide, rfl⟩

/-- The port erases the tail for a compaction. -/
def erasing : Part :=
  { journaling with jnc := { journaling.jnc with
      queue := [{ payload := .timeMark none, time := 3, owner := .internal }], compaction := .erasing
      port := { FlashPort.reset with job := some (.erase (.compaction 1023)), elapsed := 499 } } }

theorem witness_FlashFailuresAndSuspend :
    (erasing.tbu.mainPower = true ∧ erasing.jnc.closing = none ∧ erasing.jnc.format = none ∧
      erasing.jnc.port.timedOut = false ∧ erasing.jnc.port.job = some (.erase (.compaction 1023)) ∧
      erasing.jnc.queue ≠ [] ∧ erasing.jnc.failures = 0 ∧ erasing.jnc.sectorOpen = true ∧ erasing.jnc.headPos < 64 ∧
      erasing.jnc.journal ≠ .failed) ∧
    programming.jnc.port.job = some (.program .entryBody) ∧
    ({ erasing with jnc := { erasing.jnc with port := { erasing.jnc.port with timedOut := true } } } : Part).jnc.port.timedOut
      = true ∧ journaling.jnc.queue = [] ∧
    (let p : Part := { erasing with jnc := { erasing.jnc with
       queue := [], closing := some { recover := false, marked := false } } }
     p.jnc.queue = [] ∧ p.jnc.engine = .running ∧ p.jnc.closing = some { recover := false, marked := false } ∧
      p.jnc.port.job = some (.erase (.compaction 1023))) ∧
    1 ≤ ({ erasing with jnc := { erasing.jnc with failures := 1 } } : Part).jnc.failures := by
  decide

theorem witness_CompactionFreesTheTailSector :
    (journaling.tbu.mainPower = true ∧ journaling.jnc.closing = none ∧ journaling.jnc.format = none ∧
      journaling.jnc.journal = .ok ∧ journaling.jnc.engine = .running ∧ journaling.jnc.compaction = .idle ∧
      16 ≤ journaling.jnc.freeCount) ∧
    (let p : Part := { journaling with jnc := { journaling.jnc with freeCount := 15 } }
     p.jnc.freeCount < 16 ∧ p.jnc.port.job = none ∧ p.jnc.port.suspended = none ∧ p.jnc.queue.length < 32 ∧
      ∀ r ∈ p.jnc.newest, r.2 ≠ p.jnc.tail) ∧
    (programming.jnc.compaction = .idle ∧ programming.jnc.port.job ≠ none) ∧
    ({ journaling.jnc with compaction := .imaging [] (some 9) } : Jnc).compaction = .imaging [] (some 9) ∧
    (let j : Jnc := { journaling.jnc with freeCount := 15, newest := [(.slot 7, 1), (.zone 5, 2)] }
     (j.newest.filter fun r => r.2 == j.tail) = [(.slot 7, j.tail)]) ∧
    (let j : Jnc := { journaling.jnc with compaction := .imaging [] none }
     j.compaction = .imaging [] none ∧ (∀ e ∈ j.queue, e.owner ≠ .compaction) ∧ j.queue.length < 32) ∧
    (let j : Jnc := { journaling.jnc with compaction := .marked }
     j.compaction = .marked ∧ j.port.job = none ∧ j.port.suspended = none) ∧
    (erasing.jnc.port.job = some (.erase (.compaction 1023)) ∧ erasing.jnc.port.timedOut = false ∧
      erasing.jnc.failures = 0 ∧ journaling.jnc.sectorOpen = true ∧ journaling.jnc.headPos < 64) := by
  decide

/-! ### The account -/

theorem witness_SettlingIsAdditive : someContainer.settled ≤ 100 ∧ 100 ≤ 6100 ∧
    someContainer.exposure ≤ someClass.limit ∧ 99 < someContainer.settled := by decide

theorem witness_DuesAreFirstCrossings : someContainer.custody = .opened ∧ someContainer.mode = .accrue 256 ∧ 0 < 256 ∧
    someContainer.exposure < someClass.limit ∧ 6100 < Config.lastSecond ∧ someContainer.settled ≤ 6099 ∧
    (withDues someClass someContainer).expireDue = some 6100 ∧ someContainer.warned = false ∧
    (withDues someClass someContainer).warnDue = some 5500 := by decide

/-! ### Witnesses of further clauses -/

theorem witness_MainPowerOnAndLoss_format :
    (formatting .erasing (.erase (.format 5))).jnc.port.job = some (.erase (.format 5)) ∧
    (formatting .entry (.program .formatBody)).jnc.port.job = some (.program .formatBody) ∧
    (formatting .entry (.program .formatMark)).jnc.port.job = some (.program .formatMark) := by
  decide

/-- R173: power lost at the entry or the commit mark of a FORMAT leaves no committed FORMAT entry, though the mark is in the
flash. -/
theorem test_power_loss_in_format_leaves_no_entry :
    (let p : Part := { formatting .entry (.program .formatMark) with flash := formatted }
     let r : Part := { p with jnc := (formatting .entry (.program .formatBody)).jnc }
     p.flash.formatEntry = some (1, 10) ∧ (p.mainPowerLoss [0]).flash.formatEntry = none ∧
       (r.mainPowerLoss []).flash.formatEntry = none) := by
  decide

/-- R158: a compaction erase that fails gives the port to the commit behind it. -/
theorem test_failed_erase_gives_way :
    (let q := erasing.eraseComplete .latchClear
     q.jnc.port.job = some (.program .entryBody) ∧ q.jnc.compaction = .marked) := by
  decide

/-- R160: a SECTOR_HEAD that fails at position 63 leads on to the next sector. -/
theorem test_spent_sector_is_left :
    (let p : Part := { opening .headMark with jnc := { (opening .headMark).jnc with headPos := 63 } }
     (p.programComplete .latchClear).jnc.port.job = some (.erase (.opening 3))) := by
  decide

/-- A group is under way while a docket is in hand, and the other accesses of a docket in hand. -/
theorem witness_FailedAccessAndBusReset_inHand :
    (let p := answered.postSlot 2047
     p.exi.inHand = some { docket .format with stage := .finished (plainAnswer .ok) } ∧ p.exi.intake = .on ∧
      p.exi.marked = true) ∧
    (let p := handing (.query queryArgs) (withIntake (stocked someContainer))
     p.exi.intake = .on ∧ p.jnc.engine = .running ∧ (p.zone someContainer.zone).change = none ∧ p.jnc.closing = none) ∧
    (let p := withIntake (listing 2 someContainer)
     p.exi.intake = .on ∧ p.exi.inHand = some (listDocket 2) ∧ p.ctu.list = some (listAt 2) ∧
      (listDocket 2).stage = .working ∧ (listAt 2).next + 1 < (listAt 2).count ∧ p.tbu.powerFail = false ∧
      p.jnc.closing = none ∧ p.jnc.journal = .ok) :=
  ⟨by decide, by decide, by decide⟩

/-- A replay in progress, before an entry that is passed over and one that is applied. -/
theorem witness_RestoreReplaysOrIsBlank_entries :
    (let r : Replay := { part := stocked someContainer, last := 4, tLast := 0, openDrop := none, dropAt := none
                         imagedAfter := [], lower := none, upper := none }
     (4 : Nat) ≤ r.last ∧ r.last < 5 ∧ r.part.idsUnique) ∧
    (stocked someContainer).holdsId 7 0xA1 ∧ ¬(stocked someContainer).holdsId 7 0xA2 :=
  ⟨⟨by decide, by decide, stocked_idsUnique someContainer⟩,
    ⟨someContainer, (stocked_slot someContainer 7).trans (by decide), rfl⟩, stocked_no_other someContainer _ (by decide) 7⟩

theorem witness_QuarantineAndRelease_refused :
    (handing (.quarantine 0xA2) (stocked someContainer)).hands (docket (.quarantine 0xA2)) (.quarantine 0xA2) ∧
    (handing (.release { id := 0xA2, resume := 2 }) (stocked someContainer)).hands
      (docket (.release { id := 0xA2, resume := 2 })) (.release { id := 0xA2, resume := 2 }) ∧
    (∀ j, ¬(stocked someContainer).holdsId j 0xA2) ∧
    ((stocked someContainer).zone 5).condition = some (.exposing 256) ∧ (stocked someContainer).exi.intake = .off ∧
    (withIntake (stocked someContainer)).exi.intake = .on :=
  ⟨handing_hands _ _, handing_hands _ _, stocked_no_other someContainer _ (by decide), by decide, rfl, rfl⟩

theorem witness_QueryReportsSettledRecord_unknown :
    let a : QueryArgs := { id := 0xA2, reply := 0x8000 }
    (handing (.query a) (stocked someContainer)).hands (docket (.query a)) (.query a) ∧ a.reply ≠ 0 ∧
      a.reply.toNat % 64 = 0 ∧ (∀ j, ¬(handing (.query a) (stocked someContainer)).holdsId j a.id) :=
  ⟨handing_hands _ _, by decide, by decide, stocked_no_other someContainer _ (by decide)⟩

theorem witness_MoveEntryMovesItsContainer_last :
    let p := (listing 1 someContainer).hostStores (moveStores 0xA1 5 0)
    p.ctu.list = some (listAt 1) ∧ p.exi.inHand = some (listDocket 1) ∧ (listAt 1).next < (listAt 1).count ∧
      (listAt 1).next + 1 = (listAt 1).count ∧ p.idsUnique ∧ p.slot 7 = some someContainer ∧
      (decodeMoveEntry (p.hostRead ((listAt 1).entryAddr 0) 16)).id = someContainer.id ∧
      (decodeMoveEntry (p.hostRead ((listAt 1).entryAddr 0) 16)).zone = 5 ∧ (p.zone 5).change = none ∧
      someContainer.lastMove = none ∧ p.jnc.journal = .ok :=
  ⟨rfl, rfl, by decide, by decide, listing_idsUnique _ _ _, (listing_slot _ _ _ 7).trans (by simp), by decide, by decide,
    by decide, rfl, rfl⟩

theorem witness_ClassAndEngineSettingsAreWritten_empty :
    (handing (.setEngine (engineArgs 0xC0 0)) running).hands (docket (.setEngine (engineArgs 0xC0 0)))
      (.setEngine (engineArgs 0xC0 0)) ∧ (engineArgs 0xC0 0).mask.setWidth 6 = 0#6 :=
  ⟨handing_hands _ _, by decide⟩

/-- A zone that is free, a DRY zone that follows it, and one with a trigger waiting; and what each docket refuses. -/
theorem witness_EngineAndConditionsRetriggerZones_zones :
    (let p := (stocked someContainer).putZone 9 { someZone with
       config := { someZone.config with kind := .dry, reference := some 5 }, members := [] }
     (p.zone 5).config.kind ≠ .unused ∧ (p.zone 5).busy = false ∧ (p.zone 9).busy = false ∧
      (p.zone 9).config.reference = some 5 ∧ (p.zone 5).config.kind.walks = true) ∧
    ((waitingPart 9 9).zone 5).busy = true ∧ ((engineArgs 1 255).apply Settings.reset).valid = false ∧
    (engineArgs 1 255).reevaluates = true ∧ (0x5020 : HostAddr).toNat % 64 ≠ 0 := by
  decide

/-- The arguments that each check of R50 refuses, and a zone with a trigger waiting. -/
theorem witness_SetZoneConfiguresTheZone_checks :
    (decodeKind 3 = some .dry ∧ decodeKind 2 = some .line ∧ decodeKind 4 = some .oven) ∧
    ((32 : Nat) ≠ 255 ∧ 32 ≤ 32) ∧ ((1001 : Nat) ≠ 65535 ∧ 1000 < 1001) ∧ ((8 : Nat) ≠ 255 ∧ 8 ≤ 8) ∧
    (let p := (stocked someContainer).putZone 9 { someZone with
       config := { someZone.config with kind := .line, lineOutput := some 3 } }
     (p.zone 9).config.kind = .line ∧ (p.zone 9).config.lineOutput = some 3 ∧ (p.zone 6).config.kind ≠ .floor ∧
      (p.zone 6).config.kind ≠ .line) ∧
    (let p := (stocked someContainer).putZone 9 { someZone with
       config := { someZone.config with kind := .dry, reference := some 5 } }
     p.dryZonesOf 5 ≠ []) ∧
    (let p := (stocked someContainer).putZone 6 { someZone with waitDoor := some ⟨9, false⟩, members := [] }
     (p.zone 6).busy = true ∧ p.dryZonesOf 6 = [] ∧ (p.checkZone (zoneArgs 1)).toOption.isSome = true ∧
      (p.zone 6).config.kind = .floor ∧ (p.zone 6).members = []) := by
  decide

theorem witness_SetProbeStartsRetimesOrStops_ranges :
    32 ≤ (probeArgs 1 32 0x44).probe ∧ (probeArgs 1 4 0x78).config = none ∧ (probeArgs 1 4 0x77).config.isSome = true ∧
    (probeArgs 1 4 0x08).config.isSome = true ∧ (probeArgs 1 4 0x07).config = none := by
  decide

/-- A SET_TIME after an unfinished resync, with an image applied after its mark and without one. -/
theorem witness_SetTimeSetsTheClock_drop :
    let r : RestoreRecord := { tLast := 5, openDrop := some 3, imagedAfter := [9], reconciled := false }
    let p : Part := handing (.setTime 900) { stocked someContainer with jnc := { awaiting.jnc with restore := some r } }
    p.jnc.engine = .awaitTime ∧ p.jnc.restore = some r ∧ p.jnc.closing = none ∧ r.tLast ≤ 900 ∧
      (7 : Fin 2048) ∉ r.imagedAfter ∧ (9 : Fin 2048) ∈ r.imagedAfter :=
  ⟨rfl, rfl, rfl, by decide, by decide, by decide⟩

/-- Zone 5 with a change of its condition under way, its one member left. -/
def changing : Part := (stocked someContainer).putZone 5 { someZone with
  condition := some (.drying 9), change := some { old := some (.exposing 256), time := 150, remaining := [7] } }

theorem changing_slot (j : Fin 2048) : changing.slot j = if 7 = j then some someContainer else none :=
  stocked_slot someContainer j

theorem witness_WaitingTriggerIsTakenEarliestFirst_change :
    (changing.tbu.mainPower = true ∧ changing.jnc.closing = none ∧ (changing.zone 5).waitReading = none ∧
      (changing.zone 5).waitDoor = none ∧ (changing.zone 5).waitConfig = none ∧
      (changing.zone 5).change = some { old := some (.exposing 256), time := 150, remaining := [7] } ∧
      changing.slot 7 = some someContainer ∧ someContainer.zone = 5) ∧
    (let p := running.putZone 5 { someZone with waitConfig := some ⟨9, false⟩ }
     (p.zone 5).waitConfig = some ⟨9, false⟩ ∧ (p.zone 5).waitReading = none ∧ (p.zone 5).waitDoor = none ∧
      (p.zone 5).change = none ∧ p.dryZonesOf 5 = []) ∧
    (let p := (stocked someContainer).putZone 5 { someZone with
       condition := some (.exposing 77), waitReading := some ⟨180, false⟩ }
     (p.zone 5).change = none ∧ (p.evaluated (p.zone 5)).2 ≠ (p.zone 5).condition ∧ p.jnc.engine = .running ∧
      (p.zone 5).members = [7]) :=
  ⟨⟨rfl, rfl, by decide, by decide, by decide, by decide, (changing_slot 7).trans (by decide), rfl⟩, by decide, by decide⟩

/-- R65, R66, R17: the member is settled to 150 at the old rate, and takes the credit decision of the DRYING zone. -/
theorem test_change_reaches_its_member :
    ((changing.takeWaiting 5 (some 0)).slot 7).map (fun c => (c.exposure, c.settled, c.mode)) =
      some (12800, 150, .credit 9) := by
  decide +kernel

theorem witness_CompactionFreesTheTailSector_gives_way :
    erasing.jnc.failures = 0 ∧ erasing.jnc.queue ≠ [] ∧ erasing.jnc.headPos < 64 ∧ erasing.jnc.sectorOpen = true ∧
    ({ erasing with jnc := { erasing.jnc with port := { erasing.jnc.port with timedOut := true } } } : Part).jnc.port.timedOut
      = true := by
  decide

end Sys2Proof.Tests
end

/-! ## What an evaluation gives each kind of zone (O53: R53, R56, R60, R61, R62) -/

namespace Sys2Proof.Machine

/-! ### The order of the walk -/

/-- The order in which the walk meets cells: by row, and within a row by column. -/
def walksBefore (c d : Fin 6 × Fin 8) : Prop := c.1 < d.1 ∨ (c.1 = d.1 ∧ c.2 < d.2)

theorem mem_walkOrder {b : Fin 6 × Fin 8} {t : Fin 6} {h : Fin 8} :
    (t, h) ∈ walkOrder b ↔ b.1 ≤ t ∧ b.2 ≤ h := by
  simp [walkOrder]

theorem walkOrder_pairwise (b : Fin 6 × Fin 8) : (walkOrder b).Pairwise walksBefore := by
  have rows : ((List.finRange 6).filter fun t => decide (b.1 ≤ t)).Pairwise (· < ·) :=
    (List.pairwise_lt_finRange 6).filter _
  have columns : ((List.finRange 8).filter fun h => decide (b.2 ≤ h)).Pairwise (· < ·) :=
    (List.pairwise_lt_finRange 8).filter _
  refine List.pairwise_flatMap.2 ⟨fun t _ => ?_, rows.imp fun {t u} htu => ?_⟩
  · exact List.pairwise_map.2 (columns.imp fun hlt => .inr ⟨rfl, hlt⟩)
  · intro c hc d hd
    obtain ⟨_, _, rfl⟩ := List.mem_map.1 hc
    obtain ⟨_, _, rfl⟩ := List.mem_map.1 hd
    exact .inl htu

/-- R56: the walk takes an enabled cell within its reach when every cell it meets before is disabled. -/
theorem Znu.walk_eq_some {u : Znu} {b : Fin 6 × Fin 8} {t : Fin 6} {h : Fin 8} (on : (u.cell (t, h)).enabled = true)
    (ht : b.1 ≤ t) (hh : b.2 ≤ h)
    (before : ∀ t' h', b.1 ≤ t' → b.2 ≤ h' → walksBefore (t', h') (t, h) → (u.cell (t', h')).enabled = false) :
    u.walk b = some (t, h) := by
  obtain ⟨met, rest, split⟩ := List.append_of_mem (mem_walkOrder.2 ⟨ht, hh⟩)
  refine List.find?_eq_some_iff_append.2 ⟨on, met, rest, split, ?_⟩
  rintro ⟨t', h'⟩ hmet
  have reach : b.1 ≤ t' ∧ b.2 ≤ h' := mem_walkOrder.1 (split ▸ List.mem_append_left _ hmet)
  have ordered : walksBefore (t', h') (t, h) :=
    (List.pairwise_append.1 (split ▸ walkOrder_pairwise b)).2.2 _ hmet _ List.mem_cons_self
  simp [before t' h' reach.1 reach.2 ordered]

theorem Znu.walk_eq_none {u : Znu} {b : Fin 6 × Fin 8}
    (off : ∀ t h, b.1 ≤ t → b.2 ≤ h → (u.cell (t, h)).enabled = false) : u.walk b = none := by
  refine List.find?_eq_none.2 ?_
  rintro ⟨t, h⟩ hmem
  obtain ⟨ht, hh⟩ := mem_walkOrder.1 hmem
  simp [off t h ht hh]

theorem Znu.bandsOf_of_held_none {u : Znu} {r : Zone} (h : r.held = none) : u.bandsOf r = none := by
  unfold Znu.bandsOf
  rw [h]

/-! ### One equation for each kind and outcome -/

/-- The record as every evaluation leaves it before the kind decides: bands and basis afresh, no cell walked, no ceiling
used. -/
def Part.rebanded (p : Part) (r : Zone) : Zone :=
  { r with bands := p.znu.bandsOf r, basis := r.held.isSome, walked := none, ceilingUsed := false }

/-- The cell that a FLOOR or LINE zone's evaluation takes; none is the ceiling. -/
def Part.cellTaken (p : Part) (r : Zone) : Option (Fin 6 × Fin 8) :=
  if r.stale then none else (p.znu.bandsOf r).bind p.znu.walk

/-- R61: the inputs of a DRY zone let it dry. -/
def Zone.dries (r : Zone) : Prop :=
  ∃ v, r.held = some v ∧ v.rh ≤ r.config.dryThreshold ∧ r.doorOpen = false ∧ r.stale = false

theorem Zone.not_dries_iff {r : Zone} : ¬ r.dries ↔
    r.held = none ∨ (∃ v, r.held = some v ∧ r.config.dryThreshold < v.rh) ∨ r.doorOpen = true ∨ r.stale = true := by
  unfold Zone.dries
  cases r.held with
  | none => simp
  | some v =>
    simp only [Option.some.injEq, exists_eq_left', reduceCtorEq, false_or, not_and_or, Nat.not_le, Bool.not_eq_false]

theorem Part.cellTaken_of_stale_or_held_none {p : Part} {r : Zone} (h : r.stale = true ∨ r.held = none) :
    p.cellTaken r = none := by
  unfold Part.cellTaken
  obtain stale | absent := h
  · rw [if_pos stale]
  · rw [Znu.bandsOf_of_held_none absent, Option.bind_none, ite_self]

theorem Part.cellTaken_of_bands {p : Part} {r : Zone} {b : Fin 6 × Fin 8} (stale : r.stale = false)
    (hb : p.znu.bandsOf r = some b) : p.cellTaken r = p.znu.walk b := by
  simp [Part.cellTaken, stale, hb]

theorem Part.evaluated_unused {p : Part} {r : Zone} (hk : r.config.kind = .unused) :
    p.evaluated r = (p.rebanded r, none) := by
  simp only [Part.evaluated, hk, Part.rebanded]

theorem Part.evaluated_of_cellTaken {p : Part} {r : Zone} {c : Fin 6 × Fin 8}
    (hk : r.config.kind = .floor ∨ r.config.kind = .line) (hc : p.cellTaken r = some c) :
    p.evaluated r = ({ p.rebanded r with walked := some c }, some (.exposing (p.znu.cell c).mult)) := by
  unfold Part.cellTaken at hc
  obtain hk | hk := hk <;> simp only [Part.evaluated, hk, hc, Part.rebanded]

theorem Part.evaluated_of_no_cellTaken {p : Part} {r : Zone} (hk : r.config.kind = .floor ∨ r.config.kind = .line)
    (hc : p.cellTaken r = none) :
    p.evaluated r = ({ p.rebanded r with ceilingUsed := true }, some (.exposing p.znu.settings.ceiling)) := by
  unfold Part.cellTaken at hc
  obtain hk | hk := hk <;> simp only [Part.evaluated, hk, hc, Part.rebanded]

theorem Part.evaluated_of_dries {p : Part} {r : Zone} (hk : r.config.kind = .dry) (h : r.dries) :
    p.evaluated r = (p.rebanded r, some (.drying r.config.creditRate)) := by
  obtain ⟨v, held, dryEnough, shut, live⟩ := h
  simp [Part.evaluated, Part.rebanded, hk, held, dryEnough, shut, live]

/-- R61: each input that keeps a DRY zone from drying leaves the decision to its reference. -/
theorem Part.evaluated_of_not_dries {p : Part} {r : Zone} (hk : r.config.kind = .dry) (h : ¬ r.dries) :
    (∀ f, r.config.reference = some f →
      p.evaluated r = (p.rebanded r, some (.dryFailed (p.referenceRate f)))) ∧
    (r.config.reference = none →
      p.evaluated r = ({ p.rebanded r with ceilingUsed := true }, some (.dryFailed p.znu.settings.ceiling))) := by
  obtain absent | ⟨v, held, damp⟩ | ajar | stale := Zone.not_dries_iff.1 h
  · simp +contextual [Part.evaluated, Part.rebanded, hk, absent]
  · simp +contextual [Part.evaluated, Part.rebanded, hk, held, Nat.not_le.2 damp]
  · simp +contextual [Part.evaluated, Part.rebanded, hk, ajar]
  · simp +contextual [Part.evaluated, Part.rebanded, hk, stale]

theorem Part.evaluated_oven {p : Part} {r : Zone} (hk : r.config.kind = .oven) :
    p.evaluated r = (p.rebanded r, some (if r.held ≠ none ∧ r.doorOpen = false ∧ r.stale = false then .ovenReady
      else .ovenPaused)) := by
  have fit : (r.held.isSome && !r.doorOpen && !r.stale) = true ↔
      r.held ≠ none ∧ r.doorOpen = false ∧ r.stale = false := by
    simp [Option.isSome_iff_ne_none, and_assoc]
  simp only [Part.evaluated, hk, Part.rebanded, fit]

/-! ### The statement -/

/-- Settles O53: each clause reads off the equation of its kind; the walk's clauses turn on the cell it takes. -/
theorem evaluationDecidesTheCondition : Obligations.EvaluationDecidesTheCondition := by
  intro p r got own ceiling atCeiling
  have at_ceiling (hk : r.config.kind = .floor ∨ r.config.kind = .line) (hc : p.cellTaken r = none) : atCeiling := by
    simp [atCeiling, got, own, ceiling, Part.evaluated_of_no_cellTaken hk hc, Part.rebanded]
  refine ⟨fun hk => ?unused,
    fun hk => ⟨fun h => ?unread, fun b live _ hb => ⟨fun t h on ht hh before => ?walked, fun off => ?exhausted⟩⟩,
    fun hk => ⟨?bands, fun v held dryEnough shut live => ?drying, fun h => ?failed⟩,
    fun hk => ?oven⟩
  case unused => simp [got, Part.evaluated_unused hk]
  case unread => exact at_ceiling hk (Part.cellTaken_of_stale_or_held_none h)
  case walked =>
    have hc : p.cellTaken r = some (t, h) := by
      rw [Part.cellTaken_of_bands live hb]
      exact Znu.walk_eq_some on ht hh before
    simp [got, own, Part.evaluated_of_cellTaken hk hc, Part.rebanded]
  case exhausted =>
    refine at_ceiling hk ?_
    rw [Part.cellTaken_of_bands live hb]
    exact Znu.walk_eq_none off
  case bands =>
    by_cases h : r.dries
    · simp [own, Part.evaluated_of_dries hk h, Part.rebanded]
    · have failed := Part.evaluated_of_not_dries (p := p) hk h
      cases href : r.config.reference with
      | some f => simp [own, failed.1 f href, Part.rebanded]
      | none => simp [own, failed.2 href, Part.rebanded]
  case drying =>
    have h : r.dries := ⟨v, held, dryEnough, shut, live⟩
    simp [got, own, Part.evaluated_of_dries hk h, Part.rebanded]
  case failed =>
    obtain ⟨referenced, unreferenced⟩ := Part.evaluated_of_not_dries (p := p) hk (Zone.not_dries_iff.2 h)
    refine ⟨fun f href => ?_, fun href => ?_⟩
    · simp [got, own, referenced f href, Part.rebanded, Part.referenceRate]
    · simp [got, own, ceiling, unreferenced href, Part.rebanded]
  case oven =>
    have not_fit : ¬ (r.held ≠ none ∧ r.doorOpen = false ∧ r.stale = false) ↔
        r.held = none ∨ r.doorOpen = true ∨ r.stale = true := by
      simp only [not_and_or, not_not, Bool.not_eq_false]
    have decided : got = some (if r.held ≠ none ∧ r.doorOpen = false ∧ r.stale = false then .ovenReady
        else .ovenPaused) := congrArg Prod.snd (Part.evaluated_oven hk)
    rw [decided, ← not_fit]
    split <;> simp_all

end Sys2Proof.Machine

namespace Sys2Proof.Machine

/-! ## The applied time (R105): its clamps in order, its bounds, and when it counts as clamped -/

/-- The nested form of `appliedTime` taken apart: one `min` or `max` per clamp, the innermost applied first. -/
theorem appliedTime_eq_clamps_in_order (T now backdate settled oldZone newZone : Nat) :
    appliedTime T now backdate settled oldZone newZone =
      max (max (max (max (min now (if T = 0 then now else T)) (now - backdate)) settled) oldZone) newZone := by
  simp only [appliedTime, max_comm, min_comm]

theorem clamps_le_appliedTime (T now backdate settled oldZone newZone : Nat) :
    settled ≤ appliedTime T now backdate settled oldZone newZone ∧
      oldZone ≤ appliedTime T now backdate settled oldZone newZone ∧
      newZone ≤ appliedTime T now backdate settled oldZone newZone ∧
      now - backdate ≤ appliedTime T now backdate settled oldZone newZone := by
  simp [appliedTime]

theorem appliedTime_le_now_iff {T now backdate settled oldZone newZone : Nat} :
    appliedTime T now backdate settled oldZone newZone ≤ now ↔ settled ≤ now ∧ oldZone ≤ now ∧ newZone ≤ now := by
  simp only [appliedTime, max_le_iff, Nat.sub_le, min_le_right, and_true]
  tauto

theorem appliedTime_eq_now_of_no_backdate {T now settled oldZone newZone : Nat}
    (hs : settled ≤ now) (ho : oldZone ≤ now) (hn : newZone ≤ now) :
    appliedTime T now 0 settled oldZone newZone = now := by
  obtain ⟨-, -, -, now_le⟩ := clamps_le_appliedTime T now 0 settled oldZone newZone
  exact le_antisymm (appliedTime_le_now_iff.2 ⟨hs, ho, hn⟩) now_le

theorem wasClamped_iff {T now applied : Nat} :
    wasClamped T now applied = true ↔ applied ≠ if T = 0 then now else T := by
  simp only [wasClamped, bne_iff_ne]

/-- A subtraction that stops at 0, in the form R105 gives the backdate bound. -/
theorem backdateBound_eq_sub (now backdate : Nat) : (if now < backdate then 0 else now - backdate) = now - backdate := by
  split
  next before => exact (Nat.sub_eq_zero_of_le before.le).symm
  next => rfl

/-- Settles O35: R105's conditionals are the `min` and `max` of `appliedTime`; with no backdate the bound is now itself,
so the time can only be now. -/
theorem appliedTimeIsClamped : Obligations.AppliedTimeIsClamped := by
  intro T now backdate settled oldZone newZone t first future bound backdated fromSettle fromOld
  have bound_eq : bound = now - backdate := backdateBound_eq_sub now backdate
  obtain ⟨settled_le, oldZone_le, newZone_le, bound_le⟩ :=
    clamps_le_appliedTime T now backdate settled oldZone newZone
  refine ⟨?inOrder, settled_le, oldZone_le, newZone_le, bound_eq.trans_le bound_le, wasClamped_iff,
    fun hs ho hn => ⟨appliedTime_le_now_iff.2 ⟨hs, ho, hn⟩, ?noBackdate⟩⟩
  case inOrder =>
    simp only [fromOld, fromSettle, backdated, future, bound_eq, ← max_def_lt, ← min_def_lt]
    exact appliedTime_eq_clamps_in_order T now backdate settled oldZone newZone
  case noBackdate =>
    rintro rfl
    have applied_now : t = now := appliedTime_eq_now_of_no_backdate hs ho hn
    refine ⟨applied_now, fun given other => wasClamped_iff.2 ?_⟩
    rw [applied_now, if_neg given]
    exact other.symm

end Sys2Proof.Machine

/-! ## What every command keeps (O5 to O10): the laws, and which updates of the part keep them -/

namespace Sys2Proof.Machine

/-! ### The relations -/

/-- The laws about memory, the generation, the deadlines and the time pass from `p` to `q`. -/
structure Part.KeepsRest (p q : Part) : Prop where
  memories : p.memoriesCanonical → q.memoriesCanonical
  generation : p.generationEven → q.generationEven
  deadlines : p.deadlinesOrdered → q.deadlinesOrdered
  time : p.timeCounted → q.timeCounted

/-- So does the third law: what replay keeps before the drives are derived. -/
structure Part.KeepsIds (p q : Part) : Prop extends Part.KeepsRest p q where
  ids : p.idsUnique → q.idsUnique

/-- All six laws pass from `p` to `q`. -/
structure Part.KeepsLaws (p q : Part) : Prop extends Part.KeepsIds p q where
  holds : p.holdsDriven → q.holdsDriven

/-- No slot gains an ID. -/
def Part.idsWithin (p q : Part) : Prop := ∀ i c, q.slot i = some c → ∃ d, p.slot i = some d ∧ d.id = c.id

/-- All six laws pass from `p` to `q`, and no slot gains an ID: what every operation does that makes no container
live. -/
structure Part.Carries (p q : Part) : Prop extends Part.KeepsRest p q where
  within : p.idsWithin q
  holds : p.holdsDriven → q.holdsDriven

theorem Part.idsUnique_of_within {p q : Part} (h : p.idsWithin q) (hu : p.idsUnique) : q.idsUnique := by
  intro i j c d hc hd hid hne
  obtain ⟨c', hc', hcid⟩ := h i c hc
  obtain ⟨d', hd', hdid⟩ := h j d hd
  exact hu i j c' d' hc' hd' (hcid.trans (hid.trans hdid.symm)) (hcid ▸ hne)

theorem Part.Carries.keepsLaws {p q : Part} (h : p.Carries q) : p.KeepsLaws q :=
  { h.toKeepsRest with ids := Part.idsUnique_of_within h.within, holds := h.holds }

theorem Part.KeepsRest.trans {p q r : Part} (h : p.KeepsRest q) (k : q.KeepsRest r) : p.KeepsRest r :=
  ⟨k.memories ∘ h.memories, k.generation ∘ h.generation, k.deadlines ∘ h.deadlines, k.time ∘ h.time⟩

theorem Part.KeepsIds.trans {p q r : Part} (h : p.KeepsIds q) (k : q.KeepsIds r) : p.KeepsIds r :=
  ⟨h.toKeepsRest.trans k.toKeepsRest, k.ids ∘ h.ids⟩

theorem Part.KeepsLaws.trans {p q r : Part} (h : p.KeepsLaws q) (k : q.KeepsLaws r) : p.KeepsLaws r :=
  ⟨h.toKeepsIds.trans k.toKeepsIds, k.holds ∘ h.holds⟩

theorem Part.Carries.trans {p q r : Part} (h : p.Carries q) (k : q.Carries r) : p.Carries r := by
  refine ⟨h.toKeepsRest.trans k.toKeepsRest, fun i c hc => ?_, k.holds ∘ h.holds⟩
  obtain ⟨d, hd, hdc⟩ := k.within i c hc
  obtain ⟨e, he, hed⟩ := h.within i d hd
  exact ⟨e, he, hed.trans hdc⟩

theorem Part.Carries.refl (p : Part) : p.Carries p :=
  ⟨⟨id, id, id, id⟩, fun _ c hc => ⟨c, hc, rfl⟩, id⟩

theorem Part.KeepsLaws.refl (p : Part) : p.KeepsLaws p := (Part.Carries.refl p).keepsLaws

theorem Part.KeepsIds.refl (p : Part) : p.KeepsIds p := (Part.KeepsLaws.refl p).toKeepsIds

theorem Part.carries_foldl {α : Type} {f : Part → α → Part} (h : ∀ (p : Part) (a : α), p.Carries (f p a))
    (xs : List α) (p : Part) :
    p.Carries (xs.foldl f p) := by
  induction xs generalizing p with
  | nil => exact .refl p
  | cons x xs ih => exact (h p x).trans (ih _)

theorem Part.keepsIds_foldl {α : Type} {f : Part → α → Part} (h : ∀ (p : Part) (a : α), p.KeepsIds (f p a))
    (xs : List α)
    (p : Part) : p.KeepsIds (xs.foldl f p) := by
  induction xs generalizing p with
  | nil => exact .refl p
  | cons x xs ih => exact (h p x).trans (ih _)

/-! ### Updates of one block -/

/-- What the laws read of a part, the drives apart. -/
def Part.read (p : Part) : Memory × Memory × Vector (Option Container) 2048 × Word32 × List Due × Nat :=
  (p.host, p.flash.cells, p.ctu.slots, p.exi.generation, p.dlu.entries, p.tbu.counter)

/-- What the law of the drives reads of a part. -/
def Part.drives (p : Part) : Vector LineHold 8 × Vector Zone 64 := (p.dou.holds, p.znu.zones)

/-- An update that leaves all but the drives. -/
theorem Part.carries_of_read {p q : Part} (h : q.read = p.read) (holds : p.holdsDriven → q.holdsDriven) :
    p.Carries q := by
  simp only [Part.read, Prod.mk.injEq] at h
  obtain ⟨host, flash, slots, generation, entries, counter⟩ := h
  exact {
    memories := by simp [Part.memoriesCanonical, host, flash]
    generation := by simp [Part.generationEven, generation]
    deadlines := by simp [Part.deadlinesOrdered, entries]
    time := by simp [Part.timeCounted, counter]
    within := fun i c hc => ⟨c, by simpa [Part.slot, slots] using hc, rfl⟩
    holds := holds }

/-- An update that leaves all that the laws read. -/
theorem Part.carries_of_same {p q : Part} (h : (q.read, q.drives) = (p.read, p.drives)) : p.Carries q := by
  simp only [Prod.mk.injEq, Part.drives] at h
  obtain ⟨read, holds, zones⟩ := h
  exact Part.carries_of_read read (by simp [Part.holdsDriven, Part.lineHold, Part.zone, holds, zones])

theorem Part.carries_onJnc (f : Jnc → Jnc) (p : Part) : p.Carries (p.onJnc f) := Part.carries_of_same rfl

theorem Part.carries_onPort (f : FlashPort → FlashPort) (p : Part) : p.Carries (p.onPort f) := Part.carries_of_same rfl

theorem Part.carries_setLine (n : Fin 16) (r : DoorLine) (p : Part) : p.Carries (p.setLine n r) :=
    Part.carries_of_same rfl

theorem Part.carries_setDoor (z : Fin 64) (r : DoorRecord) (p : Part) : p.Carries (p.setDoor z r) :=
  Part.carries_of_same rfl

theorem Part.carries_setLamp (n : Fin 8) (r : Lamp) (p : Part) : p.Carries (p.setLamp n r) := Part.carries_of_same rfl

theorem Part.carries_setCls (n : Fin 16) (c : ClassRecord) (p : Part) : p.Carries (p.setCls n c) :=
  Part.carries_of_same rfl

theorem Part.carries_setProbe (n : Fin 32) (r : Probe) (p : Part) : p.Carries (p.setProbe n r) :=
    Part.carries_of_same rfl

theorem Part.carries_setGroup (n : Fin 4) (r : PowerGroup) (p : Part) : p.Carries (p.setGroup n r) :=
  Part.carries_of_same rfl

theorem Part.carries_setBus (b : Bus) (r : ProbeBus) (p : Part) : p.Carries (p.setBus b r) := by
  cases b <;> exact Part.carries_of_same rfl

theorem Part.carries_setInHand (d : Option InHand) (p : Part) : p.Carries (p.setInHand d) := Part.carries_of_same rfl

theorem Part.carries_postHeader (p : Part) : p.Carries p.postHeader := Part.carries_of_same rfl

theorem Part.carries_postZone (z : Fin 64) (p : Part) : p.Carries (p.postZone z) := Part.carries_of_same rfl

theorem Part.carries_postSlot (i : Fin 2048) (p : Part) : p.Carries (p.postSlot i) := Part.carries_of_same rfl

theorem Part.carries_postAll (p : Part) : p.Carries p.postAll := Part.carries_of_same rfl

theorem Part.carries_onList (f : ListRecord → ListRecord) (p : Part) : p.Carries (p.onList f) :=
    Part.carries_of_same rfl

theorem Part.carries_raise (c : IrqCause) (p : Part) : p.Carries (p.raise c) := by
  rw [Part.raise_eq]
  exact Part.carries_of_same rfl

theorem Part.carries_hostWrite (a : HostAddr) (bs : List Byte) (p : Part) : p.Carries (p.hostWrite a bs) where
  memories h := ⟨Memory.write_wf h.1 _ _, h.2⟩
  generation := id
  deadlines := id
  time := id
  within _ c hc := ⟨c, hc, rfl⟩
  holds := id

theorem Part.carries_hostStores (stores : Stores) (p : Part) : p.Carries (p.hostStores stores) := by
  unfold Part.hostStores
  exact Part.carries_foldl (fun p w => p.carries_hostWrite _ _) stores p

theorem Part.carries_flash {p : Part} {f : Flash}
    (h : p.flash.cells.wf flashBlank = true → f.cells.wf flashBlank = true) : p.Carries { p with flash := f } where
  memories m := ⟨m.1, h m.2⟩
  generation := id
  deadlines := id
  time := id
  within _ c hc := ⟨c, hc, rfl⟩
  holds := id

theorem Part.carries_onDlu {f : Dlu → Dlu} {p : Part}
    (h : dueOrdered p.dlu.entries → dueOrdered (f p.dlu).entries) : p.Carries (p.onDlu f) where
  memories := id
  generation := id
  deadlines := h
  time := id
  within _ c hc := ⟨c, hc, rfl⟩
  holds := id

theorem Part.carries_setSlot {i : Fin 2048} {c old : Container} {p : Part} (hs : p.slot i = some old)
    (hid : c.id = old.id) : p.Carries (p.setSlot i (some c)) where
  memories := id
  generation := id
  deadlines := id
  time := id
  within j d hd := by
    rw [Part.slot_setSlot] at hd
    split at hd
    next h => exact ⟨old, h ▸ hs, by rw [← hid, Option.some.inj hd]⟩
    next => exact ⟨d, hd, rfl⟩
  holds := id

theorem Part.carries_setSlot_none (i : Fin 2048) (p : Part) : p.Carries (p.setSlot i none) where
  memories := id
  generation := id
  deadlines := id
  time := id
  within j d hd := by
    rw [Part.slot_setSlot] at hd
    split at hd
    · cases hd
    · exact ⟨d, hd, rfl⟩
  holds := id

/-- A container with an ID that no live slot holds may be entered. -/
theorem Part.keepsLaws_setSlot_fresh {i : Fin 2048} {c : Container} {p : Part}
    (fresh : ∀ j, j ≠ i → c.id ≠ 0 → ¬ p.holdsId j c.id) : p.KeepsLaws (p.setSlot i (some c)) where
  memories := id
  generation := id
  deadlines := id
  time := id
  ids hu j k d e hd he hde hne := by
    rw [Part.slot_setSlot] at hd he
    split at hd <;> split at he
    next hj hk => exact hj.symm.trans hk
    next hj hk =>
      obtain rfl := Option.some.inj hd
      exact absurd ⟨e, he, hde.symm⟩ (fresh k (Ne.symm hk) hne)
    next hj hk =>
      obtain rfl := Option.some.inj he
      exact absurd ⟨d, hd, hde⟩ (fresh j (Ne.symm hj) (hde ▸ hne))
    next => exact hu j k d e hd he hde hne
  holds := id

/-! ### Drives (R97) -/

/-- Output `n` has the drive of its override and its zone's blocking count. -/
def Part.driven (p : Part) (n : Fin 8) : Prop :=
  (p.lineHold n).asserted = holdDrive (p.lineHold n).override ((p.lineHold n).zone.map fun z => (p.zone z).blocking)

/-- Two parts differ in the Door and Output Unit alone. -/
def Part.SameButDou (p q : Part) : Prop := q = { p with dou := q.dou }

theorem Part.sameButDou_foldl {α : Type} {f : Part → α → Part} (h : ∀ (p : Part) (a : α), p.SameButDou (f p a))
    (xs : List α)
    (p : Part) : p.SameButDou (xs.foldl f p) := by
  induction xs generalizing p with
  | nil => rfl
  | cons x xs ih =>
    have hx := h p x
    have hxs := ih (f p x)
    unfold Part.SameButDou at hx hxs ⊢
    rw [List.foldl_cons, hxs, hx]

theorem Part.SameButDou.carries {p q : Part} (h : p.SameButDou q) (holds : p.holdsDriven → q.holdsDriven) :
    p.Carries q := by
  unfold Part.SameButDou at h
  rw [h] at holds ⊢
  exact Part.carries_of_read rfl holds

theorem Part.SameButDou.trans {p q r : Part} (h : p.SameButDou q) (k : q.SameButDou r) : p.SameButDou r := by
  unfold Part.SameButDou at h k ⊢
  rw [k, h]

theorem Part.sameButDou_deriveHold (n : Fin 8) (p : Part) : p.SameButDou (p.deriveHold n) := rfl

theorem Part.deriveLamp_spec (n : Fin 8) (p : Part) : ∃ lamps,
    p.deriveLamp n = { p with dou := { p.dou with lamps := lamps } } := by
  unfold Part.deriveLamp
  dsimp only
  split
  · exact ⟨_, rfl⟩
  · split
    · exact ⟨_, rfl⟩
    · exact ⟨_, rfl⟩

theorem Part.carries_deriveLamp (n : Fin 8) (p : Part) : p.Carries (p.deriveLamp n) := by
  obtain ⟨lamps, h⟩ := p.deriveLamp_spec n
  rw [h]
  exact Part.carries_of_same rfl

theorem Part.sameButDou_deriveLamp (n : Fin 8) (p : Part) : p.SameButDou (p.deriveLamp n) := by
  obtain ⟨lamps, h⟩ := p.deriveLamp_spec n
  rw [h]
  rfl

theorem Part.driven_deriveLamp {n m : Fin 8} {p : Part} : (p.deriveLamp m).driven n ↔ p.driven n := by
  obtain ⟨lamps, h⟩ := p.deriveLamp_spec m
  rw [h]
  exact Iff.rfl

theorem Part.driven_deriveHold {n m : Fin 8} {p : Part} : (p.deriveHold m).driven n ↔ n = m ∨ p.driven n := by
  unfold Part.driven Part.deriveHold
  by_cases h : m = n
  · subst h
    simp [Part.zone_setLineHold]
  · simp [Part.lineHold_setLineHold, h, Ne.symm h, Part.zone_setLineHold]

theorem Part.driven_foldl_deriveLamp {n : Fin 8} (xs : List (Fin 8)) {p : Part} :
    (xs.foldl (fun p m => p.deriveLamp m) p).driven n ↔ p.driven n := by
  induction xs generalizing p with
  | nil => rfl
  | cons x xs ih => rw [List.foldl_cons, ih, Part.driven_deriveLamp]

theorem Part.driven_foldl_deriveHold {n : Fin 8} (xs : List (Fin 8)) {p : Part} :
    (xs.foldl (fun p m => p.deriveHold m) p).driven n ↔ n ∈ xs ∨ p.driven n := by
  induction xs generalizing p with
  | nil => simp
  | cons x xs ih => rw [List.foldl_cons, ih, Part.driven_deriveHold, List.mem_cons]; tauto

theorem Part.carries_deriveHold (n : Fin 8) (p : Part) : p.Carries (p.deriveHold n) :=
  (p.sameButDou_deriveHold n).carries fun h m => Part.driven_deriveHold.2 (.inr (h m))

theorem Part.sameButDou_reportCounts (z : Fin 64) (p : Part) : p.SameButDou (p.reportCounts z) :=
  (Part.sameButDou_foldl (fun p n => p.sameButDou_deriveHold n) _ p).trans
    (Part.sameButDou_foldl (fun p n => p.sameButDou_deriveLamp n) _ _)

/-- A report of a zone's counts derives every output bound to the zone. -/
theorem Part.driven_reportCounts {z : Fin 64} {n : Fin 8} {p : Part} :
    (p.reportCounts z).driven n ↔ (p.lineHold n).zone = some z ∨ p.driven n := by
  unfold Part.reportCounts
  rw [Part.driven_foldl_deriveLamp, Part.driven_foldl_deriveHold]
  simp [allFin]

/-- A zone record that keeps the blocking count keeps the drives. -/
theorem Part.carries_putZone {z : Fin 64} {r : Zone} {p : Part} (h : r.blocking = (p.zone z).blocking) :
    p.Carries (p.putZone z r) := by
  have blocking (y : Fin 64) : ((p.putZone z r).zone y).blocking = (p.zone y).blocking := by
    rw [Part.zone_putZone]
    split
    next heq => rw [← heq, h]
    next => rfl
  exact Part.carries_of_read rfl fun hd n => by
    simp only [blocking, Part.lineHold_putZone]
    exact hd n

theorem Part.carries_setZone {z : Fin 64} {r : Zone} {p : Part} (h : r.blocking = (p.zone z).blocking) :
    p.Carries (p.setZone z r) := by
  unfold Part.setZone
  dsimp only
  split
  · exact Part.carries_putZone h
  · exact (Part.carries_putZone h).trans (Part.carries_postZone z _)

theorem Part.setZone_spec (z : Fin 64) (r : Zone) (p : Part) :
    ∃ marks, p.setZone z r = { p.putZone z r with exi := { p.exi with zoneMarks := marks } } := by
  unfold Part.setZone
  dsimp only
  split
  · exact ⟨_, rfl⟩
  · exact ⟨_, rfl⟩

/-- New counts for a zone, reported at once, keep the drives. -/
theorem Part.carries_setZone_reportCounts (z : Fin 64) (r : Zone) (p : Part) :
    p.Carries ((p.setZone z r).reportCounts z) := by
  have holds (h : p.holdsDriven) : ((p.setZone z r).reportCounts z).holdsDriven := by
    intro n
    refine Part.driven_reportCounts.2 (or_iff_not_imp_left.2 fun hn => ?_)
    obtain ⟨marks, hz⟩ := p.setZone_spec z r
    rw [hz] at hn ⊢
    have other (y : Fin 64) (hy : (p.lineHold n).zone = some y) : (p.putZone z r).zone y = p.zone y := by
      rw [Part.zone_putZone, if_neg]
      rintro rfl
      exact hn hy
    have hp := h n
    show (p.lineHold n).asserted =
      holdDrive (p.lineHold n).override ((p.lineHold n).zone.map fun y => ((p.putZone z r).zone y).blocking)
    rw [hp]
    cases hb : (p.lineHold n).zone with
    | none => rfl
    | some y => simp [other y hb]
  obtain ⟨marks, hz⟩ := p.setZone_spec z r
  have hr := (p.setZone z r).sameButDou_reportCounts z
  unfold Part.SameButDou at hr
  rw [hr] at holds ⊢
  rw [hz] at holds ⊢
  exact Part.carries_of_read rfl holds

theorem Part.carries_moveCounts (z : Fin 64) (a b c d : Bool) (p : Part) : p.Carries (p.moveCounts z a b c d) := by
  unfold Part.moveCounts
  split
  · exact .refl p
  · exact Part.carries_setZone_reportCounts z _ p

theorem Part.holdsDriven_of_reset {p : Part} {d : Dou} (h : d.holds = Dou.reset.holds) :
    ({ p with dou := d } : Part).holdsDriven := by
  intro n
  have reset : ({ p with dou := d } : Part).lineHold n = LineHold.reset := by
    simp [Part.lineHold, h, Dou.reset]
  rw [reset]
  rfl

end Sys2Proof.Machine

namespace Sys2Proof.Machine

/-! ### Causes, the docket in hand, power-on and FORMAT -/

theorem Part.carries_ite {c : Prop} [Decidable c] {p q r : Part} (hq : p.Carries q) (hr : p.Carries r) :
    p.Carries (if c then q else r) := by
  split
  · exact hq
  · exact hr

theorem Part.carries_handRise (p : Part) : p.Carries p.handRise := by
  unfold Part.handRise
  split
  · exact Part.carries_of_same rfl
  · exact p.carries_raise .alert

theorem Part.carries_setEngine (e : EngineState) (p : Part) : p.Carries (p.setEngine e) := by
  unfold Part.setEngine
  split
  · exact .refl p
  · exact Part.Carries.trans (Part.carries_of_same (by rfl)) (Part.carries_raise .engine _)

theorem Part.carries_enterAccessFault (p : Part) : p.Carries p.enterAccessFault := Part.carries_of_same rfl

theorem Part.carries_accessFailed (p : Part) : p.Carries p.accessFailed := by
  refine (p.carries_raise .access).trans ?_
  unfold Part.accessFailed
  dsimp only
  split
  · split
    · exact Part.carries_of_same rfl
    · exact Part.carries_enterAccessFault _
  · exact .refl _

theorem Part.carries_finishDocket (a : Answer) (p : Part) : p.Carries (p.finishDocket a) := by
  unfold Part.finishDocket
  split
  · exact p.carries_setInHand _
  · exact .refl p

theorem Part.carries_refuseDocket (r : ResultCode) (p : Part) : p.Carries (p.refuseDocket r) :=
  p.carries_finishDocket _

theorem Part.carries_workDocket (p : Part) : p.Carries p.workDocket := by
  unfold Part.workDocket
  split
  · exact p.carries_setInHand _
  · exact .refl p

/-- The tables, the deadlines and the outputs at their first values. -/
theorem Part.carries_of_reset {p q : Part}
    (tables : q.ctu.slots = Ctu.reset.slots ∧ q.dou.holds = Dou.reset.holds ∧ q.dlu.entries = [])
    (memories : q.host = p.host ∧ q.flash.cells = p.flash.cells) (generation : p.generationEven → q.generationEven)
    (time : q.tbu.counter = p.tbu.counter) : p.Carries q := by
  obtain ⟨slots, holds, entries⟩ := tables
  obtain ⟨host, flash⟩ := memories
  exact {
    memories := by simp [Part.memoriesCanonical, host, flash]
    generation := generation
    deadlines := by simp [Part.deadlinesOrdered, entries]
    time := by simp [Part.timeCounted, time]
    within := fun i c hc => by simp [Part.slot, slots, Ctu.reset] at hc
    holds := fun _ => Part.holdsDriven_of_reset (p := q) (d := q.dou) holds }

theorem Part.carries_powerOn (p : Part) : p.Carries p.powerOn :=
  Part.carries_of_reset ⟨rfl, rfl, rfl⟩ ⟨rfl, rfl⟩
    (fun _ => by simp [Part.generationEven, Part.powerOn, Exi.reset]) rfl

theorem Part.carries_formatTables (p : Part) : p.Carries p.formatTables :=
  Part.carries_of_reset ⟨rfl, rfl, rfl⟩ ⟨rfl, rfl⟩ id rfl

theorem Part.carries_switchOnSteady (p : Part) : p.Carries p.switchOnSteady := by
  unfold Part.switchOnSteady
  refine Part.carries_foldl (fun p g => ?_) _ p
  dsimp only
  split
  · exact .refl p
  · exact p.carries_setGroup _ _

theorem Part.carries_formatDone (serial : Nat) (p : Part) : p.Carries (p.formatDone serial) := by
  unfold Part.formatDone
  refine .trans ?_ (Part.carries_finishDocket _ _)
  refine .trans ?_ (Part.carries_postAll _)
  refine .trans ?_ (Part.carries_setEngine _ _)
  refine .trans ?_ (Part.carries_switchOnSteady _)
  exact .trans (Part.carries_of_same (by rfl)) (Part.carries_formatTables _)

theorem Part.carries_formatFailed (p : Part) : p.Carries p.formatFailed := by
  unfold Part.formatFailed
  refine .trans ?_ (Part.carries_refuseDocket _ _)
  refine .trans ?_ (Part.carries_postAll _)
  refine .trans ?_ (Part.carries_setEngine _ _)
  exact .trans (Part.carries_of_same (by rfl)) (Part.carries_formatTables _)

/-! ### Staging and the port -/

theorem Part.carries_setDirty (i : Fin 2048) (b : Bool) {c : Container} {p : Part} (h : p.slot i = some c) :
    p.Carries (p.setSlot i (some { c with dirty := b })) := Part.carries_setSlot h rfl

theorem Part.carries_clearMark (pl : Payload) (p : Part) : p.Carries (p.clearMark pl) := by
  unfold Part.clearMark
  split
  · split
    · split
      · exact Part.carries_setDirty _ _ ‹_›
      · exact .refl p
    · exact Part.carries_putZone rfl
    · exact .refl p
  · exact .refl p

theorem Part.carries_enqueue (owner : StagedBy) (pls : List Payload) (p : Part) : p.Carries (p.enqueue owner pls) := by
  unfold Part.enqueue
  exact Part.carries_foldl (fun p pl => (p.carries_clearMark pl).trans (Part.carries_onJnc _ _)) pls p

theorem Part.carries_markDirty (pl : Payload) (p : Part) : p.Carries (p.markDirty pl) := by
  unfold Part.markDirty
  dsimp only
  split
  · refine .trans (Part.carries_putZone (by rfl)) (Part.carries_foldl (fun p i => ?_) _ _)
    split
    · exact Part.carries_setDirty _ _ ‹_›
    · exact .refl p
  · exact Part.carries_putZone rfl
  · split
    · exact Part.carries_setDirty _ _ ‹_›
    · exact .refl p
  · exact .refl p

theorem Part.carries_dropEntry (pl : Payload) (p : Part) : p.Carries (p.dropEntry pl) := by
  unfold Part.dropEntry
  dsimp only
  split
  · exact (Part.carries_onJnc _ p).trans (Part.carries_markDirty pl _)
  · exact ((Part.carries_onJnc _ p).trans (Part.carries_markDirty pl _)).trans (Part.carries_of_same (by rfl))

theorem Part.carries_startJob (job : FlashJob) (p : Part) : p.Carries (p.startJob job) := p.carries_onPort _

theorem Part.carries_resumeErase (e : ErasePurpose) (p : Part) : p.Carries (p.resumeErase e) := p.carries_onPort _

theorem Part.carries_serveCommit (p : Part) : p.Carries p.serveCommit := by
  obtain ⟨j, h, -⟩ := p.serveCommit_spec
  rw [h]
  exact Part.carries_of_same rfl

theorem Part.carries_stopStaging (p : Part) : p.Carries p.stopStaging := by
  obtain ⟨j, h, -⟩ := p.stopStaging_spec
  rw [h]
  exact Part.carries_of_same rfl

theorem Part.carries_arbitrateFormat (f : FormatRecord) (p : Part) : p.Carries (p.arbitrateFormat f) := by
  obtain ⟨j, h, -⟩ := p.arbitrateFormat_spec f
  rw [h]
  exact Part.carries_of_same rfl

theorem Part.carries_closingMark (p : Part) : p.Carries p.closingMark := by
  unfold Part.closingMark
  split
  · split
    · dsimp only
      split
      · exact (p.carries_onJnc _).trans (Part.carries_enqueue _ _ _)
      · exact p.carries_onJnc _
    · exact .refl p
  · exact .refl p

theorem Part.carries_arbitrate (p : Part) : p.Carries p.arbitrate := by
  unfold Part.arbitrate
  split
  · exact p.carries_serveCommit
  · split
    · split
      · exact p.carries_resumeErase _
      · split
        · exact p.carries_resumeErase _
        · exact .refl p
    · split
      · split
        · exact p.carries_powerOn
        · exact .refl p
      · exact .refl p

theorem Part.carries_pump (p : Part) : p.Carries p.pump := by
  refine (p.carries_closingMark.trans (Part.carries_stopStaging _)).trans ?_
  unfold Part.pump
  dsimp only
  split
  · exact .refl _
  · split
    · exact Part.carries_arbitrateFormat _ _
    · split
      · exact .refl _
      · exact Part.carries_arbitrate _

theorem Part.carries_offerDocket (o : Offer) (p : Part) : p.Carries (p.offerDocket o) := by
  unfold Part.offerDocket
  split
  · exact .refl p
  · dsimp only
    split
    · exact (p.carries_enqueue _ _).trans (Part.carries_pump _)
    · exact p.carries_onJnc _

theorem Part.carries_offerInternal (pl : Payload) (p : Part) : p.Carries (p.offerInternal pl) := by
  unfold Part.offerInternal
  split
  · exact .refl p
  · split
    · exact (p.carries_enqueue _ _).trans (Part.carries_pump _)
    · exact p.carries_dropEntry pl

theorem Part.carries_imageInternal (i : Fin 2048) (p : Part) : p.Carries (p.imageInternal i) := by
  unfold Part.imageInternal
  split
  · exact p.carries_offerInternal _
  · exact .refl p

theorem Part.carries_imageIf (i : Fin 2048) (b : Bool) {p : Part} : p.Carries (Part.imageIf i (p, b)) := by
  unfold Part.imageIf
  split
  · exact p.carries_imageInternal i
  · exact .refl _

theorem Part.carries_resumeWaiting (p : Part) : p.Carries p.resumeWaiting := by
  unfold Part.resumeWaiting
  split
  · dsimp only
    split
    · exact ((p.carries_onJnc _).trans (Part.carries_enqueue _ _ _)).trans (Part.carries_pump _)
    · exact .refl p
  · exact .refl p

theorem Part.carries_closeStaging (recover : Bool) (p : Part) : p.Carries (p.closeStaging recover) := by
  unfold Part.closeStaging
  refine .trans (Part.carries_foldl (fun p o => ?_) _ p) (Part.carries_onJnc _ _)
  dsimp only
  split
  · exact p.carries_enqueue _ _
  · exact .refl p

theorem Part.carries_markDurable (p : Part) : p.Carries p.markDurable := by
  obtain ⟨f, h, -⟩ := p.markDurable_spec
  rw [h]
  exact p.carries_setInHand f

theorem Part.carries_failJournal (p : Part) : p.Carries p.failJournal := by
  have failed := (p.carries_markDurable.trans (Part.carries_onJnc (fun j =>
    { j with journal := .failed, queue := [], waiting := [], compaction := .idle, port := .reset }) _)).trans
    (Part.carries_postHeader _)
  refine (failed.trans (Part.carries_raise .engine _)).trans ?_
  unfold Part.failJournal
  dsimp only
  split
  · split
    · exact Part.carries_pump _
    · split
      · split
        · exact (Part.carries_formatFailed _).trans (Part.carries_powerOn _)
        · exact Part.carries_formatFailed _
      · exact Part.carries_formatFailed _
  · split
    · split
      · exact Part.carries_powerOn _
      · exact .refl _
    · exact .refl _

theorem Part.carries_countFailure {retry : Part → Part} (h : ∀ p : Part, p.Carries (retry p)) (p : Part) :
    p.Carries (p.countFailure retry) := by
  unfold Part.countFailure
  split
  · exact (p.carries_onJnc _).trans (Part.carries_failJournal _)
  · exact (p.carries_onJnc _).trans (h _)

theorem Part.carries_commitEntry (p : Part) : p.Carries p.commitEntry := by
  unfold Part.commitEntry
  split
  · exact .refl p
  next e rest _ =>
    dsimp only
    generalize hq : p.onJnc _ = q
    refine (hq ▸ p.carries_onJnc _ : p.Carries q).trans ?_
    split
    · exact Part.carries_ite ((Part.carries_onJnc _ _).trans (Part.carries_postHeader _)) (.refl _)
    · exact .refl _

theorem Part.carries_openSector (p : Part) : p.Carries p.openSector := by
  unfold Part.openSector
  dsimp only
  split
  · exact p.carries_onJnc _
  · exact (p.carries_onJnc _).trans (Part.carries_postHeader _)

theorem Part.carries_freePort (p : Part) : p.Carries p.freePort := p.carries_onPort _

theorem Part.carries_programDone (step : ProgramStep) (p : Part) : p.Carries (p.programDone step) := by
  refine ((p.carries_onJnc fun j => { j with failures := 0 }).trans (Part.carries_freePort _)).trans ?_
  unfold Part.programDone
  dsimp only
  split
  · exact Part.carries_startJob _ _
  · exact (Part.carries_commitEntry _).trans (Part.carries_pump _)
  · exact Part.carries_startJob _ _
  · exact (Part.carries_openSector _).trans (Part.carries_pump _)
  · exact Part.carries_startJob _ _
  · split
    · exact (Part.carries_formatDone _ _).trans (Part.carries_pump _)
    · exact .refl _

theorem Part.carries_sectorSpent (p : Part) : p.Carries p.sectorSpent := by
  unfold Part.sectorSpent
  split
  · exact (p.carries_onJnc _).trans (Part.carries_postHeader _)
  · exact .refl p

theorem Part.carries_programAgain (step : ProgramStep) (p : Part) : p.Carries (p.programAgain step) := by
  refine p.carries_freePort.trans ?_
  unfold Part.programAgain
  dsimp only
  split
  · exact Part.carries_startJob _ _
  · exact Part.carries_startJob _ _
  · exact ((Part.carries_onJnc _ _).trans (Part.carries_sectorSpent _)).trans (Part.carries_pump _)

theorem Part.carries_applyProgram (step : ProgramStep) (reply : ProgramReply) (p : Part) :
    p.Carries (p.applyProgram step reply).1 := by
  cases reply with
  | done => exact Part.carries_flash fun h => Flash.program_wf h _ _
  | latchClear => exact .refl p
  | altered bytes => exact Part.carries_flash fun h => Flash.program_wf h _ _

theorem Part.carries_programComplete (reply : ProgramReply) (p : Part) : p.Carries (p.programComplete reply) := by
  unfold Part.programComplete
  split
  next step _ =>
    refine (p.carries_applyProgram step reply).trans ?_
    dsimp only
    split
    · exact Part.carries_programAgain _ _
    · split
      · exact Part.carries_programDone _ _
      · exact Part.carries_countFailure (Part.carries_programAgain _) _
  next => exact .refl p

theorem Part.carries_eraseDone (e : ErasePurpose) (p : Part) : p.Carries (p.eraseDone e) := by
  refine ((p.carries_onJnc fun j => { j with failures := 0, notErased := j.notErased.filter (· != e.sector) }).trans
    (Part.carries_freePort _)).trans ?_
  unfold Part.eraseDone
  dsimp only
  split
  · exact Part.carries_pump _
  · exact ((Part.carries_onJnc _ _).trans (Part.carries_postHeader _)).trans (Part.carries_pump _)
  · split
    · exact Part.carries_startJob _ _
    · exact (Part.carries_onJnc _ _).trans (Part.carries_startJob _ _)

theorem Part.carries_eraseAgain (e : ErasePurpose) (p : Part) : p.Carries (p.eraseAgain e) := by
  unfold Part.eraseAgain
  split
  · split
    · exact ((p.carries_onJnc _).trans (Part.carries_freePort _)).trans (Part.carries_pump _)
    · exact p.carries_startJob _
  · exact p.carries_startJob _

theorem Part.carries_eraseComplete (reply : EraseReply) (p : Part) : p.Carries (p.eraseComplete reply) := by
  unfold Part.eraseComplete
  split
  next e _ =>
    dsimp only
    split
    · split
      · exact .refl p
      · exact Part.carries_countFailure (Part.carries_eraseAgain e) p
    · refine .trans (Part.carries_flash fun h => Flash.eraseSector_wf h e.sector) ?_
      split
      · exact Part.carries_eraseAgain e _
      · exact Part.carries_eraseDone e _
  next => exact .refl p

theorem Part.carries_suspendErase (p : Part) : p.Carries p.suspendErase := by
  unfold Part.suspendErase
  split
  · split
    · exact (p.carries_onPort _).trans (Part.carries_pump _)
    · exact .refl p
  · exact .refl p

theorem Part.carries_flashTimeout (op : TimedFlashOp) (p : Part) : p.Carries (p.flashTimeout op) := by
  unfold Part.flashTimeout
  split
  · exact .refl p
  · dsimp only
    split
    · exact Part.carries_countFailure (fun p => p.carries_onPort _) p
    · exact Part.carries_countFailure (fun p => p.carries_onPort _) p
    · split
      · exact Part.carries_countFailure (fun p => p.carries_onPort _) p
      · exact .refl p
    · exact .refl p

theorem Part.carries_busyOutlasts (p : Part) : p.Carries p.busyOutlasts := by
  unfold Part.busyOutlasts
  split
  · exact p.carries_failJournal
  · exact .refl p

theorem Part.carries_stageObjects (todo : List JournalObject) (mark : Option Nat) (p : Part) :
    p.Carries (Part.stageObjects todo mark p) := by
  induction todo generalizing p with
  | nil =>
    unfold Part.stageObjects
    split
    · split
      · exact (p.carries_enqueue _ _).trans (Part.carries_onJnc _ _)
      · exact p.carries_onJnc _
    · exact p.carries_onJnc _
  | cons o rest ih =>
    unfold Part.stageObjects
    split
    · exact (p.carries_enqueue _ _).trans (ih _)
    · exact p.carries_onJnc _

theorem Part.carries_compactionImages (p : Part) : p.Carries p.compactionImages := by
  unfold Part.compactionImages
  split
  · exact .refl p
  · split
    · split
      · exact (Part.carries_stageObjects _ _ p).trans (Part.carries_pump _)
      · exact .refl p
    · exact (Part.carries_stageObjects _ _ p).trans (Part.carries_pump _)
    · exact .refl p

theorem Part.carries_compactionTimeMark (p : Part) : p.Carries p.compactionTimeMark := by
  unfold Part.compactionTimeMark
  split
  · exact ((p.carries_enqueue _ _).trans (Part.carries_onJnc _ _)).trans (Part.carries_pump _)
  · exact .refl p

theorem Part.carries_compactionErase (p : Part) : p.Carries p.compactionErase := by
  unfold Part.compactionErase
  split
  · exact (p.carries_onJnc _).trans (Part.carries_startJob _ _)
  · exact .refl p

/-! ### The exposure account -/

theorem Part.carries_reportLevel (a b : AlertLevel) (p : Part) : p.Carries (p.reportLevel a b) := by
  have dlu (l : AlertLevel) (n : Nat) (d : Dlu) : (d.setCount l n).entries = d.entries := by cases l <;> rfl
  have count : p.Carries (p.countLevel a b) := by
    unfold Part.countLevel
    refine .trans (.trans ?_ (Part.carries_onDlu ?_)) (Part.carries_postHeader _)
    · exact Part.carries_onDlu (by rw [dlu]; exact id)
    · rw [dlu]; exact id
  unfold Part.reportLevel
  split
  · exact .refl p
  · dsimp only
    split
    · exact count.trans (Part.carries_handRise _)
    · exact count

theorem Part.carries_postIfChanged (i : Fin 2048) (a b : Option Container) (p : Part) :
    p.Carries (p.postIfChanged i a b) := by
  unfold Part.postIfChanged
  split
  · exact .refl p
  · exact p.carries_postSlot i

theorem Part.carries_joinZone (i : Fin 2048) (c : Container) (p : Part) : p.Carries (p.joinZone i c) :=
  .trans (Part.carries_setZone (by rfl)) (Part.carries_moveCounts _ _ _ _ _ _)

theorem Part.carries_leaveZone (i : Fin 2048) (c : Container) (p : Part) : p.Carries (p.leaveZone i c) :=
  .trans (Part.carries_setZone (by rfl)) (Part.carries_moveCounts _ _ _ _ _ _)

theorem Part.carries_placeDue (i : Fin 2048) (c : Container) (p : Part) : p.Carries (p.placeDue i c) := by
  unfold Part.placeDue
  split
  · exact Part.carries_onDlu (Dlu.place_ordered i _ _)
  · exact Part.carries_onDlu (Dlu.remove_ordered i)

theorem Part.carries_commitRecord {i : Fin 2048} {old c : Container} {p : Part} (hs : p.slot i = some old)
    (hid : c.id = old.id) : p.Carries (p.commitRecord i old c) := by
  unfold Part.commitRecord
  refine .trans ?_ (Part.carries_postIfChanged _ _ _ _)
  refine .trans ?_ (Part.carries_reportLevel _ _ _)
  refine .trans ?_ (Part.carries_moveCounts _ _ _ _ _ _)
  exact (Part.carries_setSlot hs hid).trans (Part.carries_placeDue _ _ _)

theorem Container.id_of_identity {c d : Container} (h : c.identity = d.identity) : c.id = d.id := congrArg Prod.fst h

@[simp] theorem settleRecord_id (k : ClassDef) (T : Nat) (c : Container) : (settleRecord k T c).1.id = c.id :=
  Container.id_of_identity (settleRecord_identity k T c)

@[simp] theorem warnRecord_id (k : ClassDef) (c : Container) : (warnRecord k c).1.id = c.id :=
  Container.id_of_identity (warnRecord_identity k c)

@[simp] theorem withDues_id (k : ClassDef) (c : Container) : (withDues k c).id = c.id :=
  Container.id_of_identity (withDues_identity k c)

@[simp] theorem Part.deriveRecord_id (keep : Bool) (c : Container) (p : Part) : (p.deriveRecord keep c).1.id = c.id :=
  Container.id_of_identity (Part.deriveRecord_identity keep c p)

@[simp] theorem limitRule_id (k : ClassDef) (c : Container) : (limitRule k c).id = c.id := by
  unfold limitRule
  split <;> rfl

theorem Part.carries_changeTo (i : Fin 2048) (T : Nat) (keep : Bool) {f : Container → Container}
    (hf : ∀ c, (f c).id = c.id) (p : Part) : p.Carries (p.changeTo i T keep f).1 := by
  unfold Part.changeTo
  split
  next c hc => exact Part.carries_commitRecord hc (by rw [Part.deriveRecord_id, hf, settleRecord_id])
  next => exact .refl p

theorem Part.carries_reachMember (i : Fin 2048) (z : Fin 64) (p : Part) : p.Carries (p.reachMember i z) := by
  unfold Part.reachMember
  split
  · split
    · refine .trans ?_ (Part.carries_imageIf _ _)
      refine .trans ?_ (Part.carries_postSlot _ _)
      exact .trans (Part.carries_putZone (by rfl)) (Part.carries_changeTo _ _ _ (fun _ => rfl) _)
    · exact .refl p
  · exact .refl p

theorem Part.carries_reached (i : Fin 2048) (p : Part) : p.Carries (p.reached i) := by
  unfold Part.reached
  split
  · exact p.carries_reachMember _ _
  · exact .refl p

theorem Part.carries_settleSlot (i : Fin 2048) (T : Nat) (p : Part) : p.Carries (p.settleSlot i T).1 :=
  (p.carries_reached i).trans (Part.carries_changeTo _ _ _ (fun _ => rfl) _)

/-! ### Zones -/

theorem Part.evaluated_blocking (p : Part) (r : Zone) : (p.evaluated r).1.blocking = r.blocking := by
  unfold Part.evaluated
  dsimp only
  split
  · rfl
  · split <;> rfl
  · split <;> rfl
  · split
    · rfl
    · split <;> rfl
  · rfl

theorem Part.carries_carryChange (z : Fin 64) (reach : Reach) (p : Part) : p.Carries (p.carryChange z reach) := by
  unfold Part.carryChange
  split
  · exact Part.carries_foldl (fun p i => p.carries_reachMember i z) _ p
  · exact .refl p

theorem Part.carries_evaluateOne (z : Fin 64) (t : Nat) (own : Bool) (reach : Reach) (p : Part) :
    p.Carries (p.evaluateOne z t own reach).1 := by
  unfold Part.evaluateOne
  dsimp only
  split
  · exact Part.carries_setZone (p.evaluated_blocking _)
  · refine .trans ?_ (Part.carries_carryChange _ _ _)
    cases own with
    | true => exact Part.carries_setZone (p.evaluated_blocking _)
    | false => exact .trans (Part.carries_setZone (by exact p.evaluated_blocking _)) (Part.carries_offerInternal _ _)

theorem Part.carries_wait (src : TriggerSource) (z : Fin 64) (t : Nat) (own : Bool) (p : Part) :
    p.Carries (p.putZone z ((p.zone z).wait src t own)) := Part.carries_putZone (by cases src <;> rfl)

theorem Part.carries_triggerOne (src : TriggerSource) (z : Fin 64) (t : Nat) (own : Bool) (reach : Reach) (p : Part) :
    p.Carries (p.triggerOne src z t own reach).1 := by
  unfold Part.triggerOne
  split
  · exact p.carries_wait src z t own
  · exact p.carries_evaluateOne z t own reach

theorem Part.carries_triggerFollowers (z : Fin 64) (t : Nat) (reach : Reach) (p : Part) :
    p.Carries (p.triggerFollowers z t reach) := by
  unfold Part.triggerFollowers
  exact Part.carries_foldl (fun p y => p.carries_triggerOne _ y t _ reach) _ p

theorem Part.carries_evaluateZone (z : Fin 64) (t : Nat) (own : Bool) (reach : Reach) (p : Part) :
    p.Carries (p.evaluateZone z t own reach) := by
  refine (p.carries_evaluateOne z t own reach).trans ?_
  unfold Part.evaluateZone
  dsimp only
  split
  · exact Part.carries_triggerFollowers _ _ _ _
  · exact .refl _

theorem Part.carries_trigger (src : TriggerSource) (z : Fin 64) (t : Nat) (own : Bool) (reach : Reach) (p : Part) :
    p.Carries (p.trigger src z t own reach) := by
  unfold Part.trigger
  split
  · exact p.carries_wait src z t own
  · exact p.carries_evaluateZone z t own reach

theorem Part.carries_triggerTaken (z : Fin 64) (own changed : Bool) (p : Part) :
    p.Carries (p.triggerTaken z own changed) := by
  have offered : p.Carries (if own then p.offerDocket (.zone z (p.zone z).image) else p) :=
    Part.carries_ite (p.carries_offerDocket _) (.refl p)
  refine offered.trans ?_
  unfold Part.triggerTaken
  dsimp only
  generalize (if own then p.offerDocket (.zone z (p.zone z).image) else p) = q
  split
  · exact Part.carries_ite (Part.carries_setInHand _ _) (.refl _)
  · exact .refl _

theorem Part.carries_takeWaiting (z : Fin 64) (reach : Reach) (p : Part) : p.Carries (p.takeWaiting z reach) := by
  refine (p.carries_carryChange z none).trans ?_
  unfold Part.takeWaiting
  dsimp only
  split
  next src q _ =>
    have taken := (Part.carries_putZone (p := p.carryChange z none) (z := z)
      (r := ((p.carryChange z none).zone z).dropTrigger src) (by cases src <;> rfl)).trans
      (Part.carries_evaluateZone z q.time q.own reach _)
    split
    · exact taken.trans (Part.carries_triggerTaken _ _ _ _)
    · exact taken
  next => exact .refl _

theorem overheat_id (k : ClassDef) (temp : Int) (c : Container) : (overheat k temp c).id = c.id := by
  unfold overheat
  split <;> rfl

theorem Part.carries_passTo (i : Fin 2048) (temp : Int) (t : Nat) (p : Part) : p.Carries (p.passTo i temp t) := by
  refine (p.carries_reached i).trans ?_
  unfold Part.passTo
  dsimp only
  split
  next c _ =>
    split
    · have settled := Part.carries_changeTo i t true (overheat_id ((p.reached i).classDef c.cls) temp) (p.reached i)
      split
      · split
        · exact settled.trans (Part.carries_imageIf i _)
        · exact (settled.trans (Part.carries_postSlot i _)).trans (Part.carries_imageIf i _)
      · exact settled
    · exact .refl _
  next => exact .refl _

theorem Part.carries_passReading (z : Fin 64) (temp : Int) (t : Nat) (p : Part) :
    p.Carries (p.passReading z temp t) := by
  unfold Part.passReading
  split
  · exact Part.carries_foldl (fun p i => p.carries_passTo i temp t) _ p
  · exact .refl p

theorem Part.carries_deliverReading (z : Fin 64) (v : Reading) (t : Nat) (reach : Reach) (p : Part) :
    p.Carries (p.deliverReading z v t reach) :=
  .trans (.trans (Part.carries_setZone (by rfl)) (Part.carries_trigger _ _ _ _ _ _)) (Part.carries_passReading _ _ _ _)

theorem Part.carries_reportStale (z : Fin 64) (t : Nat) (reach : Reach) (p : Part) :
    p.Carries (p.reportStale z t reach) := by
  unfold Part.reportStale
  refine .trans ?_ (Part.carries_trigger _ _ _ _ _ _)
  split
  · exact .trans (Part.carries_setZone (by rfl)) (Part.carries_handRise _)
  · exact Part.carries_setZone rfl

theorem Part.carries_reportDoor (z : Fin 64) (isOpen : Bool) (t : Nat) (reach : Reach) (p : Part) :
    p.Carries (p.reportDoor z isOpen t reach) := by
  unfold Part.reportDoor
  split
  · exact .refl p
  · exact .trans (Part.carries_setZone (by rfl)) (Part.carries_trigger _ _ _ _ _ _)

theorem Part.carries_reportAjar (z : Fin 64) (ajar : Bool) (p : Part) : p.Carries (p.reportAjar z ajar) := by
  unfold Part.reportAjar
  split
  · exact .refl p
  · dsimp only
    split
    · exact .trans (Part.carries_setZone (by rfl)) (Part.carries_handRise _)
    · exact Part.carries_setZone rfl

theorem Part.rezoned_blocking (p : Part) (z : Fin 64) (c : ZoneConfig) :
    (p.rezoned z c).blocking = (p.zone z).blocking := by
  unfold Part.rezoned
  dsimp only
  split
  · rfl
  · split <;> rfl

/-- An output bound afresh is derived at once. -/
theorem Part.carries_rebind (o : Fin 8) (r : LineHold) (p : Part) : p.Carries ((p.setLineHold o r).deriveHold o) := by
  refine Part.SameButDou.carries rfl fun h n => Part.driven_deriveHold.2 (or_iff_not_imp_left.2 fun hn => ?_)
  unfold Part.driven
  rw [Part.lineHold_setLineHold, if_neg (Ne.symm hn)]
  exact h n

theorem Part.carries_rebindOutput (z : Fin 64) (old new : Option (Fin 8)) (p : Part) :
    p.Carries (p.rebindOutput z old new) := by
  unfold Part.rebindOutput
  split
  · exact .refl p
  · cases old <;> cases new
    · exact .refl p
    · exact p.carries_rebind _ _
    · exact p.carries_rebind _ _
    · exact (p.carries_rebind _ _).trans (Part.carries_rebind _ _ _)

theorem Part.carries_awaitTriggers (zs : List (Fin 64)) (p : Part) : p.Carries (p.awaitTriggers zs) := by
  unfold Part.awaitTriggers
  split
  · exact p.carries_setInHand _
  · exact .refl p

theorem Part.carries_applyZone (z : Fin 64) (c : ZoneConfig) (p : Part) : p.Carries (p.applyZone z c) := by
  unfold Part.applyZone
  refine .trans ?_ (Part.carries_awaitTriggers _ _)
  refine .trans ?_ (Part.carries_finishDocket _ _)
  refine .trans ?_ (Part.carries_triggerFollowers _ _ _ _)
  have passed (v : Option Reading) (p : Part) : p.Carries (match v with
      | some v => p.passReading z v.temp p.now
      | none => p) := by
    split
    · exact p.carries_passReading _ _ _
    · exact .refl p
  refine .trans ?_ (Part.carries_ite (passed _ _) (.refl _))
  refine .trans ?_ (Part.carries_ite (.refl _) (Part.carries_offerDocket _ _))
  refine .trans ?_ (Part.carries_ite (.refl _) (Part.carries_trigger _ _ _ _ _ _))
  refine .trans ?_ (Part.carries_ite (Part.carries_handRise _) (.refl _))
  exact .trans (Part.carries_setZone (p.rezoned_blocking z c)) (Part.carries_rebindOutput _ _ _ _)

theorem Part.carries_setZoneDocket (a : ZoneArgs) (p : Part) : p.Carries (p.setZoneDocket a) := by
  unfold Part.setZoneDocket
  split
  · exact p.carries_refuseDocket _
  · exact p.carries_applyZone _ _

theorem Part.carries_triggerAll (p : Part) : p.Carries p.triggerAll := by
  unfold Part.triggerAll
  exact Part.carries_foldl (fun p z => p.carries_trigger _ z _ _ _) _ p

theorem Part.carries_writeBlock (b : CellBlock) (p : Part) : p.Carries (p.writeBlock b) := by
  unfold Part.writeBlock
  dsimp only
  refine .trans (Part.carries_of_same (by rfl)) (Part.carries_ite (Part.carries_foldl (fun p z => ?_) _ _) (.refl _))
  exact Part.carries_putZone rfl

theorem Part.carries_applyConditions (b : CellBlock) (p : Part) : p.Carries (p.applyConditions b) := by
  unfold Part.applyConditions
  refine .trans ?_ (Part.carries_awaitTriggers _ _)
  refine .trans ?_ (Part.carries_finishDocket _ _)
  refine .trans ?_ (Part.carries_offerDocket _ _)
  exact (p.carries_writeBlock b).trans (Part.carries_triggerAll _)

theorem Part.carries_setConditionsDocket (addr : HostAddr) (fails : Bool) (p : Part) :
    p.Carries (p.setConditionsDocket addr fails) := by
  unfold Part.setConditionsDocket
  split
  · exact p.carries_refuseDocket _
  · split
    · exact (p.carries_refuseDocket _).trans (Part.carries_accessFailed _)
    · dsimp only
      split
      · exact p.carries_applyConditions _
      · exact p.carries_refuseDocket _

theorem Part.carries_setEngineDocket (a : EngineArgs) (p : Part) : p.Carries (p.setEngineDocket a) := by
  unfold Part.setEngineDocket
  dsimp only
  split
  · exact p.carries_finishDocket _
  · split
    · exact p.carries_refuseDocket _
    · refine .trans ?_ (Part.carries_awaitTriggers _ _)
      refine .trans ?_ (Part.carries_finishDocket _ _)
      refine .trans ?_ (Part.carries_offerDocket _ _)
      exact .trans (Part.carries_of_same (by rfl)) (Part.carries_ite (Part.carries_triggerAll _) (.refl _))

end Sys2Proof.Machine

namespace Sys2Proof.Machine

/-! ### Probes -/

theorem Part.carries_releaseGroup (g : Option (Fin 4)) (p : Part) : p.Carries (p.releaseGroup g) := by
  unfold Part.releaseGroup
  split
  · exact Part.carries_ite (p.carries_setGroup _ _) (.refl p)
  · exact .refl p

theorem Part.carries_beginPoll (b : Bus) (n : Fin 32) (c : ProbeConfig) (p : Part) : p.Carries (p.beginPoll b n c) := by
  unfold Part.beginPoll
  refine .trans ?_ (Part.carries_setBus _ _ _)
  split
  · exact Part.carries_ite (p.carries_setGroup _ _) (.refl p)
  · exact .refl p

theorem Part.carries_serveBus (b : Bus) (p : Part) : p.Carries (p.serveBus b) := by
  unfold Part.serveBus
  split
  · split
    · exact p.carries_beginPoll _ _ _
    · exact .refl p
  · exact .refl p

theorem Part.carries_idleBus (b : Bus) (p : Part) : p.Carries (p.idleBus b) := p.carries_setBus _ _

theorem Part.carries_probeLost (n : Fin 32) (reach : Reach) (p : Part) : p.Carries (p.probeLost n reach) := by
  unfold Part.probeLost
  dsimp only
  exact Part.carries_ite (.refl p)
    ((p.carries_setProbe _ _).trans (Part.carries_foldl (fun p z => p.carries_reportStale z _ reach) _ _))

theorem Part.carries_probeReading (n : Fin 32) (v : Reading) (reach : Reach) (p : Part) :
    p.Carries (p.probeReading n v reach) :=
  (p.carries_setProbe _ _).trans (Part.carries_foldl (fun p z => p.carries_deliverReading z v _ reach) _ _)

theorem Part.carries_pollFailed (n : Fin 32) (reach : Reach) (p : Part) : p.Carries (p.pollFailed n reach) :=
  (p.carries_setProbe _ _).trans (Part.carries_ite (Part.carries_probeLost _ _ _) (.refl _))

theorem Part.carries_pollGood (n : Fin 32) (v : Reading) (count : Byte) (reach : Reach) (p : Part) :
    p.Carries (p.pollGood n v count reach) :=
  (p.carries_setProbe _ _).trans (Part.carries_probeReading _ _ _ _)

theorem Part.carries_endPoll (b : Bus) (q : Poll) {apply : Part → Part} (h : ∀ p : Part, p.Carries (apply p))
    (p : Part) : p.Carries (p.endPoll b q apply) := by
  unfold Part.endPoll
  split
  · exact ((p.carries_idleBus b).trans (Part.carries_releaseGroup _ _)).trans (Part.carries_serveBus _ _)
  · exact (((p.carries_setBus _ _).trans (h _)).trans (Part.carries_releaseGroup _ _)).trans (Part.carries_serveBus _ _)

theorem Part.carries_failAttempt (b : Bus) (kind : ProbeFailure) (reach : Reach) (p : Part) :
    p.Carries (p.failAttempt b kind reach) := by
  unfold Part.failAttempt
  split
  · split
    · exact Part.carries_endPoll _ _ Part.Carries.refl p
    · exact (p.carries_setProbe _ _).trans
        (Part.carries_ite (Part.carries_endPoll _ _ (Part.carries_pollFailed _ _) _) (Part.carries_setBus _ _ _))
  · exact .refl p

theorem Part.carries_request (b : Bus) (ack : Bool) (reach : Reach) (p : Part) : p.Carries (p.request b ack reach) := by
  unfold Part.request
  split
  · exact (p.carries_setBus _ _).trans (Part.carries_ite (.refl _) (Part.carries_failAttempt _ _ _ _))
  · exact .refl p

theorem Part.carries_startAttempt (b : Bus) (reply : AttemptReply) (reach : Reach) (p : Part) :
    p.Carries (p.startAttempt b reply reach) := by
  unfold Part.startAttempt
  split
  · cases reply with
    | linesHeld => exact p.carries_setBus _ _
    | acknowledged => exact (p.carries_setBus _ _).trans (Part.carries_request _ _ _ _)
    | notAcknowledged => exact (p.carries_setBus _ _).trans (Part.carries_request _ _ _ _)
  · exact .refl p

theorem Part.carries_busFree (b : Bus) (ack : Bool) (reach : Reach) (p : Part) : p.Carries (p.busFree b ack reach) := by
  unfold Part.busFree
  split
  · exact p.carries_request _ _ _
  · exact .refl p

theorem Part.carries_conversionDone (b : Bus) (ack : Bool) (reach : Reach) (p : Part) :
    p.Carries (p.conversionDone b ack reach) := by
  unfold Part.conversionDone
  split
  · exact (p.carries_setBus _ _).trans (Part.carries_ite (.refl _) (Part.carries_failAttempt _ _ _ _))
  · exact .refl p

theorem Part.carries_response (b : Bus) (x : ProbeBytes) (reach : Reach) (p : Part) :
    p.Carries (p.response b x reach) := by
  unfold Part.response
  split
  · split
    · exact p.carries_failAttempt _ _ _
    · exact Part.carries_endPoll _ _ (Part.carries_pollGood _ _ _ _) p
  · exact .refl p

theorem Part.carries_busHeld (b : Bus) (reach : Reach) (p : Part) : p.Carries (p.busHeld b reach) := by
  unfold Part.busHeld
  split
  · exact p.carries_failAttempt _ _ _
  · exact p.carries_failAttempt _ _ _
  · exact p.carries_failAttempt _ _ _
  · exact .refl p

theorem Part.carries_retry (b : Bus) (dataLow : Option Nat) (p : Part) : p.Carries (p.retry b dataLow) := by
  unfold Part.retry
  split
  · exact p.carries_setBus _ _
  · exact .refl p

theorem Part.carries_pollExpiry (n : Fin 32) (p : Part) : p.Carries (p.pollExpiry n) := by
  unfold Part.pollExpiry
  split
  · refine Part.carries_ite ((p.carries_setProbe _ _).trans (Part.carries_ite (Part.carries_setProbe _ _ _) ?_))
      (.refl p)
    exact (Part.carries_setBus _ _ _).trans (Part.carries_serveBus _ _)
  · exact .refl p

theorem Part.carries_groupReady (g : Fin 4) (p : Part) : p.Carries (p.groupReady g) := by
  unfold Part.groupReady
  refine Part.carries_ite ((p.carries_setGroup _ _).trans (Part.carries_foldl (fun p b => ?_) _ _)) (.refl p)
  exact Part.carries_ite (p.carries_setBus _ _) (.refl p)

theorem Part.carries_staleReached (n : Fin 32) (reach : Reach) (p : Part) : p.Carries (p.staleReached n reach) :=
  Part.carries_ite ((p.carries_setProbe _ _).trans (Part.carries_probeLost _ _ _)) (.refl p)

theorem Part.carries_unqueueOn (b : Bus) (n : Fin 32) (p : Part) : p.Carries (p.unqueueOn b n) := by
  refine (p.carries_setBus b { p.bus b with queue := (p.bus b).queue.filter (· != n) }).trans ?_
  unfold Part.unqueueOn
  dsimp only
  split
  · exact Part.carries_ite (Part.carries_ite (Part.carries_setBus _ _ _) (Part.carries_idleBus _ _)) (.refl _)
  · exact .refl _

theorem Part.carries_unqueue (n : Fin 32) (p : Part) : p.Carries (p.unqueue n) := by
  unfold Part.unqueue
  split
  · split
    · exact ((p.carries_unqueueOn _ _).trans (Part.carries_unqueueOn _ _ _)).trans
        (Part.carries_ite (.refl _) ((Part.carries_releaseGroup _ _).trans (Part.carries_serveBus _ _)))
    · exact .refl p
  · exact .refl p

theorem Part.carries_applyProbe (n : Fin 32) (c : Option ProbeConfig) (p : Part) : p.Carries (p.applyProbe n c) := by
  unfold Part.applyProbe
  refine .trans ?_ (Part.carries_finishDocket _ _)
  refine .trans ?_ (Part.carries_offerDocket _ _)
  refine (p.carries_unqueue n).trans ?_
  split
  · exact (Part.carries_setProbe _ _ _).trans (Part.carries_probeLost _ _ _)
  · exact Part.carries_setProbe _ _ _

theorem Part.carries_setProbeDocket (a : ProbeArgs) (p : Part) : p.Carries (p.setProbeDocket a) := by
  unfold Part.setProbeDocket
  split
  · exact p.carries_refuseDocket _
  · exact p.carries_applyProbe _ _

theorem Part.carries_writeSpeed (flag : Bool) (b : Bus) (kHz : Nat) (p : Part) : p.Carries (p.writeSpeed flag b kHz) :=
  Part.carries_ite (p.carries_setBus _ _) (.refl p)

theorem Part.carries_setGroupDocket (a : GroupArgs) (p : Part) : p.Carries (p.setGroupDocket a) := by
  unfold Part.setGroupDocket
  refine Part.carries_ite (p.carries_finishDocket _) (Part.carries_ite (p.carries_refuseDocket _) ?_)
  refine .trans ?_ (Part.carries_finishDocket _ _)
  refine .trans ?_ (Part.carries_offerDocket _ _)
  refine .trans ?_ ((Part.carries_writeSpeed _ _ _ _).trans (Part.carries_writeSpeed _ _ _ _))
  exact Part.carries_foldl (fun p g => Part.carries_ite (p.carries_setGroup _ _) (.refl p)) _ p

theorem Part.carries_queryProbeDocket (a : QueryProbeArgs) (fails : Bool) (p : Part) :
    p.Carries (p.queryProbeDocket a fails) := by
  unfold Part.queryProbeDocket
  split
  · refine Part.carries_ite (p.carries_refuseDocket _)
      (Part.carries_ite ((p.carries_refuseDocket _).trans (Part.carries_accessFailed _)) ?_)
    refine .trans ?_ (Part.carries_finishDocket _ _)
    exact (p.carries_hostWrite _ _).trans (Part.carries_ite (Part.carries_setProbe _ _ _) (.refl _))
  · exact p.carries_refuseDocket _

theorem Part.carries_startProbes (p : Part) : p.Carries p.startProbes := by
  unfold Part.startProbes
  refine .trans (Part.carries_foldl (fun p n => ?_) _ p) (Part.carries_foldl (fun p n => ?_) _ _)
  · dsimp only
    split
    · exact p.carries_setProbe _ _
    · exact .refl p
  · exact Part.carries_ite
      ((p.carries_setProbe _ _).trans (Part.carries_foldl (fun p z => p.carries_reportStale z _ none) _ _)) (.refl p)

/-! ### Doors and outputs -/

theorem Part.carries_updateDoor (z : Fin 64) (t : Nat) (reach : Reach) (p : Part) :
    p.Carries (p.updateDoor z t reach) := by
  unfold Part.updateDoor
  refine Part.carries_ite (.refl p) (Part.carries_ite ?opened ?closed)
  case opened => exact (p.carries_setDoor _ _).trans (Part.carries_reportDoor _ _ _ _ _)
  case closed =>
    refine .trans ?_ (Part.carries_reportDoor _ _ _ _ _)
    exact (p.carries_setDoor _ _).trans (Part.carries_ite (Part.carries_reportAjar _ _ _) (.refl _))

theorem Part.carries_edgeConfirmed (n : Fin 16) (reach : Reach) (p : Part) : p.Carries (p.edgeConfirmed n reach) := by
  unfold Part.edgeConfirmed
  dsimp only
  split
  · refine .trans (Part.carries_ite ?_ (.refl p)) (Part.carries_updateDoor _ _ _ _)
    exact (p.carries_setLine _ _).trans (Part.carries_postZone _ _)
  · exact .refl p

theorem Part.carries_filterExpiry (n : Fin 16) (reach : Reach) (p : Part) : p.Carries (p.filterExpiry n reach) :=
  Part.carries_ite
    ((p.carries_setLine _ _).trans (Part.carries_ite (Part.carries_edgeConfirmed _ _ _) (.refl _))) (.refl p)

theorem Part.carries_ajarLimit (z : Fin 64) (p : Part) : p.Carries (p.ajarLimit z) :=
  Part.carries_ite ((p.carries_setDoor _ _).trans (Part.carries_reportAjar _ _ _)) (.refl p)

theorem Part.carries_doorSample (n : Fin 16) (p : Part) : p.Carries (p.doorSample n) :=
  Part.carries_ite (p.carries_setLine _ _) (.refl p)

theorem Part.carries_startDoors (p : Part) : p.Carries p.startDoors := by
  unfold Part.startDoors
  refine Part.carries_foldl (fun p z => ?_) _ p
  exact (p.carries_setDoor _ _).trans
    (Part.carries_ite (Part.carries_reportDoor _ _ _ _ _) (Part.carries_setZone (by rfl)))

theorem Part.carries_applyDoor (n : Fin 16) (zone : Option (Fin 64)) (a : DoorArgs) (p : Part) :
    p.Carries (p.applyDoor n zone a) := by
  have update (z : Option (Fin 64)) (p : Part) : p.Carries (match z with
      | some z => p.updateDoor z p.now none
      | none => p) := by
    split
    · exact p.carries_updateDoor _ _ _
    · exact .refl p
  unfold Part.applyDoor
  refine .trans ?_ (Part.carries_finishDocket _ _)
  refine .trans ?_ (Part.carries_offerDocket _ _)
  refine Part.carries_ite ?_ ?_
  · exact (p.carries_setLine _ _).trans (Part.carries_ite (.refl _) (update _ _))
  · exact ((p.carries_setLine _ _).trans (update _ _)).trans (update _ _)

theorem Part.carries_setDoorDocket (a : DoorArgs) (p : Part) : p.Carries (p.setDoorDocket a) := by
  unfold Part.setDoorDocket
  split
  · exact p.carries_refuseDocket _
  · exact p.carries_applyDoor _ _ _

theorem Part.carries_lampStep (n : Fin 8) (p : Part) : p.Carries (p.lampStep n) := by
  unfold Part.lampStep
  dsimp only
  split
  · exact p.carries_setLamp _ _
  · exact .refl p

/-- A record of an output that its flag does not name stands, and so does the drive. -/
theorem Part.driven_of_same {p q : Part} {n : Fin 8} (h : q.lineHold n = p.lineHold n) (hz : q.znu = p.znu)
    (d : p.driven n) : q.driven n := by
  unfold Part.driven Part.zone at *
  rwa [h, hz]

theorem Part.SameButDou.ite {c : Prop} [Decidable c] {p q r : Part} (hq : p.SameButDou q) (hr : p.SameButDou r) :
    p.SameButDou (if c then q else r) := by
  split
  · exact hq
  · exact hr

theorem Part.sameButDou_refl (p : Part) : p.SameButDou p := rfl

theorem Part.sameButDou_writeOutputs (a : OutputArgs) (p : Part) : p.SameButDou (p.writeOutputs a) := by
  unfold Part.writeOutputs
  refine .trans (.trans (Part.sameButDou_foldl (fun p n => ?_) _ p) (Part.sameButDou_foldl (fun p n => ?_) _ _)) rfl
  · exact .ite rfl p.sameButDou_refl
  · exact .ite rfl p.sameButDou_refl

theorem Part.lineHold_foldl {α : Type} {f : Part → α → Part} {n : Fin 8}
    (h : ∀ (p : Part) (a : α), (f p a).lineHold n = p.lineHold n) (xs : List α) (p : Part) :
    (xs.foldl f p).lineHold n = p.lineHold n := by
  induction xs generalizing p with
  | nil => rfl
  | cons x xs ih => rw [List.foldl_cons, ih, h]

/-- An output without its override flag is not written. -/
theorem Part.lineHold_writeOutputs {a : OutputArgs} {n : Fin 8} (h : a.override? n = false) (p : Part) :
    (p.writeOutputs a).lineHold n = p.lineHold n := by
  unfold Part.writeOutputs
  refine (Part.lineHold_foldl (fun p m => ?lamps) _ _).trans (Part.lineHold_foldl (fun p m => ?outputs) _ p)
  case lamps => split <;> simp
  case outputs =>
    split
    · rw [Part.lineHold_setLineHold, if_neg]
      rintro rfl
      simp_all
    · rfl

theorem Part.driven_foldl_deriveHold_if {c : Fin 8 → Bool} {n : Fin 8} (xs : List (Fin 8)) {p : Part} :
    (xs.foldl (fun p m => if c m then p.deriveHold m else p) p).driven n ↔ (n ∈ xs ∧ c n = true) ∨ p.driven n := by
  induction xs generalizing p with
  | nil => simp
  | cons x xs ih =>
    rw [List.foldl_cons, ih, List.mem_cons]
    split
    next hx =>
      rw [Part.driven_deriveHold]
      constructor
      · rintro (h | rfl | h) <;> tauto
      · tauto
    next hx =>
      constructor
      · tauto
      · rintro (⟨rfl | h, hn⟩ | h) <;> tauto

theorem Part.carries_refreshLamp (a : OutputArgs) (n : Fin 8) (p : Part) : p.Carries (p.refreshLamp a n) :=
  p.carries_setLamp _ _

/-- The flagged outputs are written and then derived, so the drives stand. -/
theorem Part.carries_writeOutputs_applyOutputs (a : OutputArgs) (p : Part) :
    p.Carries ((p.writeOutputs a).applyOutputs a) := by
  unfold Part.applyOutputs
  refine .trans (.trans ?_ (Part.carries_foldl (fun p n => ?_) _ _)) (Part.carries_foldl (fun p n => ?_) _ _)
  · have same := (p.sameButDou_writeOutputs a).trans (Part.sameButDou_foldl
      (f := fun p n => if a.override? n then p.deriveHold n else p) (fun p n => .ite rfl p.sameButDou_refl)
      (List.finRange 8) _)
    refine same.carries fun h n => (Part.driven_foldl_deriveHold_if _).2 ?_
    cases hn : a.override? n with
    | true => exact .inl ⟨List.mem_finRange n, rfl⟩
    | false =>
      refine .inr (Part.driven_of_same (p.lineHold_writeOutputs hn) ?_ (h n))
      rw [p.sameButDou_writeOutputs a]
  · exact Part.carries_ite (p.carries_deriveLamp n) (.refl p)
  · exact p.carries_refreshLamp a n

theorem Part.carries_setOutputDocket (a : OutputArgs) (p : Part) : p.Carries (p.setOutputDocket a) := by
  unfold Part.setOutputDocket
  refine Part.carries_ite (p.carries_finishDocket _)
    (Part.carries_ite (p.carries_refuseDocket _) (Part.carries_ite (p.carries_refuseDocket _) ?_))
  exact ((p.carries_writeOutputs_applyOutputs a).trans (Part.carries_offerDocket _ _)).trans
    (Part.carries_finishDocket _ _)

/-! ### Containers -/

theorem Part.carries_useClass (n : Fin 16) (f : Nat → Nat) (p : Part) : p.Carries (p.useClass n f) :=
  p.carries_setCls _ _

/-- A container made live under an ID that no slot holds. -/
theorem Part.keepsLaws_makeLive {i : Fin 2048} {c : Container} {p : Part}
    (fresh : ∀ j, c.id ≠ 0 → ¬ p.holdsId j c.id) : p.KeepsLaws (p.makeLive i c) := by
  refine (Part.keepsLaws_setSlot_fresh (i := i) fun j _ hc => fresh j hc).trans (Part.Carries.keepsLaws ?_)
  unfold Part.makeLive
  refine .trans ?_ (Part.carries_postHeader _)
  refine .trans ?_ (Part.carries_postIfChanged _ _ _ _)
  refine .trans ?_ (Part.carries_reportLevel _ _ _)
  refine .trans ?_ (Part.carries_joinZone _ _ _)
  exact (Part.carries_useClass _ _ _).trans (Part.carries_placeDue _ _ _)

theorem Part.carries_freeSlot (i : Fin 2048) (c : Container) (p : Part) : p.Carries (p.freeSlot i c) := by
  unfold Part.freeSlot
  refine .trans ?_ (Part.carries_postHeader _)
  refine .trans ?_ (Part.carries_postIfChanged _ _ _ _)
  refine .trans ?_ (Part.carries_reportLevel _ _ _)
  refine .trans ?_ (Part.carries_setSlot_none _ _)
  refine .trans ?_ (Part.carries_useClass _ _ _)
  exact .trans (Part.carries_onDlu (Dlu.remove_ordered i)) (Part.carries_leaveZone _ _ _)

/-- A check that passes leaves the rest to decide. -/
theorem check_eq_ok {α : Type} {ok : Bool} {r : ResultCode} {rest : Except ResultCode α} {a : α} :
    check ok r rest = .ok a ↔ ok = true ∧ rest = .ok a := by
  cases ok <;> simp [check]

/-- No slot holds an ID that the search does not find. -/
theorem Part.not_holdsId_of_findId {p : Part} {id : ContainerId} (h : (p.findId id).isNone = true) (hid : id ≠ 0)
    (j : Fin 2048) : ¬ p.holdsId j id := by
  rintro ⟨c, hc, rfl⟩
  rw [Option.isNone_iff_eq_none, Part.findId, if_neg hid] at h
  simpa [hc] using List.find?_eq_none.1 h j (List.mem_finRange j)

theorem Part.checkEnroll_fresh {a : EnrollArgs} {p : Part} {x} (h : p.checkEnroll a = .ok x) :
    a.id ≠ 0 ∧ (p.findId a.id).isNone = true := by
  unfold Part.checkEnroll at h
  obtain ⟨hid, h⟩ := check_eq_ok.1 h
  split at h
  · cases h
  · split at h
    · cases h
    · split at h
      · cases h
      · obtain ⟨-, h⟩ := check_eq_ok.1 h
        obtain ⟨hfind, -⟩ := check_eq_ok.1 h
        exact ⟨by simpa using hid, hfind⟩

@[simp] theorem enrolled_id (id : ContainerId) (n : Fin 16) (k : ClassDef) (z : Fin 64) (kind : ZoneKind)
    (custody : Custody) (minutes t : Nat) : (enrolled id n k z kind custody minutes t).id = id := by
  simp [enrolled]

theorem Part.keepsLaws_enrollDocket (a : EnrollArgs) (p : Part) : p.KeepsLaws (p.enrollDocket a) := by
  unfold Part.enrollDocket
  split
  · exact (p.carries_refuseDocket _).keepsLaws
  next n k z custody i h =>
    obtain ⟨-, hfind⟩ := Part.checkEnroll_fresh h
    refine .trans (Part.keepsLaws_makeLive fun j hc => ?_)
      ((Part.carries_offerDocket _ _).trans (Part.carries_finishDocket _ _)).keepsLaws
    simp only [Part.deriveRecord_id, enrolled_id] at hc ⊢
    exact Part.not_holdsId_of_findId hfind hc j

@[simp] theorem childOf_id (k : ClassDef) (parent : Container) (id : ContainerId) (t : Nat) :
    (childOf k parent id t).id = id := by
  simp [childOf]

/-- Which IDs a live container adds. -/
theorem Part.holdsId_makeLive {i j : Fin 2048} {c : Container} {p : Part} {id : ContainerId}
    (h : (p.makeLive i c).holdsId j id) : id = c.id ∨ p.holdsId j id := by
  have rest : (p.setSlot i (some c)).idsWithin (p.makeLive i c) := by
    refine Part.Carries.within ?_
    unfold Part.makeLive
    refine .trans ?_ (Part.carries_postHeader _)
    refine .trans ?_ (Part.carries_postIfChanged _ _ _ _)
    refine .trans ?_ (Part.carries_reportLevel _ _ _)
    refine .trans ?_ (Part.carries_joinZone _ _ _)
    exact (Part.carries_useClass _ _ _).trans (Part.carries_placeDue _ _ _)
  obtain ⟨d, hd, rfl⟩ := h
  obtain ⟨e, he, hed⟩ := rest j d hd
  rw [Part.slot_setSlot] at he
  split at he
  · exact .inl (by rw [← hed, Option.some.inj he])
  · exact .inr ⟨e, he, hed⟩

/-- Children with IDs of their own, held by no slot, are made live one after another. -/
theorem Part.keepsLaws_makeChildren (k : ClassDef) (parent : Container) (f : Part → Nat) :
    ∀ (xs : List (ContainerId × Fin 2048)) (p : Part), (xs.map (·.1)).Nodup →
      (∀ x ∈ xs, ∀ j, x.1 ≠ 0 → ¬ p.holdsId j x.1) →
      p.KeepsLaws (xs.foldl (fun p x => p.makeLive x.2 (childOf k parent x.1 (f p))) p)
  | [], p, _, _ => .refl p
  | x :: xs, p, distinct, fresh => by
    rw [List.map_cons, List.nodup_cons] at distinct
    obtain ⟨hx, hxs⟩ := distinct
    refine (Part.keepsLaws_makeLive fun j hc => ?_).trans
      (Part.keepsLaws_makeChildren k parent f xs _ hxs fun y hy j hne hold => ?_)
    · rw [childOf_id] at hc ⊢
      exact fresh x List.mem_cons_self j hc
    · obtain heq | hold := Part.holdsId_makeLive hold
      · rw [childOf_id] at heq
        exact hx (heq ▸ List.mem_map_of_mem hy)
      · exact fresh y (List.mem_cons_of_mem _ hy) j hne hold

theorem map_fst_zip_sublist {α β : Type} : ∀ (xs : List α) (ys : List β), ((xs.zip ys).map (·.1)).Sublist xs
  | [], _ => by simp
  | _ :: _, [] => by simp
  | x :: xs, y :: ys => by simpa using map_fst_zip_sublist xs ys

theorem Part.keepsLaws_splitInto (a : SplitArgs) (i : Fin 2048) (parent : Container) {p : Part}
    (distinct : a.read.Nodup) (fresh : ∀ id ∈ a.read, ∀ j, id ≠ 0 → ¬ p.holdsId j id) :
    p.KeepsLaws (p.splitInto a i parent) := by
  have sublisted : ((a.read.zip (p.freeSlots.take a.count)).map (·.1)).Sublist a.read :=
    map_fst_zip_sublist _ _
  unfold Part.splitInto
  refine .trans (Part.keepsLaws_makeChildren (p.classDef parent.cls) parent Part.now _ p (distinct.sublist sublisted)
    fun x hx => fresh x.1 (sublisted.subset (List.mem_map_of_mem hx))) (Part.Carries.keepsLaws ?_)
  refine .trans ?_ (Part.carries_finishDocket _ _)
  refine .trans ?_ (Part.carries_offerDocket _ _)
  refine .trans ?_ (Part.carries_foldl (fun p j => p.carries_offerDocket _) _ _)
  exact Part.carries_ite (Part.carries_freeSlot _ _ _) (.refl _)

theorem Part.splitParent_distinct {a : SplitArgs} {p : Part} {i : Fin 2048} (h : p.splitParent a = .ok i) :
    a.read.Nodup := by
  unfold Part.splitParent at h
  obtain ⟨-, h⟩ := check_eq_ok.1 h
  obtain ⟨hids, -⟩ := check_eq_ok.1 h
  exact of_decide_eq_true (Bool.and_eq_true_iff.1 hids).2

theorem Part.checkSplit_fresh {a : SplitArgs} {i : Fin 2048} {p : Part} {c : Container} (h : p.checkSplit a i = .ok c) :
    ∀ id ∈ a.read, (p.findId id).isNone = true := by
  unfold Part.checkSplit at h
  split at h
  · cases h
  · obtain ⟨-, h⟩ := check_eq_ok.1 h
    obtain ⟨hids, -⟩ := check_eq_ok.1 h
    simpa using hids

theorem Part.keepsLaws_splitDocket (a : SplitArgs) (p : Part) : p.KeepsLaws (p.splitDocket a) := by
  unfold Part.splitDocket
  split
  · exact (p.carries_refuseDocket _).keepsLaws
  next i hparent =>
    refine (p.carries_reached i).keepsLaws.trans ?_
    dsimp only
    split
    · exact (Part.carries_refuseDocket _ _).keepsLaws
    next before hcheck =>
      have settled := Part.carries_settleSlot i (p.reached i).now (p.reached i)
      refine settled.keepsLaws.trans (Part.keepsLaws_splitInto a i _ (Part.splitParent_distinct hparent) ?_)
      rintro id hid j hne ⟨c, hc, rfl⟩
      obtain ⟨d, hd, hdc⟩ := settled.within j c hc
      exact Part.not_holdsId_of_findId (Part.checkSplit_fresh hcheck _ hid) hne j ⟨d, hd, hdc⟩

theorem Part.carries_retireDocket (id : ContainerId) (p : Part) : p.Carries (p.retireDocket id) := by
  unfold Part.retireDocket
  split
  · exact p.carries_refuseDocket _
  · refine .trans ?_ (Part.carries_finishDocket _ _)
    refine .trans ?_ (Part.carries_offerDocket _ _)
    exact (p.carries_reached _).trans (Part.carries_freeSlot _ _ _)

theorem Container.quarantineByHost_id (k : ClassDef) (c : Container) : (c.quarantineByHost k).id = c.id :=
  warnRecord_id k c

theorem Part.carries_quarantineDocket (id : ContainerId) (p : Part) : p.Carries (p.quarantineDocket id) := by
  unfold Part.quarantineDocket
  split
  · exact p.carries_refuseDocket _
  next i c _ =>
    refine Part.carries_ite (p.carries_refuseDocket _) (.trans ?_ (Part.carries_finishDocket _ _))
    exact ((p.carries_reached i).trans (Part.carries_changeTo _ _ _ (Container.quarantineByHost_id _) _)).trans
      (Part.carries_offerDocket _ _)

theorem Part.carries_releaseDocket (a : ReleaseArgs) (p : Part) : p.Carries (p.releaseDocket a) := by
  unfold Part.releaseDocket
  split
  · exact p.carries_refuseDocket _
  · split
    · exact p.carries_refuseDocket _
    next i c _ =>
      refine Part.carries_ite (p.carries_refuseDocket _) (.trans ?_ (Part.carries_finishDocket _ _))
      exact ((p.carries_reached i).trans (Part.carries_changeTo _ _ _ (fun _ => by rfl) _)).trans
        (Part.carries_offerDocket _ _)

theorem Part.carries_reportContainer (i : Fin 2048) (c : Container) (reply : HostAddr) (fails : Bool) (p : Part) :
    p.Carries (p.reportContainer i c reply fails) :=
  Part.carries_ite ((p.carries_refuseDocket _).trans (Part.carries_accessFailed _))
    ((p.carries_hostWrite _ _).trans (Part.carries_finishDocket _ _))

theorem Part.carries_queryDocket (a : QueryArgs) (fails : Bool) (p : Part) : p.Carries (p.queryDocket a fails) := by
  unfold Part.queryDocket
  refine Part.carries_ite (p.carries_refuseDocket _) ?_
  split
  · exact p.carries_refuseDocket _
  next i c _ =>
    refine Part.carries_ite (.trans ?_ (Part.carries_reportContainer _ _ _ _ _)) (p.carries_reportContainer _ _ _ _)
    exact (p.carries_settleSlot i p.now).trans (Part.carries_ite (Part.carries_offerDocket _ _) (.refl _))

theorem Part.carries_setClassDocket (a : ClassArgs) (p : Part) : p.Carries (p.setClassDocket a) := by
  unfold Part.setClassDocket
  split
  · exact p.carries_refuseDocket _
  · exact ((p.carries_setCls _ _).trans (Part.carries_offerDocket _ _)).trans (Part.carries_finishDocket _ _)

/-! ### Movements -/

theorem Part.carries_transfer (i : Fin 2048) (old new : Container) (p : Part) : p.Carries (p.transfer i old new) :=
  Part.carries_ite (.trans (Part.carries_setZone (by rfl)) (Part.carries_moveCounts _ _ _ _ _ _))
    ((p.carries_leaveZone _ _).trans (Part.carries_joinZone _ _ _))

theorem Container.abandonBake_id (k : ClassDef) (c : Container) : (c.abandonBake k).id = c.id := by
  unfold Container.abandonBake
  split
  · exact limitRule_id k _
  · rfl

theorem Container.applyFlags_id (u r : Bool) (kind : ZoneKind) (c : Container) : (c.applyFlags u r kind).id = c.id := by
  unfold Container.applyFlags
  split
  · rfl
  · split <;> rfl

theorem Container.startBake_id (k : ClassDef) (kind : ZoneKind) (c : Container) : (c.startBake k kind).id = c.id := by
  unfold Container.startBake
  split
  · split <;> rfl
  · rfl

theorem Part.moveCounts_slots (z : Fin 64) (a b c d : Bool) (p : Part) : (p.moveCounts z a b c d).ctu = p.ctu := by
  unfold Part.moveCounts
  split
  · rfl
  · dsimp only
    obtain ⟨marks, hz⟩ := p.setZone_spec z { p.zone z with
      blocking := (p.zone z).blocking - a.toNat + c.toNat, warnedCount := (p.zone z).warnedCount - b.toNat + d.toNat }
    rw [Part.sameButDou_reportCounts, hz]
    rfl

theorem Part.setZone_ctu (z : Fin 64) (r : Zone) (p : Part) : (p.setZone z r).ctu = p.ctu := by
  obtain ⟨marks, hz⟩ := p.setZone_spec z r
  rw [hz]
  rfl

theorem Part.transfer_ctu (i : Fin 2048) (old new : Container) (p : Part) : (p.transfer i old new).ctu = p.ctu := by
  unfold Part.transfer Part.leaveZone Part.joinZone
  split <;> simp only [Part.moveCounts_slots, Part.setZone_ctu]

theorem Part.carries_applyMove {i : Fin 2048} (target : Fin 64) (u r : Bool) (t : Nat) {c : Container} {p : Part}
    (h : p.slot i = some c) : p.Carries (p.applyMove i target u r t c) := by
  unfold Part.applyMove
  refine .trans ?_ (Part.carries_postSlot _ _)
  refine .trans ?_ (Part.carries_reportLevel _ _ _)
  refine .trans ?_ (Part.carries_moveCounts _ _ _ _ _ _)
  refine .trans ?_ (Part.carries_placeDue _ _ _)
  refine (p.carries_transfer i c _).trans (Part.carries_setSlot (old := c) ?_ ?_)
  · simpa only [Part.slot, Part.transfer_ctu] using h
  · rw [Part.deriveRecord_id, Container.startBake_id]
    show (Container.applyFlags u r _ (c.abandonBake _)).id = c.id
    rw [Container.applyFlags_id, Container.abandonBake_id]

theorem Part.carries_touch (i : Fin 2048) (p : Part) : p.Carries (p.touch i) := Part.carries_of_same rfl

theorem Part.carries_moveTo (i : Fin 2048) (target : Fin 64) (e : MoveEntry) (t : Nat) (p : Part) :
    p.Carries (p.moveTo i target e t).1 := by
  refine (p.carries_settleSlot i t).trans ?_
  unfold Part.moveTo
  dsimp only
  split
  next c hc =>
    split
    · exact Part.carries_ite (Part.carries_touch _ _) (.refl _)
    · exact (Part.carries_applyMove target _ _ t hc).trans (Part.carries_touch _ _)
  next => exact .refl _

theorem Part.carries_handleEntry (e : MoveEntry) (p : Part) : p.Carries (p.handleEntry e).1 := by
  unfold Part.handleEntry
  split
  · exact .refl p
  · split
    · exact .refl p
    · split
      · exact .refl p
      · dsimp only
        split
        · exact .refl p
        · exact p.carries_moveTo _ _ _ _

theorem Part.carries_offerTouched (p : Part) : p.Carries p.offerTouched := by
  unfold Part.offerTouched
  split
  · exact Part.carries_foldl (fun p i => p.carries_offerDocket _) _ p
  · exact .refl p

theorem Part.carries_endList (busError : Bool) (p : Part) : p.Carries (p.endList busError) := by
  unfold Part.endList
  split
  · exact p.carries_offerTouched.trans (Part.carries_finishDocket _ _)
  · exact .refl p

theorem Part.carries_moveListDocket (a : MoveListArgs) (p : Part) : p.Carries (p.moveListDocket a) :=
  Part.carries_ite (.trans (Part.carries_of_same (by rfl)) (Part.carries_workDocket _)) (p.carries_refuseDocket _)

theorem Part.carries_moveEntry (fails : Bool) (p : Part) : p.Carries (p.moveEntry fails) := by
  unfold Part.moveEntry
  split
  next l _ =>
    have handled := p.carries_handleEntry (decodeMoveEntry (p.hostRead (l.entryAddr l.next) 16))
    generalize p.handleEntry (decodeMoveEntry (p.hostRead (l.entryAddr l.next) 16)) = x at handled ⊢
    obtain ⟨q, o⟩ := x
    refine handled.trans (Part.carries_ite ?failed ?written)
    case failed => exact ((q.carries_onList _).trans (Part.carries_endList _ _)).trans (Part.carries_accessFailed _)
    case written =>
      exact ((q.carries_hostWrite _ _).trans (Part.carries_onList _ _)).trans
        (Part.carries_ite (Part.carries_endList _ _) (.refl _))
  next => exact .refl p

theorem Part.carries_entryReadFails (notDone : Nat) (p : Part) : p.Carries (p.entryReadFails notDone) := by
  unfold Part.entryReadFails
  split
  · exact ((Part.carries_foldl (fun p k => p.carries_hostWrite _ _) _ p).trans (Part.carries_endList _ _)).trans
      (Part.carries_accessFailed _)
  · exact .refl p

/-! ### Deadlines and the resync -/

theorem Part.carries_ticked (t : Nat) (p : Part) : p.Carries (p.ticked t) := by
  have tick (d : Dlu) : (d.tick t).entries = d.entries := by
    unfold Dlu.tick Dlu.startPass
    split
    · rfl
    · exact Dlu.checkPass_entries _
  unfold Part.ticked
  refine .trans (Part.carries_ite ?_ (.refl p)) (Part.carries_ite (Part.carries_of_same (by rfl)) (.refl _))
  exact .trans (Part.carries_onDlu (by rw [tick]; exact id)) (Part.carries_onJnc _ _)

theorem Part.carries_secondTick (p : Part) : p.Carries p.secondTick := by
  unfold Part.secondTick
  split
  next h =>
    have counted : p.Carries { p with tbu := { p.tbu with counter := p.tbu.counter + 1 } } := by
      simp only [Bool.and_eq_true, decide_eq_true_eq] at h
      exact ⟨⟨id, id, id, fun _ => h.2⟩, fun _ c hc => ⟨c, hc, rfl⟩, id⟩
    exact counted.trans (Part.carries_ite (Part.carries_ticked _ _) (.refl _))
  next => exact .refl p

theorem Part.carries_pendingPassStart (p : Part) : p.Carries p.pendingPassStart := by
  unfold Part.pendingPassStart
  split
  · exact Part.carries_onDlu (by unfold Dlu.startPass; rw [Dlu.checkPass_entries]; exact id)
  · exact .refl p

theorem Part.carries_fire (kind : DueKind) (p : Part) : p.Carries (p.fire kind) := by
  unfold Part.fire
  split
  next e d h =>
    refine .trans ?_ (Part.carries_onDlu (by rw [Dlu.checkPass_entries]; exact id))
    refine .trans ?_ (Part.carries_imageIf _ _)
    exact .trans (Part.carries_onDlu (f := fun _ => d) fun ho => (Dlu.take_ordered ho h).1)
      (Part.carries_settleSlot _ _ _)
  next => exact .refl p

theorem Part.carries_stageDropMark (t : Nat) (p : Part) : p.Carries (p.stageDropMark t) :=
  (p.carries_enqueue _ _).trans (Part.carries_onJnc _ _)

theorem Part.carries_resyncEntry (p : Part) : p.Carries p.resyncEntry := by
  unfold Part.resyncEntry
  split
  · exact p.carries_stageDropMark _
  · split
    · exact p.carries_enqueue _ _
    · split
      · exact (p.carries_settleSlot _ _).trans (Part.carries_enqueue _ _ _)
      · exact Part.carries_ite (.refl p) ((p.carries_enqueue _ _).trans (Part.carries_onJnc _ _))

theorem Part.carries_resyncStage (p : Part) : p.Carries p.resyncStage :=
  Part.carries_ite (p.carries_resyncEntry.trans (Part.carries_pump _)) (.refl p)

end Sys2Proof.Machine

namespace Sys2Proof.Machine

/-! ### The exchange area -/

theorem Part.carries_takeDocket (bs : List Byte) (p : Part) : p.Carries (p.takeDocket bs) :=
  (p.carries_hostWrite _ _).trans (Part.carries_setInHand _ _)

theorem Part.carries_idleSweep (p : Part) : p.Carries p.idleSweep := Part.carries_of_same rfl

theorem Part.carries_sweepRead {onEnd : Part → Part} (h : ∀ p : Part, p.Carries (onEnd p)) (p : Part) :
    p.Carries (p.sweepRead onEnd) := Part.carries_ite (p.carries_takeDocket _) (h p)

theorem Part.carries_sweep (p : Part) : p.Carries p.sweep := by
  refine Part.carries_ite (.refl p) (Part.carries_sweepRead (fun p => ?_) p)
  exact Part.carries_ite (.trans (Part.carries_of_same (by rfl)) (Part.carries_sweepRead Part.carries_idleSweep _))
    p.carries_idleSweep

theorem Part.carries_beginSweep (p : Part) : p.Carries p.beginSweep :=
  Part.carries_ite (.refl p) (.trans (Part.carries_of_same (by rfl)) (Part.carries_sweep _))

theorem Part.carries_sweepRequest (p : Part) : p.Carries p.sweepRequest :=
  Part.carries_ite (Part.carries_ite (Part.carries_of_same (by rfl)) p.carries_beginSweep) (.refl p)

theorem Part.carries_dueSweep {p q : Part} (h : p.dueSweep = some q) : p.Carries q := by
  unfold Part.dueSweep at h
  split at h
  · rw [← Option.some.inj h]
    exact Part.carries_of_same rfl
  · cases h

theorem Part.carries_leaveRestoring (p : Part) : p.Carries p.leaveRestoring := by
  unfold Part.leaveRestoring
  split
  next q h => exact (Part.carries_dueSweep h).trans q.carries_beginSweep
  next => exact .refl p

theorem Part.carries_sweepExpiry (p : Part) : p.Carries p.sweepExpiry :=
  Part.carries_ite (.trans (Part.carries_of_same (by rfl)) (Part.carries_sweepRequest _)) (.refl p)

theorem Part.carries_cutList (p : Part) : p.Carries p.cutList := by
  unfold Part.cutList
  split
  · exact p.carries_offerTouched.trans (Part.carries_of_same (by rfl))
  · exact .refl p

theorem Part.carries_recover (p : Part) : p.Carries p.recover :=
  Part.carries_ite p.carries_powerOn ((p.carries_onJnc _).trans (Part.carries_pump _))

theorem Part.carries_resetSteps (p : Part) : p.Carries p.resetSteps :=
  ((p.carries_idleSweep.trans (Part.carries_cutList _)).trans
    (Part.carries_ite (.refl _) (Part.carries_closeStaging _ _))).trans (Part.carries_recover _)

theorem Part.carries_resetAfterFormat (p : Part) : p.Carries p.resetAfterFormat :=
  Part.carries_ite ((p.carries_onJnc _).trans (Part.carries_resetSteps _)) (.refl p)

theorem Part.carries_dropDocket (p : Part) : p.Carries p.dropDocket :=
  .trans (Part.carries_of_same (by rfl)) (Part.carries_setInHand _ _)

theorem Part.carries_nextDocket (p : Part) : p.Carries p.nextDocket :=
  Part.carries_ite (Part.carries_ite p.carries_idleSweep p.carries_sweep) (.refl p)

theorem Part.carries_answered {p q : Part} (h : p.answered = some q) : p.Carries q := by
  unfold Part.answered at h
  split at h
  next d a _ =>
    split at h
    · rw [← Option.some.inj h]
      exact p.carries_dropDocket
    · split at h
      · cases h
      · rw [← Option.some.inj h]
        have written := (p.carries_hostWrite (p.slotAddr d.slot + 48) (a.bytes (p.notDurable d))).trans
          (Part.carries_hostWrite ((p.writeAnswerFields d a).slotAddr d.slot) [3] _)
        have dropped := (written.trans ((Part.carries_of_same (by rfl)) : Part.Carries _
          ((p.writeAnswerFields d a).writeAnswered d).advanceCursor)).trans (Part.carries_dropDocket _)
        exact dropped.trans (Part.carries_ite (Part.carries_raise _ _) (.refl _))
  next => cases h

theorem Part.carries_answerDocket (p : Part) : p.Carries p.answerDocket := by
  unfold Part.answerDocket
  split
  next q h =>
    refine (Part.carries_answered h).trans (Part.carries_ite ?_ (Part.carries_ite ?_ q.carries_nextDocket))
    · exact q.carries_enterAccessFault.trans (Part.carries_resetAfterFormat _)
    · exact q.carries_resetAfterFormat
  next => exact .refl p

theorem Part.carries_intakeSet (p : Part) : p.Carries p.intakeSet :=
  Part.carries_ite (Part.carries_of_same (by rfl))
    (Part.carries_ite (.trans (Part.carries_of_same (by rfl)) (Part.carries_postAll _)) (Part.carries_of_same (by rfl)))

theorem Part.carries_intakeClear (p : Part) : p.Carries p.intakeClear := by
  unfold Part.intakeClear
  split
  · exact Part.carries_ite (.refl p) (Part.carries_of_same (by rfl))
  · exact Part.carries_of_same rfl
  · exact .refl p

theorem Part.carries_registerWrite (reg : WindowReg) (value : Word32) (p : Part) :
    p.Carries (p.registerWrite reg value) := by
  refine Part.carries_ite (.refl p) ?_
  cases reg
  case exbaseL | exbaseH | excfg => exact Part.carries_of_same rfl
  case engstat | etime => exact .refl p

theorem Part.carries_writeGroupItems (intake : IntakeState) (base : Word32) (items : List GroupWrite) (p : Part) :
    p.Carries (p.writeGroupItems intake base items) := by
  unfold Part.writeGroupItems
  exact Part.carries_foldl (fun p w => p.carries_hostWrite _ _) items p

theorem Part.carries_clearOpened (zs : List (Fin 64)) (p : Part) : p.Carries (p.clearOpened zs) := by
  unfold Part.clearOpened
  refine Part.carries_foldl (fun p n => ?_) _ p
  dsimp only
  split
  · exact Part.carries_ite (p.carries_setLine _ _) (.refl p)
  · exact .refl p

/-- A generation raised by two stays even (R153). -/
theorem generation_add_two_even {g : Word32} (h : g.getLsbD 0 = false) : (g + 2).getLsbD 0 = false := by
  simp only [BitVec.getLsbD, Nat.testBit_zero, BitVec.toNat_add, decide_eq_false_iff_not] at h ⊢
  have := (2 : Word32).toNat
  show ¬ (g.toNat + 2) % 2 ^ 32 % 2 = 1
  omega

/-- An update of the Exchange Interface that raises the generation by two from an EXI with the same generation. -/
theorem Part.carries_of_raised {p q : Part} (exi : Exi) (h : q = { p with exi := exi })
    (raised : exi.generation = p.exi.generation + 2) : p.Carries q where
  memories := by rw [h]; exact id
  generation hg := by
    rw [h]
    show exi.generation.getLsbD 0 = false
    rw [raised]
    exact generation_add_two_even hg
  deadlines := by rw [h]; exact id
  time := by rw [h]; exact id
  within i c hc := ⟨c, by rw [h] at hc; exact hc, rfl⟩
  holds := by rw [h]; exact id

theorem Part.exi_writeGroupItems (intake : IntakeState) (base : Word32) (items : List GroupWrite) (p : Part) :
    (p.writeGroupItems intake base items).exi = p.exi := by
  unfold Part.writeGroupItems
  induction items generalizing p with
  | nil => rfl
  | cons w ws ih => exact (ih _).trans rfl

theorem Part.exi_clearOpened (zs : List (Fin 64)) (p : Part) : (p.clearOpened zs).exi = p.exi := by
  unfold Part.clearOpened
  induction List.finRange 16 generalizing p with
  | nil => rfl
  | cons n ns ih =>
    refine (ih _).trans ?_
    dsimp only
    split
    · split <;> rfl
    · rfl

theorem Part.carries_writeBoard (intake : IntakeState) (p : Part) : p.Carries (p.writeBoard intake) := by
  have written := (p.carries_writeGroupItems intake p.exi.generation p.exi.groupWrites).trans
    (Part.carries_clearOpened p.exi.zoneMarks _)
  refine .trans (written.trans (Part.carries_of_raised _ rfl ?_)) (Part.carries_ite (Part.carries_raise _ _) (.refl _))
  rw [Part.exi_clearOpened, Part.exi_writeGroupItems]

theorem Part.carries_boardGroup (p : Part) : p.Carries p.boardGroup :=
  Part.carries_ite (p.carries_writeBoard _) (.refl p)

theorem Part.carries_intakeOff (p : Part) : p.Carries p.intakeOff :=
  Part.carries_ite ((p.carries_postHeader.trans (Part.carries_writeBoard _ _)).trans (Part.carries_of_same (by rfl)))
    (.refl p)

theorem Part.carries_writeTime (p : Part) : p.Carries p.writeTime := by
  unfold Part.writeTime
  split
  · exact Part.carries_ite ((p.carries_hostWrite _ _).trans (Part.carries_of_same (by rfl))) (.refl p)
  · exact .refl p

theorem Exi.groupUnderWay_generation {e e' : Exi} {last : Bool} (h : e.groupUnderWay last = some e') :
    e'.generation = e.generation := by
  unfold Exi.groupUnderWay at h
  split at h
  · split at h
    · rw [← Option.some.inj h]
    · cases h
  · split at h
    · rw [← Option.some.inj h]
    · cases h

theorem Part.carries_cutGroup {cut : GroupCut} {p : Part} {x : Part × Exi × List GroupWrite}
    (h : p.cutGroup cut = some x) : p.Carries x.1 := by
  unfold Part.cutGroup at h
  split at h
  next e he =>
    rw [← Option.some.inj h]
    refine (p.carries_writeGroupItems _ _ _).trans (Part.carries_of_raised _ rfl ?_)
    rw [Part.exi_writeGroupItems]
    exact congrArg (· + 2) (Exi.groupUnderWay_generation he)
  next => cases h

theorem Part.carries_groupFails (cut : GroupCut) (p : Part) : p.Carries (p.groupFails cut) := by
  unfold Part.groupFails
  split
  next q e made h =>
    have failed := ((Part.carries_cutGroup h).trans (Part.carries_of_same (by rfl))).trans (Part.carries_accessFailed
      { q with exi := { q.exi with
        headerMark := e.headerMark && !made.contains .header
        zoneMarks := e.zoneMarks.filter fun z => !made.contains (.zone z)
        slotMarks := e.slotMarks.filter fun i => !made.contains (.slot i)
        rise := false } })
    exact failed.trans (Part.carries_ite (Part.carries_raise _ _) (.refl _))
  next => exact .refl p

theorem Part.carries_busReset (cut : Option GroupCut) (p : Part) : p.Carries (p.busReset cut) := by
  unfold Part.busReset
  cases h : cut.bind p.cutGroup with
  | none => exact Part.carries_of_same rfl
  | some x =>
    obtain ⟨c, -, hc⟩ := Option.bind_eq_some_iff.1 h
    exact (Part.carries_cutGroup hc).trans (Part.carries_of_same (by rfl))

/-! ### Restore -/

theorem Part.keepsIds_setSlot {i : Fin 2048} {c old : Container} {p : Part} (hs : p.slot i = some old)
    (hid : c.id = old.id) : p.KeepsIds (p.setSlot i (some c)) :=
  (Part.carries_setSlot hs hid).keepsLaws.toKeepsIds

@[simp] theorem ContainerImage.record_id (k : ClassDef) (i : ContainerImage) : (i.record k).id = i.id := by
  simp [ContainerImage.record]

/-- R44: the slot that held the ID is freed first, so the image brings no second one. -/
theorem Part.keepsIds_replayImage (i : ContainerImage) (p : Part) : p.KeepsIds (p.replayImage i) := by
  have enter (q : Part) (c : Container) (hc : c.id = i.id)
      (others : ∀ j, j ≠ i.slot → i.id ≠ 0 → ¬ q.holdsId j i.id) : q.KeepsIds (q.setSlot i.slot (some c)) :=
    (Part.keepsLaws_setSlot_fresh fun j hj hne => hc ▸ others j hj (hc ▸ hne)).toKeepsIds
  have record (q : Part) : (q.withMode (i.record (q.classDef i.cls))).id = i.id := ContainerImage.record_id _ i
  refine ⟨?_, fun hu => ?_⟩
  · unfold Part.replayImage
    dsimp only
    split
    · split
      · exact ⟨id, id, id, id⟩
      · exact ⟨id, id, id, id⟩
    · exact ⟨id, id, id, id⟩
  · unfold Part.replayImage
    dsimp only
    split
    next j hj =>
      obtain ⟨-, hold⟩ := Part.findId_some hj
      obtain ⟨d, hd, hdid⟩ := hold
      have only (k : Fin 2048) (hne : i.id ≠ 0) (hk : p.holdsId k i.id) : k = j := by
        obtain ⟨c, hc, hcid⟩ := hk
        exact hu k j c d hc hd (hcid.trans hdid.symm) (hcid ▸ hne)
      split
      next heq =>
        exact (enter p _ (record p) fun k hk hne hold => hk ((only k hne hold).trans heq)).ids hu
      next =>
        refine (enter _ _ (record _) fun k hk hne hold => ?_).ids ((Part.carries_setSlot_none j p).keepsLaws.ids hu)
        obtain ⟨c, hc, hcid⟩ := hold
        rw [Part.slot_setSlot] at hc
        split at hc
        · cases hc
        next hjk => exact hjk (only k hne ⟨c, hc, hcid⟩).symm
    next hnone =>
      exact (enter p _ (record p) fun k _ hne =>
        Part.not_holdsId_of_findId (Option.isNone_iff_eq_none.2 hnone) hne k).ids hu

theorem Part.keepsIds_replayRetire (i : Fin 2048) (id : ContainerId) (p : Part) : p.KeepsIds (p.replayRetire i id) := by
  unfold Part.replayRetire
  split
  · exact (Part.carries_ite (Part.carries_setSlot_none _ _) (.refl p)).keepsLaws.toKeepsIds
  · exact .refl p

/-- A zone record, whatever it holds, concerns the drives alone. -/
theorem Part.keepsIds_putZone (z : Fin 64) (r : Zone) (p : Part) : p.KeepsIds (p.putZone z r) := ⟨⟨id, id, id, id⟩, id⟩

theorem Part.keepsIds_setLineHold (n : Fin 8) (r : LineHold) (p : Part) : p.KeepsIds (p.setLineHold n r) :=
  ⟨⟨id, id, id, id⟩, id⟩

theorem Part.Carries.keepsIds {p q : Part} (h : p.Carries q) : p.KeepsIds q := h.keepsLaws.toKeepsIds

theorem Part.keepsIds_replayChange (z : Fin 64) (t : Nat) (condition : Option Condition) (p : Part) :
    p.KeepsIds (p.replayChange z t condition) := by
  unfold Part.replayChange
  refine (p.keepsIds_putZone _ _).trans (Part.keepsIds_foldl (fun p i => ?_) _ _)
  split
  next c hc =>
    split
    · exact Part.keepsIds_setSlot hc (by
        show (Part.deriveRecord _ _ p).1.id = c.id
        rw [Part.deriveRecord_id, settleRecord_id])
    · exact .refl p
  next => exact .refl p

theorem Part.keepsIds_replayZone (z : Fin 64) (i : ZoneImage) (p : Part) : p.KeepsIds (p.replayZone z i) := by
  unfold Part.replayZone
  dsimp only
  split
  · exact (p.keepsIds_putZone _ _).trans (Part.keepsIds_putZone _ _ _)
  · exact (p.keepsIds_putZone _ _).trans (Part.keepsIds_replayChange _ _ _ _)

theorem Part.keepsIds_replayCondition (z : Fin 64) (i : ZoneConditionImage) (p : Part) :
    p.KeepsIds (p.replayCondition z i) := by
  unfold Part.replayCondition
  exact (p.keepsIds_putZone _ _).trans (Part.keepsIds_replayChange _ _ _ _)

theorem Part.carries_replayGroups (g : GroupsImage) (p : Part) : p.Carries (p.replayGroups g) := by
  unfold Part.replayGroups
  exact ((Part.carries_foldl (fun p n => p.carries_setGroup _ _) _ p).trans (Part.carries_setBus _ _ _)).trans
    (Part.carries_setBus _ _ _)

theorem Part.keepsIds_replayOutputs (o : OutputsImage) (p : Part) : p.KeepsIds (p.replayOutputs o) := by
  unfold Part.replayOutputs
  refine .trans (.trans (Part.keepsIds_foldl (fun p n => p.keepsIds_setLineHold _ _) _ p)
    (Part.keepsIds_foldl (fun p n => (p.carries_setLamp _ _).keepsIds) _ _))
      (Part.Carries.keepsIds (Part.carries_of_same (by rfl)))

theorem Part.keepsIds_replayEntry (pl : Payload) (p : Part) : p.KeepsIds (p.replayEntry pl) := by
  cases pl
  case containerImage i => exact p.keepsIds_replayImage i
  case retireEntry i id => exact p.keepsIds_replayRetire i id
  case zoneImage z i => exact p.keepsIds_replayZone z i
  case zoneCondition z i => exact p.keepsIds_replayCondition z i
  case classImage n i => exact (p.carries_setCls _ _).keepsIds
  case engineImage s => exact Part.Carries.keepsIds (Part.carries_of_same (by rfl))
  case probeImage n c => exact (p.carries_setProbe _ _).keepsIds
  case groupsImage g => exact (p.carries_replayGroups g).keepsIds
  case doorImage n d => exact (p.carries_setLine _ _).keepsIds
  case outputsImage o => exact p.keepsIds_replayOutputs o
  all_goals exact .refl p

theorem Replay.derating_keepsIds (r : Replay) (pl : Payload) : r.part.KeepsIds (r.derating pl).part := by
  unfold Replay.derating
  split
  · exact .refl _
  · exact .refl _
  · split
    · exact Part.Carries.keepsIds (Part.carries_of_same (by rfl))
    · exact .refl _
  · exact .refl _

theorem Replay.marks_part (r : Replay) (sector : Nat) (pl : Payload) : (r.marks sector pl).part = r.part := by
  cases pl <;> rfl

theorem Replay.step_keepsIds (r : Replay) (e : Nat × Payload × EntryRead) : r.part.KeepsIds (r.step e).part := by
  unfold Replay.step
  dsimp only
  split
  · exact .refl _
  · rw [Replay.marks_part]
    generalize hq : Part.onJnc _ (r.part.replayEntry e.2.1) = q
    have entered : r.part.KeepsIds q :=
      (r.part.keepsIds_replayEntry e.2.1).trans (hq ▸ (Part.carries_onJnc _ _).keepsIds)
    exact entered.trans (Replay.derating_keepsIds
      { r with part := q, last := e.2.2.seq, tLast := max r.tLast e.2.2.time } e.2.1)

theorem Replay.foldl_keepsIds (es : List (Nat × Payload × EntryRead)) (r : Replay) :
    r.part.KeepsIds (es.foldl Replay.step r).part := by
  induction es generalizing r with
  | nil => exact .refl _
  | cons e es ih => exact (r.step_keepsIds e).trans (ih _)

theorem Part.carries_seedClasses (es : List (Nat × Payload × EntryRead)) (p : Part) : p.Carries (p.seedClasses es) := by
  unfold Part.seedClasses
  refine Part.carries_foldl (fun p e => ?_) es p
  split
  · exact p.carries_setCls _ _
  · exact .refl p

theorem Part.keepsIds_bindOutput (z : Fin 64) (p : Part) : p.KeepsIds (p.bindOutput z) := by
  unfold Part.bindOutput
  split
  · exact p.keepsIds_setLineHold _ _
  · exact .refl p

/-- Both drives of every number in turn. -/
theorem Part.driven_foldl_derive {n : Fin 8} (xs : List (Fin 8)) {p : Part} :
    (xs.foldl (fun p m => (p.deriveHold m).deriveLamp m) p).driven n ↔ n ∈ xs ∨ p.driven n := by
  induction xs generalizing p with
  | nil => simp
  | cons x xs ih => rw [List.foldl_cons, ih, Part.driven_deriveLamp, Part.driven_deriveHold, List.mem_cons]; tauto

theorem Part.carries_derive (n : Fin 8) (p : Part) : p.Carries ((p.deriveHold n).deriveLamp n) :=
  (p.carries_deriveHold n).trans (Part.carries_deriveLamp n _)

/-- The live containers take their modes. -/
def Part.withModes (p : Part) : Part :=
  p.liveSlots.foldl (fun p i => match p.slot i with
    | some c => p.setSlot i (some (p.withMode c))
    | none => p) p

/-- The use counts, the zones and the output bindings that the records imply. -/
def Part.withRecords (records : List (Fin 2048 × Container)) (p : Part) : Part :=
  let p := (List.finRange 16).foldl (fun p n =>
    p.setCls n { p.cls n with useCount := (records.filter fun x => x.2.cls == n).length }) p
  (List.finRange 64).foldl (fun p z => (p.putZone z ((p.zone z).rebuilt z records)).bindOutput z) p

/-- Every output and every lamp is derived. -/
def Part.withDrives (p : Part) : Part := (List.finRange 8).foldl (fun p n => (p.deriveHold n).deriveLamp n) p

/-- The alert counts that the records imply. -/
def Part.withLevels (records : List (Fin 2048 × Container)) (p : Part) : Part :=
  let level (l : AlertLevel) : Nat := (records.filter fun x => x.2.level == l).length
  p.onDlu fun d => { d with warnCount := level .warn, expiredCount := level .expired
                            quarantinedCount := level .quarantined }

theorem Part.rebuild_eq (p : Part) : p.rebuild =
    (((p.withModes.withRecords p.withModes.records).withDrives).withLevels p.withModes.records).postAll := rfl

theorem Part.keepsIds_withModes (p : Part) : p.KeepsIds p.withModes := by
  unfold Part.withModes
  refine Part.keepsIds_foldl (fun p i => ?_) _ p
  split
  next c hc => exact Part.keepsIds_setSlot hc rfl
  next => exact .refl p

theorem Part.keepsIds_withRecords (records : List (Fin 2048 × Container)) (p : Part) :
    p.KeepsIds (p.withRecords records) := by
  unfold Part.withRecords
  refine .trans (Part.keepsIds_foldl (fun p n => (p.carries_setCls _ _).keepsIds) _ p)
    (Part.keepsIds_foldl (fun p z => ?_) _ _)
  exact (p.keepsIds_putZone _ _).trans (Part.keepsIds_bindOutput _ _)

theorem Part.withDrives_spec (p : Part) : p.Carries p.withDrives ∧ p.withDrives.holdsDriven :=
  ⟨Part.carries_foldl (fun p n => p.carries_derive n) _ p,
    fun n => (Part.driven_foldl_derive _).2 (.inl (List.mem_finRange n))⟩

theorem Part.carries_withLevels (records : List (Fin 2048 × Container)) (p : Part) :
    p.Carries (p.withLevels records) := by
  unfold Part.withLevels
  exact Part.carries_onDlu id

/-- The tables rebuilt: every output is derived at the end, so the drives stand whatever replay left. -/
theorem Part.rebuild_spec (p : Part) : p.KeepsIds p.rebuild ∧ p.rebuild.holdsDriven := by
  rw [Part.rebuild_eq]
  obtain ⟨derived, driven⟩ := (p.withModes.withRecords p.withModes.records).withDrives_spec
  have shown := (Part.carries_withLevels p.withModes.records
    (p.withModes.withRecords p.withModes.records).withDrives).trans (Part.carries_postAll _)
  exact ⟨((p.keepsIds_withModes.trans (Part.keepsIds_withRecords _ _)).trans derived.keepsIds).trans shown.keepsIds,
    shown.holds driven⟩

theorem Part.carries_reconcileMark (N : Nat) (p : Part) : p.Carries (p.reconcileMark N) :=
  Part.carries_ite (((p.carries_onJnc _).trans (Part.carries_postHeader _)).trans
    (Part.carries_ite ((Part.carries_stageDropMark _ _).trans (Part.carries_pump _)) (.refl _))) (.refl p)

@[simp] theorem chargeRecord_id (k : ClassDef) (rate seconds N : Nat) (c : Container) :
    (chargeRecord k rate seconds N c).id = c.id := by
  unfold chargeRecord
  split
  · exact limitRule_id k _
  · rfl

theorem reconcileRecord_id (k : ClassDef) (rate N tLast : Nat) (drop : Option Nat) (c : Container) :
    (reconcileRecord k rate N tLast drop c).id = c.id := by
  cases drop <;> simp [reconcileRecord]

theorem Part.carries_reconcileSlot (N : Nat) (r : RestoreRecord) (i : Fin 2048) (p : Part) :
    p.Carries (p.reconcileSlot N r i) := by
  unfold Part.reconcileSlot
  split
  next c hc => exact Part.carries_commitRecord hc (by
    show (Part.deriveRecord _ _ p).1.id = c.id
    rw [Part.deriveRecord_id, reconcileRecord_id])
  next => exact .refl p

theorem Part.carries_reconcile (N : Nat) (p : Part) : p.Carries (p.reconcile N) := by
  unfold Part.reconcile
  split
  · exact (((Part.carries_foldl (fun p i => p.carries_reconcileSlot N _ i) _ p).trans
      (Part.carries_reconcileMark _ _)).trans (Part.carries_onJnc _ _)).trans (Part.carries_postHeader _)
  · exact .refl p

theorem Part.carries_findJournal (serial : Nat) (p : Part) : p.Carries (p.findJournal serial).1 := by
  unfold Part.findJournal
  dsimp only
  split
  next => exact Part.carries_of_same rfl
  next => exact Part.carries_of_same rfl

theorem Part.keepsLaws_replayAll (serial formatTime : Nat) (p : Part) : p.KeepsLaws (p.replayAll serial formatTime) :=
    by
  have found := p.carries_findJournal serial
  unfold Part.replayAll
  generalize p.findJournal serial = x at found ⊢
  obtain ⟨q, entries⟩ := x
  dsimp only at found ⊢
  have seeded := found.trans (q.carries_seedClasses entries)
  have replayed := Replay.foldl_keepsIds entries
    { part := q.seedClasses entries, last := 0, tLast := formatTime, openDrop := none, dropAt := none
      imagedAfter := [], lower := none, upper := none }
  generalize entries.foldl Replay.step _ = r at replayed ⊢
  obtain ⟨rebuilt, driven⟩ := r.part.rebuild_spec
  have all : p.KeepsLaws r.part.rebuild :=
    { (seeded.keepsIds.trans replayed).trans rebuilt with holds := fun _ => driven }
  exact all.trans
    ((Part.carries_onJnc _ _).trans (Part.carries_foldl (fun p n => p.carries_setLine _ _) _ _)).keepsLaws

theorem Part.keepsLaws_restoreFlash (p : Part) : p.KeepsLaws p.restoreFlash := by
  unfold Part.restoreFlash
  split
  · exact (p.carries_failJournal.trans (Part.carries_setEngine _ _)).keepsLaws
  · split
    · exact (p.carries_setEngine _).keepsLaws
    · exact (p.keepsLaws_replayAll _ _).trans ((Part.carries_pump _).trans
        (Part.carries_ite (Part.carries_reconcile _ _) (Part.carries_setEngine _ _))).keepsLaws

theorem Part.keepsLaws_restored (idReply : Byte) (p : Part) : p.KeepsLaws (p.restored idReply) :=
  .trans (Part.Carries.keepsLaws (Part.carries_of_same (by rfl))) (Part.keepsLaws_restoreFlash _)

theorem Part.keepsLaws_restore (idReply : Byte) (p : Part) : p.KeepsLaws (p.restore idReply) := by
  unfold Part.restore
  split
  · exact (p.keepsLaws_restored idReply).trans (Part.carries_leaveRestoring _).keepsLaws
  · exact .refl p

theorem Part.carries_nowRunning (p : Part) : p.Carries p.nowRunning :=
  ((((p.carries_onJnc _).trans (Part.carries_setEngine _ _)).trans (Part.carries_startProbes _)).trans
    (Part.carries_switchOnSteady _)).trans (Part.carries_startDoors _)

theorem Part.carries_enterRunning (p : Part) : p.Carries p.enterRunning :=
  Part.carries_ite (Part.carries_ite (p.carries_nowRunning.trans (Part.carries_leaveRestoring _)) p.carries_nowRunning)
    (.refl p)

/-! ### Time, FORMAT, supplies and resets -/

theorem Part.carries_setClock {t : Nat} (h : t ≤ Config.lastSecond) (p : Part) : p.Carries (p.setClock t) :=
  ⟨⟨id, id, id, fun _ => h⟩, fun _ c hc => ⟨c, hc, rfl⟩, id⟩

theorem Part.carries_awaitRun (p : Part) : p.Carries p.awaitRun := by
  unfold Part.awaitRun
  split
  · exact p.carries_setInHand _
  · exact .refl p

theorem Part.carries_setTimeDocket (t : Nat) (p : Part) : p.Carries (p.setTimeDocket t) := by
  unfold Part.setTimeDocket
  split
  · exact p.carries_refuseDocket _
  · exact p.carries_refuseDocket _
  · split
    · exact p.carries_refuseDocket _
    next h => exact (Part.carries_setClock (Nat.not_lt.1 h) p).trans (Part.carries_finishDocket _ _)
  · split
    · split
      · exact p.carries_refuseDocket _
      next h =>
        refine .trans (.trans ?_ (Part.carries_finishDocket _ _)) (Part.carries_awaitRun _)
        exact ((Part.carries_setClock (Nat.not_lt.1 fun hl => h (.inl hl)) p).trans
          (Part.carries_offerDocket _ _)).trans (Part.carries_reconcile _ _)
    · exact p.carries_refuseDocket _

theorem Part.carries_formatDocket (p : Part) : p.Carries p.formatDocket :=
  Part.carries_ite (((p.carries_onJnc _).trans (Part.carries_workDocket _)).trans (Part.carries_pump _))
    (p.carries_refuseDocket _)

theorem Part.carries_mainPowerOn (idReply : Byte) (backup : Bool) (p : Part) :
    p.Carries (p.mainPowerOn idReply backup) := by
  refine Part.carries_ite (.refl p) (.trans ?_ (Part.carries_powerOn _))
  refine ⟨⟨id, id, id, fun h => ?_⟩, fun _ c hc => ⟨c, hc, rfl⟩, id⟩
  show (if p.tbu.backupSupply then p.tbu else { p.tbu with counter := 0, timeValid := false }).counter ≤ _
  split
  · exact h
  · exact Nat.zero_le _

theorem Flash.unformatted_wf {f : Flash} (h : f.cells.wf flashBlank = true) :
    f.unformatted.cells.wf flashBlank = true := by
  unfold Flash.unformatted
  split
  · exact Memory.write_wf h _ _
  · exact h

theorem Part.carries_interruptFlash (left : List Byte) (p : Part) : p.Carries (p.interruptFlash left) := by
  unfold Part.interruptFlash
  refine Part.carries_flash fun h => ?_
  have unformat (c : Prop) [Decidable c] {f : Flash} (hf : f.cells.wf flashBlank = true) :
      (if c then f.unformatted else f).cells.wf flashBlank = true := by
    split
    · exact Flash.unformatted_wf hf
    · exact hf
  refine unformat _ ?_
  cases p.jnc.port.job with
  | none =>
    cases p.jnc.port.suspended with
    | none => exact h
    | some e => exact Memory.write_wf h _ _
  | some job =>
    cases job with
    | program step =>
      have programmed (bs : List Byte) := Flash.program_wf h (p.programTarget step).1 bs
      cases p.jnc.port.suspended with
      | none => exact programmed _
      | some e => exact Memory.write_wf (programmed _) _ _
    | erase e =>
      cases p.jnc.port.suspended with
      | none => exact Memory.write_wf h _ _
      | some e => exact Memory.write_wf (Memory.write_wf h _ _) _ _

theorem Part.carries_mainPowerLoss (left : List Byte) (p : Part) : p.Carries (p.mainPowerLoss left) :=
  ((p.carries_interruptFlash left).trans (Part.carries_powerOn _)).trans (Part.carries_of_same (by rfl))

theorem Part.carries_backupFail (p : Part) : p.Carries p.backupFail :=
  Part.carries_ite (.trans (Part.carries_of_same (by rfl)) (Part.carries_postHeader _)) (Part.carries_of_same (by rfl))

theorem Part.carries_powerFailWarning (p : Part) : p.Carries p.powerFailWarning :=
  Part.carries_ite (.refl p) (.trans (((p.carries_idleSweep.trans (Part.carries_cutList _)).trans
    (Part.carries_closeStaging _ _)).trans (Part.carries_of_same (by rfl))) (Part.carries_pump _))

theorem Part.carries_powerRecovery (p : Part) : p.Carries p.powerRecovery :=
  Part.carries_ite (.trans (Part.carries_of_same (by rfl)) (Part.carries_recover _)) (.refl p)

theorem Part.carries_softReset (p : Part) : p.Carries p.softReset :=
  .trans (Part.carries_of_same (by rfl)) (Part.carries_ite (Part.carries_onJnc _ _) (Part.carries_resetSteps _))

/-! ### Failed accesses -/

theorem Part.keepsLaws_atSlotRead {origin : SweepOrigin} {p q : Part} (h : p.atSlotRead origin = some q) :
    p.KeepsLaws q := by
  cases origin with
  | asked =>
    dsimp only [Part.atSlotRead] at h
    split at h
    · split at h
      · rw [← Option.some.inj h]
        exact .refl p
      · cases h
    · exact (Part.carries_answered (Option.filter_eq_some_iff.1 h).1).keepsLaws
  | restored idReply =>
    dsimp only [Part.atSlotRead] at h
    split at h
    · exact (p.keepsLaws_restored idReply).trans (Part.carries_dueSweep (Option.filter_eq_some_iff.1 h).1).keepsLaws
    · cases h
  | entered =>
    dsimp only [Part.atSlotRead] at h
    split at h
    · exact (p.carries_nowRunning.trans (Part.carries_dueSweep (Option.filter_eq_some_iff.1 h).1)).keepsLaws
    · cases h

theorem Part.carries_answerFails (ownerWrite : Bool) (p : Part) : p.Carries (p.answerFails ownerWrite) := by
  unfold Part.answerFails
  split
  next d a _ =>
    have written : p.Carries (if ownerWrite then p.writeAnswerFields d a else p) :=
      Part.carries_ite (p.carries_hostWrite _ _) (.refl p)
    split
    · exact .refl p
    · exact ((written.trans (Part.carries_dropDocket _)).trans (Part.carries_accessFailed _)).trans
        (Part.carries_resetAfterFormat _)
  next => exact .refl p

theorem Part.carries_docketReadFails (notDone : Nat) (p : Part) : p.Carries (p.docketReadFails notDone) := by
  unfold Part.docketReadFails
  split
  · exact p.carries_setConditionsDocket _ _
  · exact .refl p
  · exact p.carries_entryReadFails _

theorem Part.carries_docketWriteFails (p : Part) : p.Carries p.docketWriteFails := by
  unfold Part.docketWriteFails
  split
  · exact p.carries_queryDocket _ _
  · exact p.carries_queryProbeDocket _ _
  · exact .refl p
  · exact p.carries_moveEntry _

theorem Part.keepsLaws_hostAccessFails (access : FailedAccess) (p : Part) : p.KeepsLaws (p.hostAccessFails access) := by
  cases access with
  | slotRead origin =>
    unfold Part.hostAccessFails
    dsimp only
    split
    next q h => exact (Part.keepsLaws_atSlotRead h).trans q.carries_accessFailed.keepsLaws
    next => exact .refl p
  | takenWrite origin =>
    unfold Part.hostAccessFails
    dsimp only
    split
    next q h =>
      split
      · exact (Part.keepsLaws_atSlotRead h).trans q.carries_accessFailed.keepsLaws
      · exact .refl p
    next => exact .refl p
  | docketRead n => exact (p.carries_docketReadFails n).keepsLaws
  | docketWrite => exact p.carries_docketWriteFails.keepsLaws
  | answerFields => exact (p.carries_answerFails false).keepsLaws
  | answerOwner => exact (p.carries_answerFails true).keepsLaws
  | groupWrite cut => exact (p.carries_groupFails cut).keepsLaws
  | engineTime =>
    exact (Part.carries_ite (.trans (Part.carries_of_same (by rfl)) (Part.carries_accessFailed _)) (.refl p)).keepsLaws

end Sys2Proof.Machine

namespace Sys2Proof.Machine

/-! ### The step -/

theorem Part.carries_idleTick (p : Part) : p.Carries p.idleTick :=
  Part.carries_ite (Part.carries_of_same (by rfl)) (.refl p)

theorem State.keepsLaws_powered {f : Part → Part} (h : ∀ p : Part, p.KeepsLaws (f p)) (s : State) :
    s.part.KeepsLaws (s.powered f).part := by
  unfold State.powered
  split
  · exact h s.part
  · exact .refl _

theorem State.carries_powered {f : Part → Part} (h : ∀ p : Part, p.Carries (f p)) (s : State) :
    s.part.KeepsLaws (s.powered f).part := s.keepsLaws_powered fun p => (h p).keepsLaws

/-- Every command has a next state, and keeps the laws. -/
theorem exec_keepsLaws (c : Instr) (s : State) : ∃ t, exec c s = .next t ∧ s.part.KeepsLaws t.part := by
  have stored {f : Part → Part} (stores : Stores) (h : ∀ p : Part, p.KeepsLaws (f p)) :
      s.part.KeepsLaws (s.powered fun p => f (p.hostStores stores)).part :=
    s.keepsLaws_powered fun p => (p.carries_hostStores stores).keepsLaws.trans (h _)
  cases c
  case mainPowerOn idReply backup => exact ⟨_, rfl, (s.part.carries_mainPowerOn idReply backup).keepsLaws⟩
  case restore input => exact ⟨_, rfl, stored input.stores (Part.keepsLaws_restore input.idReply)⟩
  case restoreDoorSample line => exact ⟨_, rfl, s.carries_powered (Part.carries_doorSample line)⟩
  case enterRunning stores => exact ⟨_, rfl, stored stores fun p => p.carries_enterRunning.keepsLaws⟩
  case busReset cut => exact ⟨_, rfl, s.carries_powered (Part.carries_busReset cut)⟩
  case powerFailWarning => exact ⟨_, rfl, s.carries_powered Part.carries_powerFailWarning⟩
  case powerRecovery => exact ⟨_, rfl, s.carries_powered Part.carries_powerRecovery⟩
  case backupSupplyFail => exact ⟨_, rfl, s.part.carries_backupFail.keepsLaws⟩
  case softReset => exact ⟨_, rfl, s.carries_powered Part.carries_softReset⟩
  case intakeSet => exact ⟨_, rfl, s.carries_powered Part.carries_intakeSet⟩
  case intakeClear => exact ⟨_, rfl, s.carries_powered Part.carries_intakeClear⟩
  case intakeOffComplete => exact ⟨_, rfl, s.carries_powered Part.carries_intakeOff⟩
  case nudge _ stores => exact ⟨_, rfl, stored stores fun p => p.carries_sweepRequest.keepsLaws⟩
  case intcauseWrite value => exact ⟨_, rfl, s.carries_powered fun _ => Part.carries_of_same (by rfl)⟩
  case intmaskWrite value => exact ⟨_, rfl, s.carries_powered fun _ => Part.carries_of_same (by rfl)⟩
  case registerWrite reg value => exact ⟨_, rfl, s.carries_powered (Part.carries_registerWrite reg value)⟩
  case sweepTimerExpiry stores => exact ⟨_, rfl, stored stores fun p => p.carries_sweepExpiry.keepsLaws⟩
  case answerDocket stores => exact ⟨_, rfl, stored stores fun p => p.carries_answerDocket.keepsLaws⟩
  case enroll =>
    refine ⟨_, rfl, s.keepsLaws_powered fun p => ?_⟩
    split
    · exact p.keepsLaws_enrollDocket _
    · exact .refl p
  case split =>
    refine ⟨_, rfl, s.keepsLaws_powered fun p => ?_⟩
    split
    · exact p.keepsLaws_splitDocket _
    · exact .refl p
  case retire =>
    refine ⟨_, rfl, s.carries_powered fun p => ?_⟩
    split
    · exact p.carries_retireDocket _
    · exact .refl p
  case quarantine =>
    refine ⟨_, rfl, s.carries_powered fun p => ?_⟩
    split
    · exact p.carries_quarantineDocket _
    · exact .refl p
  case release =>
    refine ⟨_, rfl, s.carries_powered fun p => ?_⟩
    split
    · exact p.carries_releaseDocket _
    · exact .refl p
  case query =>
    refine ⟨_, rfl, s.carries_powered fun p => ?_⟩
    split
    · exact p.carries_queryDocket _ _
    · exact .refl p
  case moveList =>
    refine ⟨_, rfl, s.carries_powered fun p => ?_⟩
    split
    · exact p.carries_moveListDocket _
    · exact .refl p
  case moveEntry stores => exact ⟨_, rfl, stored stores fun p => (p.carries_moveEntry false).keepsLaws⟩
  case setClass =>
    refine ⟨_, rfl, s.carries_powered fun p => ?_⟩
    split
    · exact p.carries_setClassDocket _
    · exact .refl p
  case setEngine =>
    refine ⟨_, rfl, s.carries_powered fun p => ?_⟩
    split
    · exact p.carries_setEngineDocket _
    · exact .refl p
  case setZone =>
    refine ⟨_, rfl, s.carries_powered fun p => ?_⟩
    split
    · exact p.carries_setZoneDocket _
    · exact .refl p
  case setConditions stores =>
    refine ⟨_, rfl, s.carries_powered fun p => (p.carries_hostStores stores).trans ?_⟩
    dsimp only
    split
    · exact Part.carries_setConditionsDocket _ _ _
    · exact .refl _
  case setProbe =>
    refine ⟨_, rfl, s.carries_powered fun p => ?_⟩
    split
    · exact p.carries_setProbeDocket _
    · exact .refl p
  case setGroup =>
    refine ⟨_, rfl, s.carries_powered fun p => ?_⟩
    split
    · exact p.carries_setGroupDocket _
    · exact .refl p
  case queryProbe =>
    refine ⟨_, rfl, s.carries_powered fun p => ?_⟩
    split
    · exact p.carries_queryProbeDocket _ _
    · exact .refl p
  case setDoor =>
    refine ⟨_, rfl, s.carries_powered fun p => ?_⟩
    split
    · exact p.carries_setDoorDocket _
    · exact .refl p
  case setOutput =>
    refine ⟨_, rfl, s.carries_powered fun p => ?_⟩
    split
    · exact p.carries_setOutputDocket _
    · exact .refl p
  case setTime =>
    refine ⟨_, rfl, s.carries_powered fun p => ?_⟩
    split
    · exact p.carries_setTimeDocket _
    · exact .refl p
  case format idReply =>
    refine ⟨_, rfl, s.carries_powered fun p => ?_⟩
    split
    · exact .trans (Part.carries_of_same (by rfl)) (Part.carries_formatDocket _)
    · exact .refl p
  case secondTick => exact ⟨_, rfl, s.part.carries_secondTick.keepsLaws⟩
  case engineTimeWrite => exact ⟨_, rfl, s.carries_powered Part.carries_writeTime⟩
  case pendingPassStart => exact ⟨_, rfl, s.carries_powered Part.carries_pendingPassStart⟩
  case warnDue => exact ⟨_, rfl, s.carries_powered (Part.carries_fire .warnDue)⟩
  case expireDue => exact ⟨_, rfl, s.carries_powered (Part.carries_fire .expireDue)⟩
  case bakeDue => exact ⟨_, rfl, s.carries_powered (Part.carries_fire .bakeDue)⟩
  case staleTimeReached probe reach => exact ⟨_, rfl, s.carries_powered (Part.carries_staleReached probe reach)⟩
  case doorAjarLimit zone => exact ⟨_, rfl, s.carries_powered (Part.carries_ajarLimit zone)⟩
  case timeMarkInterval =>
    exact ⟨_, rfl, s.carries_powered fun p => Part.carries_ite (p.carries_offerInternal _) (.refl p)⟩
  case pollTimerExpiry probe => exact ⟨_, rfl, s.carries_powered (Part.carries_pollExpiry probe)⟩
  case groupReadyPoint group => exact ⟨_, rfl, s.carries_powered (Part.carries_groupReady group)⟩
  case pollAttemptStart bus reply reach =>
    exact ⟨_, rfl, s.carries_powered (Part.carries_startAttempt bus reply reach)⟩
  case conversionTimeExpiry bus ack reach =>
    exact ⟨_, rfl, s.carries_powered (Part.carries_conversionDone bus ack reach)⟩
  case probeResponse bus bytes reach => exact ⟨_, rfl, s.carries_powered (Part.carries_response bus bytes reach)⟩
  case busHeld bus reach => exact ⟨_, rfl, s.carries_powered (Part.carries_busHeld bus reach)⟩
  case retryGapExpiry bus dataLow => exact ⟨_, rfl, s.carries_powered (Part.carries_retry bus dataLow)⟩
  case doorInputChange line high => exact ⟨_, rfl, (s.part.carries_setLine _ _).keepsLaws⟩
  case doorFilterExpiry line reach => exact ⟨_, rfl, s.carries_powered (Part.carries_filterExpiry line reach)⟩
  case lampStepExpiry lamp => exact ⟨_, rfl, s.carries_powered (Part.carries_lampStep lamp)⟩
  case waitingTriggerTaken zone reach => exact ⟨_, rfl, s.carries_powered (Part.carries_takeWaiting zone reach)⟩
  case boardGroupWrite => exact ⟨_, rfl, s.carries_powered Part.carries_boardGroup⟩
  case hostAccessFailure failure =>
    exact ⟨_, rfl, stored failure.stores (Part.keepsLaws_hostAccessFails failure.access)⟩
  case docketStagingResume => exact ⟨_, rfl, s.carries_powered Part.carries_resumeWaiting⟩
  case programComplete reply => exact ⟨_, rfl, s.carries_powered (Part.carries_programComplete reply)⟩
  case eraseSuspend => exact ⟨_, rfl, s.carries_powered Part.carries_suspendErase⟩
  case flashTimeout op => exact ⟨_, rfl, s.carries_powered (Part.carries_flashTimeout op)⟩
  case resyncStage => exact ⟨_, rfl, s.carries_powered Part.carries_resyncStage⟩
  case compactionImages => exact ⟨_, rfl, s.carries_powered Part.carries_compactionImages⟩
  case compactionTimeMark => exact ⟨_, rfl, s.carries_powered Part.carries_compactionTimeMark⟩
  case compactionErase => exact ⟨_, rfl, s.carries_powered Part.carries_compactionErase⟩
  case eraseComplete reply => exact ⟨_, rfl, s.carries_powered (Part.carries_eraseComplete reply)⟩
  case mainPowerLoss left => exact ⟨_, rfl, s.carries_powered (Part.carries_mainPowerLoss left)⟩
  case probeBusFree bus ack reach => exact ⟨_, rfl, s.carries_powered (Part.carries_busFree bus ack reach)⟩
  case busyOutlastsBound => exact ⟨_, rfl, s.carries_powered Part.carries_busyOutlasts⟩

/-- A step, a command or the internal tick, keeps the laws. -/
theorem step_keepsLaws {s t : State} (h : step s = .next t) : s.part.KeepsLaws t.part := by
  unfold step at h
  split at h
  next c rest _ =>
    obtain ⟨u, hu, kept⟩ := exec_keepsLaws c { s with pending := rest }
    rw [hu] at h
    exact Host.Outcome.next.inj h ▸ kept
  next => exact Host.Outcome.next.inj h ▸ s.part.carries_idleTick.keepsLaws

/-! ### The statements -/

/-- Settles O5. -/
theorem stepKeepsMemoriesCanonical : Obligations.StepKeepsMemoriesCanonical :=
  fun _ _ canonical h => (step_keepsLaws h).memories canonical

/-- Settles O6. -/
theorem stepKeepsIdsUnique : Obligations.StepKeepsIdsUnique := fun _ _ unique h => (step_keepsLaws h).ids unique

/-- Settles O7: the second part reads the law off the four cases of an override and a binding. -/
theorem stepKeepsHoldsDriven : Obligations.StepKeepsHoldsDriven := by
  refine ⟨fun s t driven h => (step_keepsLaws h).holds driven, fun s t n driven h => ?_⟩
  have drive := (step_keepsLaws h).holds driven n
  refine ⟨fun z auto bound => ?_, fun auto unbound => ?_, fun on => ?_, fun off => ?_⟩
  · simp [drive, auto, bound, holdDrive]
  · simp [drive, auto, unbound, holdDrive]
  · simp [drive, on, holdDrive]
  · simp [drive, off, holdDrive]

/-- Settles O8. -/
theorem stepKeepsGenerationEven : Obligations.StepKeepsGenerationEven :=
  fun _ _ even h => (step_keepsLaws h).generation even

/-- Settles O9. -/
theorem stepKeepsDeadlinesOrdered : Obligations.StepKeepsDeadlinesOrdered :=
  fun _ _ ordered h => (step_keepsLaws h).deadlines ordered

/-- Settles O10. -/
theorem stepKeepsTimeCounted : Obligations.StepKeepsTimeCounted := fun _ _ counted h => (step_keepsLaws h).time counted

end Sys2Proof.Machine

/-! ## The machine, the supplies, the registers and the intake (O1 to O4, O11, O14, O16 to O18) -/

namespace Sys2Proof.Machine

/-! ### How a command acts -/

/-- A command of the powered part, on a state with main power. -/
theorem exec_of_powered {c : Instr} {s : State} {f : Part → Part} {q : Part} (acts : exec c s = .next (s.powered f))
    (on : s.part.tbu.mainPower = true) (h : f s.part = q) : exec c s = .next (s.withPart q) := by
  rw [acts, State.powered_of_main f on, h]

/-- A powered command that leaves the part as it was. -/
theorem exec_of_powered_id {c : Instr} {s : State} {f : Part → Part} (acts : exec c s = .next (s.powered f))
    (on : s.part.tbu.mainPower = true) (h : f s.part = s.part) : exec c s = .next s :=
  exec_of_powered acts on h

/-- Settles O1. -/
theorem stepRunsFrontCommand : Obligations.StepRunsFrontCommand := fun _ _ _ => rfl

/-! ### The internal tick (log 2) -/

@[simp] theorem FlashPort.tick_eq (r : FlashPort) :
    r.tick = if r.job = none then r else { r with elapsed := r.elapsed + 1 } := by
  unfold FlashPort.tick
  cases r.job <;> rfl

/-- Settles O2: each vector of the tick is read at one number. -/
theorem emptyQueueStepRunsTimersOnly : Obligations.EmptyQueueStepRunsTimersOnly := by
  intro s empty on p
  have ticked : p.idleTick =
      { p with exi := { p.exi with sweepTimer := dec p.exi.sweepTimer }, jnc := { p.jnc with port := p.jnc.port.tick }
               prc := p.prc.tick (p.jnc.engine == .running), dou := p.dou.tick } := if_pos on
  refine ⟨p.idleTick, ?step, ?frame, ?port, fun n => ?line, fun n => ?lamp, fun n => ?probe, fun b => ?bus,
    fun g => ?group⟩
  case step => simp [step, empty, p, State.withPart]
  all_goals rw [ticked]
  case frame => simp [dec, Dou.tick]
  case port => exact FlashPort.tick_eq _
  case line => simp [Part.line, Dou.tick, dec]
  case lamp => simp [Part.lamp, Dou.tick, dec]
  case probe =>
    by_cases running : p.jnc.engine = .running <;> simp [Part.probe, Prc.tick, running]
  case bus => cases b <;> rfl
  case group => simp [Part.group, Prc.tick]

/-! ### Reset -/

theorem Part.slot_reset (i : Fin 2048) : Part.reset.slot i = none := by
  simp [Part.slot, Part.reset, Ctu.reset]

/-- Settles O3. -/
theorem resetLeavesStatedValues : Obligations.ResetLeavesStatedValues := by
  refine ⟨rfl, rfl, rfl, rfl, rfl, rfl, rfl, rfl, rfl, rfl, rfl, rfl, rfl, rfl, rfl, rfl, Part.slot_reset,
    fun n => ?cls,
    fun z => ?zone, fun n => ?probe, fun g => ?group, fun n => ?hold, rfl, rfl, rfl⟩
  case cls => simp [Part.cls, State.reset, Part.reset, Ctu.reset]
  case zone => simp [Part.zone, State.reset, Part.reset, Znu.reset, Zone.unused, ZoneConfig.unused]
  case probe => simp [Part.probe, State.reset, Part.reset, Prc.reset, Probe.off]
  case group => simp [Part.group, State.reset, Part.reset, Prc.reset, PowerGroup.reset]
  case hold => simp [Part.lineHold, State.reset, Part.reset, Dou.reset, LineHold.reset]

/-- Settles O4: every other command is one of the powered part. -/
theorem unpoweredPartStandsStill : Obligations.UnpoweredPartStandsStill := by
  intro c s off notOn notPin notTick notBackup
  cases c
  case mainPowerOn id b => exact absurd rfl (notOn id b)
  case doorInputChange n high => exact absurd rfl (notPin n high)
  case secondTick => exact absurd rfl notTick
  case backupSupplyFail => exact absurd rfl notBackup
  all_goals exact congrArg Host.Outcome.next (State.powered_of_no_main _ off)

/-- Settles O11. -/
theorem resetMeetsEveryLaw : Obligations.ResetMeetsEveryLaw := by
  refine ⟨reset_memories_wf, fun i j c d hc => ?ids, Part.holdsDriven_of_reset (p := .reset) (d := .reset) rfl, rfl,
    ⟨.nil, .nil⟩, Nat.zero_le _⟩
  case ids => exact absurd hc (by rw [show State.reset.part.slot i = none from Part.slot_reset i]; nofun)

/-! ### The second tick and the backup supply -/

theorem Dlu.tick_eq (t : Nat) (d : Dlu) : d.tick t = if d.pass = none ∧ d.pendingPass = none then
    Dlu.checkPass { d with pass := some { time := t, reached := none, moved := [] } }
    else { d with pendingPass := some t } := by
  unfold Dlu.tick Dlu.startPass
  cases d.pass <;> cases d.pendingPass <;> rfl

theorem Part.ticked_eq (t : Nat) (p : Part) : p.ticked t = { p with
    dlu := if p.jnc.engine = .running then p.dlu.tick t else p.dlu
    jnc := if p.jnc.engine = .running then { p.jnc with sinceMark := p.jnc.sinceMark + 1 } else p.jnc
    exi := if p.exi.intake = .on then { p.exi with timeWrite := some t } else p.exi } := by
  unfold Part.ticked
  by_cases running : p.jnc.engine = .running <;> by_cases on : p.exi.intake = .on <;>
    simp [running, on, Part.onDlu, Part.onJnc]

/-- Settles O14. -/
theorem secondTickAndBackupSupply : Obligations.SecondTickAndBackupSupply := by
  refine ⟨fun s => ?_, fun s => ?backupFail⟩
  · intro p t
    refine ⟨fun on before => ?powered, fun off backup before => ?backupOnly, fun stopped => ?stopped⟩
    case powered =>
      have counting : p.tbu.counting && decide (p.tbu.counter < Config.lastSecond) := by simp [Tbu.counting, on, before]
      show Host.Outcome.next (s.withPart p.secondTick) = _
      rw [Part.secondTick, if_pos counting, if_pos on, Part.ticked_eq, Dlu.tick_eq]
    case backupOnly =>
      have counting : p.tbu.counting && decide (p.tbu.counter < Config.lastSecond) := by
        simp [Tbu.counting, backup, before]
      show Host.Outcome.next (s.withPart p.secondTick) = _
      rw [Part.secondTick, if_pos counting, if_neg (by simp [off])]
    case stopped =>
      have not_counting : ¬ (p.tbu.counting && decide (p.tbu.counter < Config.lastSecond)) = true := by
        obtain last | ⟨off, empty⟩ := stopped
        · simp [Nat.not_lt.2 last]
        · simp [Tbu.counting, off, empty]
      show Host.Outcome.next (s.withPart p.secondTick) = _
      rw [Part.secondTick, if_neg not_counting]
      rfl
  case backupFail =>
    show Host.Outcome.next (s.withPart s.part.backupFail) = _
    unfold Part.backupFail
    cases on : s.part.tbu.mainPower <;> simp [Part.postHeader]

/-! ### Registers and interrupts -/

/-- Settles O16. -/
theorem registerWritesStoreOrAreIgnored : Obligations.RegisterWritesStoreOrAreIgnored := by
  intro s v on
  have ignored (r : WindowReg) (h : s.part.exi.intake = .on) : s.part.registerWrite r v = s.part := if_pos h
  have readOnly (r : WindowReg) (h : r = .engstat ∨ r = .etime) : s.part.registerWrite r v = s.part := by
    obtain rfl | rfl := h <;> exact ite_self _
  refine ⟨fun r h => exec_of_powered_id rfl on (ignored r h), exec_of_powered_id rfl on (readOnly _ (.inl rfl)),
    exec_of_powered_id rfl on (readOnly _ (.inr rfl)), fun h => ⟨?_, ?_, ?_⟩⟩
  all_goals exact exec_of_powered rfl on (if_neg h)

theorem IrqCause.bit_lt (c : IrqCause) : c.bit < 4 := by cases c <;> decide

theorem IrqCause.bit_inj {c d : IrqCause} : c.bit = d.bit ↔ c = d := by cases c <;> cases d <;> decide

theorem mem_newlyEnabled {e : Exi} {mask : BitVec 4} {c : IrqCause} : c ∈ e.newlyEnabled mask ↔
    e.cause.getLsbD c.bit = true ∧ mask.getLsbD c.bit = true ∧ e.mask.getLsbD c.bit = false := by
  have all : c ∈ [IrqCause.docket, .alert, .engine, .access] := by cases c <;> decide
  simp [Exi.newlyEnabled, List.mem_filter, all, and_assoc]

/-- What raising a cause that is not set leaves. -/
theorem Part.raise_of_clear {c : IrqCause} {p : Part} (h : p.exi.cause.getLsbD c.bit = false) :
    p.raise c = { p with exi := { p.exi with
      cause := p.exi.cause ||| BitVec.twoPow 4 c.bit
      messages := if p.exi.mask.getLsbD c.bit then p.exi.messages ++ [c] else p.exi.messages } } := by
  unfold Part.raise
  rw [if_neg (by simp [h])]
  dsimp only
  split <;> rfl

theorem Part.raise_of_set {c : IrqCause} {p : Part} (h : p.exi.cause.getLsbD c.bit = true) : p.raise c = p := by
  unfold Part.raise
  rw [if_pos h]

/-- Settles O17. -/
theorem interruptCausesAndMessages : Obligations.InterruptCausesAndMessages := by
  refine ⟨fun s v on => ⟨⟨_, exec_of_powered rfl on rfl, rfl, fun c => ?cleared⟩,
    ⟨_, s.part.exi.newlyEnabled (v.setWidth 4), exec_of_powered rfl on rfl, rfl, ?nodup, fun c => ⟨?mask, ?sent⟩⟩⟩,
    fun p c => ⟨Part.raise_of_set, fun clear => ⟨_, Part.raise_of_clear clear, fun d => ?causes⟩⟩⟩
  case cleared => simp [Part.writeCause, c.bit_lt]
  case nodup => exact List.Nodup.filter _ (by decide)
  case mask => simp [Part.writeMask, c.bit_lt]
  case sent => rw [mem_newlyEnabled]; simp [c.bit_lt]
  case causes => simp [d.bit_lt, IrqCause.bit_inj, eq_comm]

/-! ### The intake -/

theorem Part.configOk_iff (p : Part) : p.configOk = true ↔
    (p.exi.exbaseH ++ p.exi.exbaseL).toNat ≠ 0 ∧ (p.exi.exbaseH ++ p.exi.exbaseL).toNat % 4096 = 0 ∧
      p.exi.docketCode.toNat ≤ 5 ∧ 1 ≤ p.exi.periodCode.toNat := by
  have nonzero : p.exbase ≠ 0 ↔ p.exbase.toNat ≠ 0 := by rw [Ne, BitVec.toNat_eq]; rfl
  simp only [Part.configOk, Bool.and_eq_true, bne_iff_ne, beq_iff_eq, decide_eq_true_eq, and_assoc, nonzero]
  rfl

/-- Settles O18. -/
theorem intakeTurnsOnAndOff : Obligations.IntakeTurnsOnAndOff := by
  refine ⟨fun s on => ?_, fun s on => ?_⟩
  · intro p good
    refine ⟨fun h => ?cancel, fun h ok => ?turnOn, fun h bad => ?refused⟩
    case cancel => exact exec_of_powered rfl on (if_pos h)
    case turnOn => exact exec_of_powered rfl on ((if_neg h).trans (if_pos (p.configOk_iff.2 ok)))
    case refused => exact exec_of_powered rfl on ((if_neg h).trans (if_neg fun ok => bad (p.configOk_iff.1 ok)))
  · intro p
    refine ⟨fun h pending => ?turnOff, fun h pending => ?already, fun h => ?fromFault, fun h => ?stays⟩
    case turnOff =>
      refine exec_of_powered rfl on ?_
      simp [Part.intakeClear, p, show s.part.exi.intake = .on from h, show s.part.exi.turnOff = false from pending,
        Part.idleSweep]
    case already =>
      refine exec_of_powered_id rfl on ?_
      simp [Part.intakeClear, show s.part.exi.intake = .on from h, show s.part.exi.turnOff = true from pending]
    case fromFault =>
      refine exec_of_powered rfl on ?_
      simp [Part.intakeClear, p, show s.part.exi.intake = .accessFault from h]
    case stays =>
      refine exec_of_powered_id rfl on ?_
      simp [Part.intakeClear, show s.part.exi.intake = .off from h]

end Sys2Proof.Machine

/-! ## What an evaluation leaves of a zone's inputs and of the posts that stand -/

namespace Sys2Proof.Machine

/-! ### Reading `Part.accounted` -/

theorem Part.accounted.sameOutside {p q : Part} (h : p.accounted q) : p.sameOutside q :=
  ⟨by rw [h.1], by rw [h.1], by rw [h.1]⟩

theorem Part.accounted.prc {p q : Part} (h : p.accounted q) : q.prc = p.prc := by rw [h.1]

theorem Part.accounted.lines {p q : Part} (h : p.accounted q) : q.dou.lines = p.dou.lines := by
  rw [h.1]

theorem Part.accounted.doors {p q : Part} (h : p.accounted q) : q.dou.doors = p.dou.doors := by
  rw [h.1]

theorem Part.accounted.door {p q : Part} (h : p.accounted q) (z : Fin 64) : q.door z = p.door z := by
  unfold Part.door
  rw [h.doors]

theorem Part.accounted.config {p q : Part} (h : p.accounted q) (z : Fin 64) : (q.zone z).config = (p.zone z).config :=
  (h.2.2.1 z).1

theorem Part.accounted.members {p q : Part} (h : p.accounted q) (z : Fin 64) :
    (q.zone z).members = (p.zone z).members :=
  (h.2.2.1 z).2

theorem Part.accounted.closing {p q : Part} (h : p.accounted q) (open_ : p.jnc.closing = none) : q.jnc.closing = none :=
  h.2.2.2.1.trans open_

theorem Part.accounted.engine {p q : Part} (h : p.accounted q) : q.jnc.engine = p.jnc.engine := h.2.2.2.2

theorem Part.accounted.inHand {p q : Part} (h : p.accounted q) : q.exi.inHand = p.exi.inHand := by
  rw [h.1]

theorem Part.accounted.sameConfig {p q : Part} (h : p.accounted q) : p.sameConfig q :=
  ⟨h.config, by rw [h.1], by rw [h.1],
    by rw [h.1], by rw [h.1]⟩

theorem Part.accounted.classes {p q : Part} (h : p.accounted q) : q.ctu.classes = p.ctu.classes := by
  rw [h.1]

theorem Part.accounted.classDef {p q : Part} (h : p.accounted q) : q.classDef = p.classDef := by
  funext n
  unfold Part.classDef Part.cls
  rw [h.classes]

theorem Part.accounted.now {p q : Part} (h : p.accounted q) : q.now = p.now := congrArg Tbu.counter h.sameOutside.2.2

/-! ### Posts -/

theorem mem_insertFin {n : Nat} {x y : Fin n} {ys : List (Fin n)} : x ∈ insertFin y ys ↔ x = y ∨ x ∈ ys := by
  induction ys with
  | nil => simp [insertFin]
  | cons z zs ih =>
    unfold insertFin
    split
    · simp
    · split
      · rename_i h
        subst h
        simp
      · simp only [List.mem_cons, ih]
        tauto

/-- No mark, no rise and no cause of `e` is lost. -/
structure Exi.PostsIn (e e' : Exi) : Prop where
  zones : ∀ z ∈ e.zoneMarks, z ∈ e'.zoneMarks
  slots : ∀ i ∈ e.slotMarks, i ∈ e'.slotMarks
  rise : e.rise = true → e'.rise = true
  cause : ∀ c : IrqCause, e.cause.getLsbD c.bit = true → e'.cause.getLsbD c.bit = true

theorem Exi.PostsIn.refl (e : Exi) : e.PostsIn e := ⟨fun _ => id, fun _ => id, id, fun _ => id⟩

theorem Exi.PostsIn.trans {e f g : Exi} (h : e.PostsIn f) (k : f.PostsIn g) : e.PostsIn g :=
  ⟨fun z hz => k.zones z (h.zones z hz), fun i hi => k.slots i (h.slots i hi), k.rise ∘ h.rise,
    fun c hc => k.cause c (h.cause c hc)⟩

/-! ### What an evaluation, a settle and their reports can do -/

/-- What a zone takes from outside: its held reading, PROBE_STALE, its door and DOOR_AJAR. -/
def Zone.inputs (r : Zone) : Option Reading × Bool × Bool × Bool := (r.held, r.stale, r.doorOpen, r.ajar)

/-- `Part.accounted`, with every zone's inputs standing and no post lost. -/
structure Part.Reevaluates (p q : Part) : Prop where
  accounted : p.accounted q
  inputs : ∀ z, (q.zone z).inputs = (p.zone z).inputs
  posts : p.exi.PostsIn q.exi

theorem Part.Reevaluates.refl (p : Part) : p.Reevaluates p := ⟨p.accounted_refl, fun _ => rfl, .refl _⟩

theorem Part.Reevaluates.trans {p q r : Part} (h : p.Reevaluates q) (k : q.Reevaluates r) : p.Reevaluates r :=
  ⟨Part.accounted_trans h.accounted k.accounted, fun z => (k.inputs z).trans (h.inputs z), h.posts.trans k.posts⟩

theorem Part.Reevaluates.closing {p q : Part} (h : p.Reevaluates q) (open_ : p.jnc.closing = none) :
    q.jnc.closing = none :=
  h.accounted.closing open_

theorem Part.Reevaluates.of_znu {p q : Part} (h : p.accounted q) (zones : q.znu = p.znu) (posts : p.exi.PostsIn q.exi) :
    p.Reevaluates q :=
  ⟨h, fun z => by unfold Part.zone; rw [zones], posts⟩

theorem Part.reevaluates_foldl {α : Type} {f : Part → α → Part}
    (h : ∀ (p : Part) (a : α), p.jnc.closing = none → p.Reevaluates (f p a)) (xs : List α) {p : Part}
    (open_ : p.jnc.closing = none) : p.Reevaluates (xs.foldl f p) := by
  induction xs generalizing p with
  | nil => exact .refl p
  | cons x xs ih => exact (h p x open_).trans (ih ((h p x open_).closing open_))

theorem Part.Reevaluates.of_staged {p q : Part} (h : p.staged q) : p.Reevaluates q := by
  refine ⟨Part.accounted_of_staged h, fun z => ?_, ?_⟩
  · have unmarked : (q.zone z).unmarked.inputs = (p.zone z).unmarked.inputs := by rw [h.2.2.1 z]
    exact unmarked
  · rw [h.1]
    exact ⟨fun _ => id, fun _ => id, id, fun _ => id⟩

theorem Part.reevaluates_postZone (z : Fin 64) (p : Part) : p.Reevaluates (p.postZone z) :=
  .of_znu (p.accounted_postZone z) rfl ⟨fun _ h => mem_insertFin.2 (.inr h), fun _ => id, id, fun _ => id⟩

theorem Part.reevaluates_postSlot (i : Fin 2048) (p : Part) : p.Reevaluates (p.postSlot i) :=
  .of_znu (p.accounted_postSlot i) rfl ⟨fun _ => id, fun _ h => mem_insertFin.2 (.inr h), id, fun _ => id⟩

theorem Part.reevaluates_raise (c : IrqCause) (p : Part) : p.Reevaluates (p.raise c) := by
  have eq := p.raise_eq c
  refine .of_znu (p.accounted_raise c) (by rw [eq]) ⟨?_, ?_, ?_, fun d => p.raise_keeps c d⟩
  all_goals rw [eq]
  · exact fun _ => id
  · exact fun _ => id
  · exact id

theorem Part.reevaluates_handRise (p : Part) : p.Reevaluates p.handRise := by
  unfold Part.handRise
  split
  · exact .of_znu ⟨rfl, fun _ => rfl, fun _ => ⟨rfl, rfl⟩, rfl, rfl⟩ rfl ⟨fun _ => id, fun _ => id, fun _ => rfl,
      fun _ => id⟩
  · exact p.reevaluates_raise _

theorem Part.reevaluates_putZone {z : Fin 64} {r : Zone} {p : Part} (config : r.config = (p.zone z).config)
    (members : r.members = (p.zone z).members) (inputs : r.inputs = (p.zone z).inputs) :
      p.Reevaluates (p.putZone z r) := by
  refine ⟨p.accounted_putZone z r config members, fun y => ?_, .refl _⟩
  rw [Part.zone_putZone]
  split
  · next h => rw [inputs, h]
  · rfl

theorem Part.posts_setZone (z : Fin 64) (r : Zone) (p : Part) : p.exi.PostsIn (p.setZone z r).exi := by
  unfold Part.setZone
  dsimp only
  split
  · exact .refl _
  · exact ((p.putZone z r).reevaluates_postZone z).posts

theorem Part.reevaluates_setZone {z : Fin 64} {r : Zone} {p : Part} (config : r.config = (p.zone z).config)
    (members : r.members = (p.zone z).members) (inputs : r.inputs = (p.zone z).inputs) :
      p.Reevaluates (p.setZone z r) := by
  refine ⟨p.accounted_setZone z r config members, fun y => ?_, p.posts_setZone z r⟩
  rw [Part.zone_setZone]
  split
  · next h => rw [inputs, h]
  · rfl

theorem Part.reevaluates_reportCounts (z : Fin 64) (p : Part) : p.Reevaluates (p.reportCounts z) := by
  refine .of_znu (p.accounted_reportCounts z) (by rw [p.sameButDou_reportCounts z]) ?_
  rw [p.sameButDou_reportCounts z]
  exact .refl _

theorem Part.reevaluates_moveCounts (z : Fin 64) (a b c d : Bool)
    (p : Part) : p.Reevaluates (p.moveCounts z a b c d) := by
  unfold Part.moveCounts
  split
  · exact .refl p
  · refine (Part.reevaluates_setZone ?_ ?_ ?_).trans (Part.reevaluates_reportCounts _ _) <;> rfl

theorem Part.reevaluates_onDlu (f : Dlu → Dlu) (p : Part) : p.Reevaluates (p.onDlu f) :=
  .of_znu (p.accounted_onDlu f) rfl (.refl _)

theorem Part.reevaluates_reportLevel (a b : AlertLevel) (p : Part) : p.Reevaluates (p.reportLevel a b) := by
  have count : p.Reevaluates (p.countLevel a b) :=
    .of_znu ⟨rfl, fun _ => rfl, fun _ => ⟨rfl, rfl⟩, rfl, rfl⟩ rfl ⟨fun _ => id, fun _ => id, id, fun _ => id⟩
  unfold Part.reportLevel
  split
  · exact .refl p
  · dsimp only
    split
    · exact count.trans (Part.reevaluates_handRise _)
    · exact count

theorem Part.reevaluates_postIfChanged (i : Fin 2048) (a b : Option Container) (p : Part) :
    p.Reevaluates (p.postIfChanged i a b) := by
  unfold Part.postIfChanged
  split
  · exact .refl p
  · exact p.reevaluates_postSlot i

theorem Part.reevaluates_placeDue (i : Fin 2048) (c : Container) (p : Part) : p.Reevaluates (p.placeDue i c) := by
  unfold Part.placeDue
  split <;> exact p.reevaluates_onDlu _

theorem Part.reevaluates_commitRecord {i : Fin 2048} {c old : Container} {p : Part} (hs : p.slot i = some old)
    (hi : c.identity = old.identity) : p.Reevaluates (p.commitRecord i old c) := by
  have record : p.Reevaluates (p.setSlot i (some c)) := .of_znu (Part.accounted_setSlot hs hi) rfl (.refl _)
  unfold Part.commitRecord
  exact record.trans <| (Part.reevaluates_placeDue i c _).trans <| (Part.reevaluates_moveCounts ..).trans <|
    (Part.reevaluates_reportLevel ..).trans (Part.reevaluates_postIfChanged ..)

theorem Part.reevaluates_changeTo (i : Fin 2048) (T : Nat) (keep : Bool) {f : Container → Container}
    (hf : ∀ c, (f c).identity = c.identity) (p : Part) : p.Reevaluates (p.changeTo i T keep f).1 := by
  unfold Part.changeTo
  split
  · next c hc =>
    refine Part.reevaluates_commitRecord hc ?_
    rw [Part.deriveRecord_identity, hf, settleRecord_identity]
  · exact .refl p

theorem Part.reevaluates_imageIf (i : Fin 2048) {p : Part} (b : Bool) (h : p.jnc.closing = none) :
    p.Reevaluates (Part.imageIf i (p, b)) := by
  unfold Part.imageIf
  split
  · exact .of_staged (Part.staged_imageInternal i h)
  · exact .refl p

theorem Part.reevaluates_reachMember (i : Fin 2048) (z : Fin 64) {p : Part} (h : p.jnc.closing = none) :
    p.Reevaluates (p.reachMember i z) := by
  unfold Part.reachMember
  split
  · next g _ =>
    split
    · have dropped : p.Reevaluates (p.putZone z
          { p.zone z with change := if (g.remaining.filter (· != i)).isEmpty then none
                                    else some { g with remaining := g.remaining.filter (· != i) } }) :=
        Part.reevaluates_putZone rfl rfl rfl
      have posted := dropped.trans <| (Part.reevaluates_changeTo i g.time (staysDrying g.old (p.zone z).condition)
        (f := id) (fun _ => rfl) _).trans (Part.reevaluates_postSlot i _)
      exact posted.trans (Part.reevaluates_imageIf i _ (posted.closing h))
    · exact .refl p
  · exact .refl p

theorem Part.reevaluates_carryChange (z : Fin 64) (reach : Reach) {p : Part} (h : p.jnc.closing = none) :
    p.Reevaluates (p.carryChange z reach) := by
  unfold Part.carryChange
  split
  · exact Part.reevaluates_foldl (fun p i => Part.reevaluates_reachMember i z) _ h
  · exact .refl p

theorem Part.evaluated_inputs (p : Part) (r : Zone) : (p.evaluated r).1.inputs = r.inputs := by
  unfold Part.evaluated
  dsimp only
  split
  · rfl
  · split <;> rfl
  · split <;> rfl
  · split
    · rfl
    · split <;> rfl
  · rfl

theorem Part.reevaluates_evaluateOne (z : Fin 64) (t : Nat) (own : Bool) (reach : Reach) {p : Part}
    (h : p.jnc.closing = none) : p.Reevaluates (p.evaluateOne z t own reach).1 := by
  obtain ⟨config, members⟩ := p.evaluated_config (p.zone z)
  have inputs := p.evaluated_inputs (p.zone z)
  unfold Part.evaluateOne
  dsimp only
  split
  · exact Part.reevaluates_setZone config members inputs
  · have written : p.Reevaluates (p.setZone z
        { (p.evaluated (p.zone z)).1 with
          condition := (p.evaluated (p.zone z)).2
          conditionTime := max t (p.zone z).conditionTime
          change := if (p.zone z).members.isEmpty then none
            else some { old := (p.zone z).condition, time := max t (p.zone z).conditionTime
                        remaining := (p.zone z).members } }) := Part.reevaluates_setZone config members inputs
    split
    · exact written.trans (Part.reevaluates_carryChange z reach (written.closing h))
    · have offered := fun pl => written.trans (.of_staged (Part.staged_offerInternal pl (written.closing h)))
      exact (offered _).trans (Part.reevaluates_carryChange z reach ((offered _).closing h))

theorem Part.reevaluates_wait (src : TriggerSource) (z : Fin 64) (t : Nat) (own : Bool) (p : Part) :
    p.Reevaluates (p.putZone z ((p.zone z).wait src t own)) := by
  cases src <;> exact Part.reevaluates_putZone rfl rfl rfl

theorem Part.reevaluates_triggerOne (src : TriggerSource) (z : Fin 64) (t : Nat) (own : Bool) (reach : Reach) {p : Part}
    (h : p.jnc.closing = none) : p.Reevaluates (p.triggerOne src z t own reach).1 := by
  unfold Part.triggerOne
  split
  · exact p.reevaluates_wait src z t own
  · exact Part.reevaluates_evaluateOne z t own reach h

theorem Part.reevaluates_triggerFollowers (z : Fin 64) (t : Nat) (reach : Reach) {p : Part} (h : p.jnc.closing = none) :
    p.Reevaluates (p.triggerFollowers z t reach) :=
  Part.reevaluates_foldl (fun _ y => Part.reevaluates_triggerOne _ y t _ reach) _ h

theorem Part.reevaluates_evaluateZone (z : Fin 64) (t : Nat) (own : Bool) (reach : Reach) {p : Part}
    (h : p.jnc.closing = none) : p.Reevaluates (p.evaluateZone z t own reach) := by
  have one := Part.reevaluates_evaluateOne z t own reach h
  unfold Part.evaluateZone
  dsimp only
  split
  · exact one.trans (Part.reevaluates_triggerFollowers _ _ _ (one.closing h))
  · exact one

theorem Part.reevaluates_trigger (src : TriggerSource) (z : Fin 64) (t : Nat) (own : Bool) (reach : Reach) {p : Part}
    (h : p.jnc.closing = none) : p.Reevaluates (p.trigger src z t own reach) := by
  unfold Part.trigger
  split
  · exact p.reevaluates_wait src z t own
  · exact Part.reevaluates_evaluateZone z t own reach h

theorem overheat_identity (k : ClassDef) (temp : Int) (c : Container) : (overheat k temp c).identity = c.identity := by
  unfold overheat
  split <;> rfl

end Sys2Proof.Machine

/-! ## Door lines, zone doors and lamps (O22 to O24) -/

namespace Sys2Proof.Machine

theorem DoorLine.refilter_eq (l : DoorLine) : l.refilter = { l with
    timer := if l.sample ≠ none ∨ l.rawOpen = l.filteredOpen then none else some (l.timer.getD l.filterTime) } := by
  unfold DoorLine.refilter
  split
  · next h => simp [Option.isSome_iff_ne_none.1 h]
  · next h =>
    simp only [Option.not_isSome_iff_eq_none] at h
    by_cases same : l.rawOpen = l.filteredOpen
    · simp [same]
    · rw [if_neg same, if_neg (show ¬(l.sample ≠ none ∨ l.rawOpen = l.filteredOpen) by simp [h, same])]
      split
      · next timed =>
        obtain ⟨t, ht⟩ := Option.isSome_iff_exists.1 timed
        rw [ht, Option.getD_some, ← ht]
      · next stopped => rw [Option.not_isSome_iff_eq_none.1 stopped, Option.getD_none]

theorem Part.sameOutside.trans {p q r : Part} (h : p.sameOutside q) (k : q.sameOutside r) : p.sameOutside r :=
  ⟨k.1.trans h.1, k.2.1.trans h.2.1, k.2.2.trans h.2.2⟩

theorem Part.setLine_setLine (n : Fin 16) (r r' : DoorLine) (p : Part) : (p.setLine n r).setLine n r' =
    p.setLine n r' := by
  simp [Part.setLine]

/-- A filter timer that runs out confirms the edge in its line. -/
theorem Part.filterExpiry_timed {n : Fin 16} {reach : Reach} {p : Part} (timed : (p.line n).timer ≠ none) :
    p.filterExpiry n reach = let q := p.setLine n { p.line n with filteredOpen := (p.line n).rawOpen, timer := none }
      if p.jnc.engine = .running then q.edgeConfirmed n reach else q := by
  unfold Part.filterExpiry
  exact if_pos (Option.isSome_iff_ne_none.2 timed)

theorem Part.edgeConfirmed_unbound {n : Fin 16} {reach : Reach} {p : Part} (h : (p.line n).zone = none) :
    p.edgeConfirmed n reach = p := by
  simp [Part.edgeConfirmed, h]

theorem Part.edgeConfirmed_open {n : Fin 16} {z : Fin 64} {reach : Reach} {p : Part} (bound : (p.line n).zone = some z)
    (opened : (p.line n).filteredOpen = true) : p.edgeConfirmed n reach =
      ((p.setLine n { p.line n with pendingOpen := true }).postZone z).updateDoor z p.now reach := by
  unfold Part.edgeConfirmed
  simp only [bound, opened, if_true]
  rfl

theorem Part.edgeConfirmed_close {n : Fin 16} {z : Fin 64} {reach : Reach} {p : Part} (bound : (p.line n).zone = some z)
    (closed : (p.line n).filteredOpen = false) : p.edgeConfirmed n reach = p.updateDoor z p.now reach := by
  unfold Part.edgeConfirmed
  simp [bound, closed]

/-- Settles O22. -/
theorem doorLineEventsReachTheLine : Obligations.DoorLineEventsReachTheLine := by
  intro s n p l lineIs
  refine ⟨fun high on => ?input, fun high off => ?pin, fun on awaited => ?sample, fun reach on timed alone => ?expiry,
    fun reach on stopped => ?idle⟩
  case input =>
    refine congrArg (fun r => Host.Outcome.next (lineIs r)) ((if_pos on).trans ?_)
    exact DoorLine.refilter_eq _
  case pin => exact congrArg (fun r => Host.Outcome.next (lineIs r)) (if_neg (by simp [p, off]))
  case sample => exact exec_of_powered rfl on (if_pos (Option.isSome_iff_ne_none.2 awaited))
  case expiry =>
    refine exec_of_powered rfl on ((Part.filterExpiry_timed timed).trans ?_)
    dsimp only
    split
    · next running =>
      have unbound : l.zone = none := alone.resolve_left fun h => h running
      exact Part.edgeConfirmed_unbound (by rw [Part.line_setLine_self]; exact unbound)
    · rfl
  case idle => exact exec_of_powered_id rfl on (if_neg (by simp [show (s.part.line n).timer = none from stopped]))

/-! ### A zone's door -/

theorem Part.anyLineOpen_iff {p : Part} {z : Fin 64} :
    p.anyLineOpen z = true ↔ ∃ n, (p.line n).zone = some z ∧ (p.line n).filteredOpen = true := by
  simp [Part.anyLineOpen]

theorem Part.updateDoor_same {z : Fin 64} {t : Nat} {reach : Reach} {p : Part}
    (h : p.anyLineOpen z = (p.door z).isOpen) : p.updateDoor z t reach = p := if_pos h

theorem Part.updateDoor_opens {z : Fin 64} {t : Nat} {reach : Reach} {p : Part} (opened : p.anyLineOpen z = true)
    (closed : (p.door z).isOpen = false) : p.updateDoor z t reach =
      (p.setDoor z { p.door z with isOpen := true, since := some t }).reportDoor z true t reach := by
  unfold Part.updateDoor
  simp [opened, closed]

theorem Part.updateDoor_closes {z : Fin 64} {t : Nat} {reach : Reach} {p : Part} (closed : p.anyLineOpen z = false)
    (opened : (p.door z).isOpen = true) : p.updateDoor z t reach =
      let q := p.setDoor z { isOpen := false, since := none, ajar := false }
      (if (p.door z).ajar then q.reportAjar z false else q).reportDoor z false t reach := by
  unfold Part.updateDoor
  simp [opened, closed]

/-- A door report writes the zone's door input alone, and the trigger it takes leaves the inputs. -/
theorem Part.inputs_reportDoor {z : Fin 64} {b : Bool} {t : Nat} {reach : Reach} {p : Part}
    (open_ : p.jnc.closing = none) (y : Fin 64) : ((p.reportDoor z b t reach).zone y).inputs =
      if z = y ∧ (p.zone z).config.kind ≠ .unused then Zone.inputs { p.zone y with doorOpen := b }
      else (p.zone y).inputs := by
  unfold Part.reportDoor
  by_cases unused : (p.zone z).config.kind = .unused
  · simp [unused]
  · have told := p.accounted_setZone z { p.zone z with doorOpen := b } rfl rfl
    rw [if_neg unused, (Part.reevaluates_trigger _ _ _ _ _ (told.closing open_)).inputs, Part.zone_setZone]
    by_cases h : z = y
    · subst h
      simp [unused]
    · simp [h]

theorem Part.posts_reportDoor {z : Fin 64} {b : Bool} {t : Nat} {reach : Reach} {p : Part}
    (open_ : p.jnc.closing = none) : p.exi.PostsIn (p.reportDoor z b t reach).exi := by
  unfold Part.reportDoor
  split
  · exact .refl _
  · have told := p.accounted_setZone z { p.zone z with doorOpen := b } rfl rfl
    exact (p.posts_setZone z _).trans (Part.reevaluates_trigger _ _ _ _ _ (told.closing open_)).posts

theorem Part.reportAjar_clear {z : Fin 64} {p : Part} (used : (p.zone z).config.kind ≠ .unused) :
    p.reportAjar z false = p.setZone z { p.zone z with ajar := false } := by
  unfold Part.reportAjar
  rw [if_neg used]
  rfl

theorem Part.accounted_clearAjar (c : Bool) (z : Fin 64) (p : Part) :
    p.accounted (if c then p.reportAjar z false else p) := by
  split
  · exact p.accounted_reportAjar z false
  · exact p.accounted_refl

theorem Part.posts_clearAjar (c : Bool) (z : Fin 64) (p : Part) :
    p.exi.PostsIn (if c then p.reportAjar z false else p).exi := by
  split
  · by_cases used : (p.zone z).config.kind = .unused
    · rw [Part.reportAjar, if_pos used]
      exact .refl _
    · rw [Part.reportAjar_clear used]
      exact p.posts_setZone z _
  · exact .refl _

/-- What taking a zone's door again from its lines can do. -/
structure Part.UpdatesDoor (z : Fin 64) (p q : Part) : Prop where
  outside : p.sameOutside q
  lines : q.dou.lines = p.dou.lines
  doorOther : ∀ y, y ≠ z → q.door y = p.door y
  isOpen : (q.door z).isOpen = p.anyLineOpen z
  config : ∀ y, (q.zone y).config = (p.zone y).config
  prc : q.prc = p.prc
  closing : q.jnc.closing = p.jnc.closing
  inHand : q.exi.inHand = p.exi.inHand
  posts : p.exi.PostsIn q.exi

theorem Part.UpdatesDoor.line {z : Fin 64} {p q : Part} (h : p.UpdatesDoor z q) (n : Fin 16) : q.line n = p.line n := by
  unfold Part.line
  rw [h.lines]

theorem Part.anyLineOpen_congr {p q : Part} (h : q.dou.lines = p.dou.lines) : q.anyLineOpen = p.anyLineOpen := by
  funext z
  unfold Part.anyLineOpen Part.line
  rw [h]

/-- A door record written and its report made. -/
theorem Part.updatesDoor_of_told {z : Fin 64} {r : DoorRecord} {p q : Part} (told : (p.setDoor z r).accounted q)
    (posts : p.exi.PostsIn q.exi) (h : r.isOpen = p.anyLineOpen z) : p.UpdatesDoor z q where
  outside := told.sameOutside
  lines := told.lines
  doorOther y hy := (told.door y).trans (Part.door_setDoor_of_ne hy.symm ..)
  isOpen := by rw [told.door, Part.door_setDoor_self, h]
  config := told.config
  prc := told.prc
  closing := told.2.2.2.1
  inHand := told.inHand
  posts := posts

theorem Part.updateDoor_opens_spec {z : Fin 64} {t : Nat} {reach : Reach} {p : Part} (open_ : p.jnc.closing = none)
    (opened : p.anyLineOpen z = true) (closed : (p.door z).isOpen = false) :
    p.UpdatesDoor z (p.updateDoor z t reach) ∧
      (p.updateDoor z t reach).door z = { p.door z with isOpen := true, since := some t } ∧
      ((p.zone z).config.kind ≠ .unused → ((p.updateDoor z t reach).zone z).doorOpen = true) := by
  rw [Part.updateDoor_opens opened closed]
  let q := p.setDoor z { p.door z with isOpen := true, since := some t }
  have told := Part.accounted_reportDoor z true t reach (p := q) open_
  refine ⟨Part.updatesDoor_of_told told (Part.posts_reportDoor (p := q) open_) opened.symm, ?_, fun used => ?_⟩
  · rw [told.door, Part.door_setDoor_self]
  · have inputs := Part.inputs_reportDoor (z := z) (b := true) (t := t) (reach := reach) (p := q) open_ z
    rw [if_pos ⟨rfl, used⟩] at inputs
    exact congrArg (·.2.2.1) inputs

theorem Part.updateDoor_closes_spec {z : Fin 64} {t : Nat} {reach : Reach} {p : Part} (open_ : p.jnc.closing = none)
    (closed : p.anyLineOpen z = false) (opened : (p.door z).isOpen = true) :
    p.UpdatesDoor z (p.updateDoor z t reach) ∧
      (p.updateDoor z t reach).door z = { isOpen := false, since := none, ajar := false } ∧
      ((p.zone z).config.kind ≠ .unused → ((p.updateDoor z t reach).zone z).doorOpen = false ∧
        ((p.door z).ajar = true → ((p.updateDoor z t reach).zone z).ajar = false)) := by
  rw [Part.updateDoor_closes closed opened]
  let q := p.setDoor z { isOpen := false, since := none, ajar := false }
  let q' := if (p.door z).ajar then q.reportAjar z false else q
  have cleared : q.accounted q' := Part.accounted_clearAjar ..
  have told := Part.accounted_reportDoor z false t reach (cleared.closing open_)
  have posts := (Part.posts_clearAjar (p.door z).ajar z q).trans
    (Part.posts_reportDoor (z := z) (b := false) (t := t) (reach := reach) (cleared.closing open_))
  refine ⟨Part.updatesDoor_of_told (Part.accounted_trans cleared told) posts closed.symm, ?_, fun used => ?_⟩
  · exact (told.door z).trans ((cleared.door z).trans (Part.door_setDoor_self ..))
  · have inputs := Part.inputs_reportDoor (z := z) (b := false) (t := t) (reach := reach) (cleared.closing open_) z
    rw [if_pos ⟨rfl, by rw [cleared.config]; exact used⟩] at inputs
    refine ⟨congrArg (·.2.2.1) inputs, fun ajar => ?_⟩
    have given : q' = q.setZone z { q.zone z with ajar := false } := (if_pos ajar).trans (Part.reportAjar_clear used)
    refine (congrArg (·.2.2.2) inputs).trans ?_
    rw [given, Part.zone_setZone, if_pos rfl]
    rfl

/-- In RUNNING, a confirmed open edge of a bound line. -/
theorem Part.filterExpiry_open {n : Fin 16} {z : Fin 64} {reach : Reach} {p : Part} (running : p.jnc.engine = .running)
    (timed : (p.line n).timer ≠ none) (bound : (p.line n).zone = some z) (raw : (p.line n).rawOpen = true) :
    p.filterExpiry n reach = ((p.setLine n { p.line n with filteredOpen := true, timer := none, pendingOpen := true }
      ).postZone z).updateDoor z p.now reach := by
  rw [Part.filterExpiry_timed timed]
  dsimp only
  rw [if_pos running, Part.edgeConfirmed_open (z := z) (by rw [Part.line_setLine_self]; exact bound)
    (by rw [Part.line_setLine_self]; exact raw), Part.setLine_setLine, Part.line_setLine_self, raw]
  rfl

/-- In RUNNING, a confirmed close edge of a bound line. -/
theorem Part.filterExpiry_close {n : Fin 16} {z : Fin 64} {reach : Reach} {p : Part} (running : p.jnc.engine = .running)
    (timed : (p.line n).timer ≠ none) (bound : (p.line n).zone = some z) (raw : (p.line n).rawOpen = false) :
    p.filterExpiry n reach =
      (p.setLine n { p.line n with filteredOpen := false, timer := none }).updateDoor z p.now reach := by
  rw [Part.filterExpiry_timed timed]
  dsimp only
  rw [if_pos running, Part.edgeConfirmed_close (z := z) (by rw [Part.line_setLine_self]; exact bound)
    (by rw [Part.line_setLine_self]; exact raw), raw]
  rfl

/-- Settles O23: the edge's own line, and then the zone's door record as its lines give it. -/
theorem zoneDoorFollowsLineEdges : Obligations.ZoneDoorFollowsLineEdges := by
  refine ⟨fun s n z reach on => ?_, fun s n z reach on => ?_⟩
  · intro p l running open_ timed bound raw
    let line : DoorLine := { l with filteredOpen := true, timer := none, pendingOpen := true }
    obtain ⟨r, hr⟩ : ∃ r, r = (p.setLine n line).postZone z := ⟨_, rfl⟩
    have expiry : p.filterExpiry n reach = r.updateDoor z p.now reach := by
      rw [hr]; exact Part.filterExpiry_open running timed bound raw
    have lineSame : r.line n = line := by rw [hr]; exact Part.line_setLine_self ..
    have lineOther (m : Fin 16) (h : m ≠ n) : r.line m = p.line m := by rw [hr]; exact Part.line_setLine_of_ne h.symm ..
    have opened : r.anyLineOpen z = true := Part.anyLineOpen_iff.2 ⟨n, by rw [lineSame]; exact ⟨bound, rfl⟩⟩
    have posted : z ∈ r.exi.zoneMarks := by rw [hr]; exact mem_insertFin.2 (.inl rfl)
    have frame : r = { p with dou := { p.dou with lines := r.dou.lines }, exi := { p.exi with zoneMarks := r.exi.zoneMarks } } := by
      rw [hr]; rfl
    cases door : (p.door z).isOpen with
    | true =>
      have same : r.updateDoor z p.now reach = r := Part.updateDoor_same (by rw [opened, hr]; exact door.symm)
      refine ⟨r, exec_of_powered rfl on (expiry.trans same), ?_, lineSame, lineOther, fun _ _ => ?_, posted,
        fun _ => frame,
        nofun⟩
      · rw [frame]; exact ⟨rfl, rfl, rfl⟩
      · rw [hr]; rfl
    | false =>
      have rdoor (y : Fin 64) : r.door y = p.door y := by rw [hr]; rfl
      have rzone (y : Fin 64) : r.zone y = p.zone y := by rw [hr]; rfl
      have rjnc : r.jnc = p.jnc := by rw [hr]; rfl
      obtain ⟨told, record, input⟩ := Part.updateDoor_opens_spec (t := p.now) (reach := reach)
        (show r.jnc.closing = none by rw [rjnc]; exact open_) opened (by rw [rdoor]; exact door)
      refine ⟨_, exec_of_powered rfl on expiry, ?_, (told.line n).trans lineSame,
        fun m h => (told.line m).trans (lineOther m h), fun y h => (told.doorOther y h).trans (rdoor y),
        told.posts.zones z posted, nofun, fun _ => ⟨?_, fun used => ?_, fun y => ?_, ?_⟩⟩
      · exact Part.sameOutside.trans (by rw [hr]; exact ⟨rfl, rfl, rfl⟩) told.outside
      · rw [record, rdoor]
      · exact input (by rw [rzone]; exact used)
      · rw [told.config, rzone]
      · rw [told.prc, hr]; rfl
  · intro p l running open_ timed bound raw door others
    let line : DoorLine := { l with filteredOpen := false, timer := none }
    obtain ⟨r, hr⟩ : ∃ r, r = p.setLine n line := ⟨_, rfl⟩
    have expiry : p.filterExpiry n reach = r.updateDoor z p.now reach := by
      rw [hr]; exact Part.filterExpiry_close running timed bound raw
    have lineSame : r.line n = line := by rw [hr]; exact Part.line_setLine_self ..
    have lineOther (m : Fin 16) (h : m ≠ n) : r.line m = p.line m := by rw [hr]; exact Part.line_setLine_of_ne h.symm ..
    have closed : r.anyLineOpen z = false := by
      rw [Bool.eq_false_iff]
      intro h
      obtain ⟨m, hz, ho⟩ := Part.anyLineOpen_iff.1 h
      by_cases hm : m = n
      · subst hm
        rw [lineSame] at ho
        cases ho
      · rw [lineOther m hm] at hz ho
        rw [others m hm hz] at ho
        cases ho
    have rdoor (y : Fin 64) : r.door y = p.door y := by rw [hr]; rfl
    have rzone (y : Fin 64) : r.zone y = p.zone y := by rw [hr]; rfl
    have rjnc : r.jnc = p.jnc := by rw [hr]; rfl
    obtain ⟨told, record, input⟩ := Part.updateDoor_closes_spec (t := p.now) (reach := reach)
      (show r.jnc.closing = none by rw [rjnc]; exact open_) closed (by rw [rdoor]; exact door)
    rw [rzone, rdoor] at input
    refine ⟨_, exec_of_powered rfl on expiry, ?_, (told.line n).trans lineSame,
      fun m h => (told.line m).trans (lineOther m h), record, fun y h => (told.doorOther y h).trans (rdoor y), input,
      fun y => ?_, ?_⟩
    · exact Part.sameOutside.trans (by rw [hr]; exact ⟨rfl, rfl, rfl⟩) told.outside
    · rw [told.config, rzone]
    · rw [told.prc, hr]; rfl

/-! ### The open limit and the lamps -/

theorem Part.limitReached_of_line {p : Part} {z : Fin 64} {n : Fin 16} {t : Nat} (since : (p.door z).since = some t)
    (bound : (p.line n).zone = some z) (opened : (p.line n).filteredOpen = true) (limited : 0 < (p.line n).openLimit)
    (reached : (p.line n).openLimit ≤ p.now - t) : p.limitReached z = true := by
  unfold Part.limitReached
  rw [since]
  exact List.any_eq_true.2 ⟨n, List.mem_finRange n, by simp [bound, opened, limited, reached]⟩

/-- A zone's gain of DOOR_AJAR: the zone is written and posted, and the gain handed to the alert logic. -/
theorem Part.reportAjar_gain {z : Fin 64} {p : Part} (used : (p.zone z).config.kind ≠ .unused)
    (clear : (p.zone z).ajar = false) :
    p.reportAjar z true = ((p.putZone z { p.zone z with ajar := true }).postZone z).handRise := by
  have shown : (p.zone z).shown ≠ Zone.shown { p.zone z with ajar := true } := by simp [Zone.shown, clear]
  unfold Part.reportAjar
  simp only [if_neg used, clear, Bool.not_false, Bool.and_self, if_true, Part.setZone, if_neg shown]

/-- Settles O24. -/
theorem openLimitAndLampSteps : Obligations.OpenLimitAndLampSteps := by
  refine ⟨fun s z n t on => ?_, fun s n on => ?_⟩
  · intro p
    refine ⟨fun running opened clear since bound lineOpen limited reached used calm => ?gain, fun h => ?alone⟩
    case alone =>
      refine exec_of_powered_id rfl on (if_neg fun h' => ?_)
      obtain closed | ajar := h
      · exact absurd h'.2.1 (by simp [show (s.part.door z).isOpen = false from closed])
      · exact absurd h'.2.2.1 (by simp [show (s.part.door z).ajar = true from ajar])
    case gain =>
      let r : Part := ((p.setDoor z { p.door z with ajar := true }).putZone z { p.zone z with ajar := true }).postZone z
      have gained : p.ajarLimit z = r.handRise := by
        unfold Part.ajarLimit
        dsimp only
        rw [if_pos ⟨running, opened, clear, Part.limitReached_of_line since bound lineOpen limited reached⟩]
        exact Part.reportAjar_gain used calm
      refine ⟨_, exec_of_powered rfl on gained, ?_⟩
      by_cases intake : p.exi.intake = .on
      · rw [show r.handRise = { r with exi := { r.exi with rise := true } } from if_pos intake]
        exact ⟨rfl, fun y => mem_insertFin, fun _ => ⟨rfl, rfl, rfl⟩, fun h => absurd intake h⟩
      · rw [show r.handRise = r.raise .alert from if_neg intake]
        have eq := r.raise_eq .alert
        have sets := r.raise_sets .alert
        generalize r.raise .alert = q at eq sets
        rw [eq]
        exact ⟨rfl, fun y => mem_insertFin, fun h => absurd h intake, fun _ => ⟨rfl, sets⟩⟩
  · intro p l
    refine ⟨fun q shown timed => ?step, fun h => ?still⟩
    case step =>
      obtain ⟨t, ht⟩ := Option.ne_none_iff_exists'.1 timed
      refine exec_of_powered rfl on ?_
      unfold Part.lampStep
      simp only [show (s.part.lamp n).shown = some q from shown, show (s.part.lamp n).timer = some t from ht]
      cases q <;> rfl
    case still =>
      refine exec_of_powered_id rfl on ?_
      unfold Part.lampStep
      obtain hidden | stopped := h
      · simp [show (s.part.lamp n).shown = none from hidden]
      · simp [show (s.part.lamp n).timer = none from stopped]

end Sys2Proof.Machine

/-! ## Poll timers, stale times and the steps of an attempt (O49 to O51) -/

namespace Sys2Proof.Machine

/-! ### Writing a bus, a probe and a group -/

theorem Part.setBus_setBus (b : Bus) (r r' : ProbeBus) (p : Part) : (p.setBus b r).setBus b r' = p.setBus b r' := by
  cases b <;> rfl

@[simp] theorem Part.bus_setBus_self (b : Bus) (r : ProbeBus) (p : Part) : (p.setBus b r).bus b = r := by
  simp [Part.bus_setBus]

theorem Part.setProbe_setBus (b : Bus) (r : ProbeBus) (n : Fin 32) (q : Probe) (p : Part) :
    (p.setBus b r).setProbe n q = (p.setProbe n q).setBus b r := by
  cases b <;> rfl

theorem Part.setProbe_setProbe (n : Fin 32) (r r' : Probe) (p : Part) :
    (p.setProbe n r).setProbe n r' = p.setProbe n r' := by
  simp [Part.setProbe]

theorem Part.setGroup_setBus (b : Bus) (r : ProbeBus) (g : Fin 4) (q : PowerGroup) (p : Part) :
    (p.setBus b r).setGroup g q = (p.setGroup g q).setBus b r := by
  cases b <;> rfl

theorem Part.setGroup_self (g : Fin 4) (p : Part) : p.setGroup g (p.group g) = p := by
  simp [Part.setGroup, Part.group]

/-! ### Poll timers -/

theorem Part.pollExpiry_idle {n : Fin 32} {p : Part} (h : (p.probe n).config = none ∨ p.jnc.engine ≠ .running) :
    p.pollExpiry n = p := by
  unfold Part.pollExpiry
  split
  · next configured => exact if_neg (h.resolve_left (by simp [configured]))
  · rfl

theorem Part.pollExpiry_running {n : Fin 32} {c : ProbeConfig} {p : Part} (configured : (p.probe n).config = some c)
    (running : p.jnc.engine = .running) : p.pollExpiry n =
      let q := p.setProbe n { p.probe n with pollTimer := c.interval * 1000 }
      if p.queued n then q.setProbe n { q.probe n with late := min 255 ((p.probe n).late + 1) }
      else (q.setBus c.bus { p.bus c.bus with queue := (p.bus c.bus).queue ++ [n] }).serveBus c.bus := by
  unfold Part.pollExpiry
  simp only [configured, running, if_true, Part.bus_setProbe]
  rfl

theorem Part.serveBus_busy {b : Bus} {p : Part} (h : (p.bus b).poll ≠ none) : p.serveBus b = p := by
  unfold Part.serveBus
  split
  · next none _ => exact absurd none h
  · rfl

theorem Part.serveBus_takes {b : Bus} {n : Fin 32} {rest : List (Fin 32)} {c : ProbeConfig} {p : Part}
    (free : (p.bus b).poll = none) (head : (p.bus b).queue = n :: rest) (configured : (p.probe n).config = some c) :
    p.serveBus b = p.beginPoll b n c := by
  unfold Part.serveBus
  simp only [free, head, configured]

theorem Part.beginPoll_ungrouped {b : Bus} {n : Fin 32} {c : ProbeConfig} {p : Part} (h : c.group = none) :
    p.beginPoll b n c = p.setBus b { p.bus b with
      poll := some { probe := n, address := c.address, conversion := c.conversion, group := c.group
                     second := false, discarded := false }
      phase := .start } := by
  simp [Part.beginPoll, h]

/-- A CYCLED group that is off is switched on as its probe reaches the head. -/
theorem Part.beginPoll_switchesOn {b : Bus} {n : Fin 32} {c : ProbeConfig} {g : Fin 4} {p : Part} (h : c.group = some g)
    (cycled : (p.group g).cycled = true) (off : (p.group g).on = false) :
    p.beginPoll b n c = (p.setGroup g { p.group g with on := true, ready := (p.group g).lead }).setBus b { p.bus b with
      poll := some { probe := n, address := c.address, conversion := c.conversion, group := c.group
                     second := false, discarded := false }
      phase := if (p.group g).lead = 0 then .start else .awaitGroup } := by
  unfold Part.beginPoll
  simp [h, cycled, off, PowerGroup.switchOn]

theorem Part.groupReady_off {g : Fin 4} {p : Part} (h : (p.group g).on = false) : p.groupReady g = p :=
  if_neg (by simp [h])

/-- A bus at a group's ready point: the attempt that waits for it is due to begin. -/
def ProbeBus.atReady (g : Fin 4) (r : ProbeBus) : ProbeBus :=
  if r.phase = .awaitGroup ∧ (r.poll.bind (·.group)) = some g then { r with phase := .start } else r

theorem Part.groupReady_on {g : Fin 4} {p : Part} (h : (p.group g).on = true) : p.groupReady g =
    { p with prc := { p.prc with
    busA := p.prc.busA.atReady g, busB := p.prc.busB.atReady g
    groups := p.prc.groups.set g { p.group g with ready := 0 } } } := by
  unfold Part.groupReady
  rw [if_pos h]
  simp only [List.foldl_cons, List.foldl_nil, ProbeBus.atReady]
  by_cases a : p.prc.busA.phase = .awaitGroup ∧ (p.prc.busA.poll.bind (·.group)) = some g <;>
  by_cases b : p.prc.busB.phase = .awaitGroup ∧ (p.prc.busB.poll.bind (·.group)) = some g <;>
  simp [a, b, Part.bus, Part.setBus, Part.setGroup]

/-- Settles O49. -/
theorem pollTimersQueueProbes : Obligations.PollTimersQueueProbes := by
  intro s on p
  refine ⟨fun n c configured running => ?_, fun n h => exec_of_powered_id rfl on (Part.pollExpiry_idle h),
    fun g switched => ?_, fun g h => exec_of_powered_id rfl on (Part.groupReady_off h)⟩
  · intro timed poll
    have expiry := Part.pollExpiry_running configured running
    dsimp only at expiry
    refine ⟨fun queued => ?late, fun waits busy => ?behind, fun waits free empty => ⟨fun alone => ?first, ?switched⟩⟩
    case late =>
      refine exec_of_powered rfl on ?_
      rw [expiry, if_pos queued, Part.setProbe_setProbe, Part.probe_setProbe_self]
    case behind =>
      refine exec_of_powered rfl on ?_
      rw [expiry, if_neg (by simp [p, waits]), Part.serveBus_busy (by simpa using busy)]
    all_goals
      have served (q : Part) (hq : q = (p.setProbe n timed).setBus c.bus { p.bus c.bus with queue := [n] }) :
          p.pollExpiry n = q.beginPoll c.bus n c := by
        rw [expiry, if_neg (by simp [p, waits]), empty, List.nil_append, ← hq]
        exact Part.serveBus_takes (by rw [hq, Part.bus_setBus_self]; exact free)
          (by rw [hq, Part.bus_setBus_self]) (by rw [hq, Part.probe_setBus, Part.probe_setProbe_self]; exact configured)
    case first =>
      refine exec_of_powered rfl on ((served _ rfl).trans ?_)
      rw [Part.beginPoll_ungrouped alone, Part.setBus_setBus, Part.bus_setBus_self]
    case switched =>
      intro g grouped cycled off
      refine exec_of_powered rfl on ((served _ rfl).trans ?_)
      rw [Part.beginPoll_switchesOn grouped (by simpa using cycled) (by simpa using off), Part.setGroup_setBus,
        Part.setBus_setBus, Part.bus_setBus_self]
      simp [poll]
  · exact ⟨_, exec_of_powered rfl on (Part.groupReady_on switched), rfl, fun b => by cases b <;> rfl⟩

/-! ### Stale times -/

/-- A STALE report sets PROBE_STALE alone, and the trigger it takes leaves the inputs. -/
theorem Part.inputs_reportStale {z : Fin 64} {t : Nat} {reach : Reach} {p : Part} (open_ : p.jnc.closing = none)
    (y : Fin 64) : ((p.reportStale z t reach).zone y).inputs =
      if z = y then Zone.inputs { p.zone y with stale := true } else (p.zone y).inputs := by
  have told := p.accounted_setZone z { p.zone z with stale := true } rfl rfl
  have handed (c : Bool) (q : Part) : q.Reevaluates (if c then q.handRise else q) := by
    split
    · exact q.reevaluates_handRise
    · exact .refl q
  have rise := handed (!(p.zone z).stale) (p.setZone z { p.zone z with stale := true })
  have inputs := (rise.trans
    (Part.reevaluates_trigger .reading z t false reach (rise.closing (told.closing open_)))).inputs y
  unfold Part.reportStale
  rw [inputs, Part.zone_setZone]
  split
  · next h => rw [h]
  · rfl

/-- Reports made to zones one after another: each zone named takes the change of its inputs once. -/
theorem Part.inputs_foldl {f : Part → Fin 64 → Part} {g : Zone → Zone}
    (accounted : ∀ (p : Part) (z : Fin 64), p.jnc.closing = none → p.accounted (f p z))
    (inputs : ∀ (p : Part) (z y : Fin 64), p.jnc.closing = none →
      ((f p z).zone y).inputs = if z = y then (g (p.zone y)).inputs else (p.zone y).inputs)
    (only : ∀ r r' : Zone, r.inputs = (g r').inputs ∨ r.inputs = r'.inputs → (g r).inputs = (g r').inputs)
    (zs : List (Fin 64)) {p : Part} (open_ : p.jnc.closing = none) (y : Fin 64) :
    ((zs.foldl f p).zone y).inputs = if y ∈ zs then (g (p.zone y)).inputs else (p.zone y).inputs := by
  induction zs generalizing p with
  | nil => simp
  | cons z zs ih =>
    have head := inputs p z y open_
    rw [List.foldl_cons, ih ((accounted p z open_).closing open_)]
    by_cases hz : z = y
    · subst hz
      rw [if_pos rfl] at head
      simp only [List.mem_cons, true_or, if_true]
      split
      · exact only _ _ (.inl head)
      · exact head
    · rw [if_neg hz] at head
      simp only [List.mem_cons, Ne.symm hz, false_or]
      split
      · exact only _ _ (.inr head)
      · exact head

theorem Part.accounted_reportStales (zs : List (Fin 64)) (reach : Reach) {p : Part} (open_ : p.jnc.closing = none) :
    p.accounted (zs.foldl (fun p z => p.reportStale z p.now reach) p) :=
  Part.accounted_foldl _ (fun p z => Part.accounted_reportStale z p.now reach) zs open_

theorem Part.inputs_reportStales (zs : List (Fin 64)) (reach : Reach) {p : Part} (open_ : p.jnc.closing = none)
    (y : Fin 64) : ((zs.foldl (fun p z => p.reportStale z p.now reach) p).zone y).inputs =
      if y ∈ zs then Zone.inputs { p.zone y with stale := true } else (p.zone y).inputs :=
  Part.inputs_foldl (g := fun r => { r with stale := true })
    (fun p z => Part.accounted_reportStale z p.now reach) (fun _ _ y open_ => Part.inputs_reportStale open_ y)
    (fun r r' h => by simp only [Zone.inputs, Prod.mk.injEq] at h ⊢; tauto) zs open_ y

theorem Part.mem_zonesOfProbe {p : Part} {n : Fin 32} {z : Fin 64} :
    z ∈ p.zonesOfProbe n ↔ (p.zone z).config.probe = some n := by
  simp [Part.zonesOfProbe, allFin]

/-- What a STALE or OFF report of a probe leaves. -/
theorem Part.probeLost_spec {n : Fin 32} {reach : Reach} {p : Part} (open_ : p.jnc.closing = none)
    (unsaid : (p.probe n).staleReported = false) :
    (p.setProbe n { p.probe n with staleReported := true }).accounted (p.probeLost n reach) ∧
      ∀ z, (p.zone z).config.probe = some n → ((p.probeLost n reach).zone z).stale = true := by
  unfold Part.probeLost
  rw [if_neg (by simp [unsaid])]
  refine ⟨Part.accounted_reportStales _ reach open_, fun z bound => ?_⟩
  have inputs := Part.inputs_reportStales ((p.setProbe n { p.probe n with staleReported := true }).zonesOfProbe n) reach
    (p := p.setProbe n { p.probe n with staleReported := true }) open_ z
  rw [if_pos ((Part.mem_zonesOfProbe (p := p.setProbe n _)).2 bound)] at inputs
  exact congrArg (·.2.1) inputs

theorem Part.accounted.probe {p q : Part} (h : p.accounted q) (n : Fin 32) : q.probe n = p.probe n := by
  unfold Part.probe
  rw [h.prc]

/-- Settles O50. -/
theorem staleTimeTurnsProbeStale : Obligations.StaleTimeTurnsProbeStale := by
  intro s n reach on open_ p r
  refine ⟨fun running held reached => ?_, fun early => ?_⟩
  · let p' : Part := p.setProbe n { r with state := .stale }
    have turned : p.staleReached n reach = p'.probeLost n reach := if_pos ⟨running, held, reached⟩
    cases said : r.staleReported with
    | false =>
      have unsaid : (p'.probe n).staleReported = false := by rw [Part.probe_setProbe_self]; exact said
      obtain ⟨told, stale⟩ := Part.probeLost_spec (reach := reach) (p := p') open_ unsaid
      rw [Part.probe_setProbe_self, Part.setProbe_setProbe] at told
      refine ⟨_, exec_of_powered rfl on turned, told.sameOutside, ?_, fun m h => ?_, ?_, ?_, ?_, told.config,
        fun _ => stale, nofun⟩
      · rw [told.probe, Part.probe_setProbe_self]
      · rw [told.probe, Part.probe_setProbe_of_ne h.symm]
      all_goals rw [told.prc]; rfl
    | true =>
      have silent : p'.probeLost n reach = p' := if_pos (by rw [Part.probe_setProbe_self]; exact said)
      refine ⟨p', exec_of_powered rfl on (turned.trans silent), ⟨rfl, rfl, rfl⟩, ?_,
        fun m h => Part.probe_setProbe_of_ne h.symm .., rfl, rfl, rfl, fun _ => rfl, nofun, fun _ => rfl⟩
      rw [Part.probe_setProbe_self, ← said]
  · refine exec_of_powered_id rfl on (if_neg fun ⟨running, held, reached⟩ => ?_)
    obtain idle | stale | off | before := early
    · exact idle running
    · obtain h | h := held <;> exact nomatch h.symm.trans stale
    · obtain h | h := held <;> exact nomatch h.symm.trans off
    · exact absurd reached (Nat.not_le.2 before)

/-! ### The steps of an attempt -/

/-- The first failed attempt is retried after the gap. -/
theorem Part.failAttempt_first {b : Bus} {q : Poll} {kind : ProbeFailure} {reach : Reach} {p : Part}
    (polls : (p.bus b).poll = some q) (kept : q.discarded = false) (first : q.second = false) :
    p.failAttempt b kind reach = (p.setProbe q.probe { p.probe q.probe with lastFailure := some kind }).setBus b { p.bus b with
      poll := some { q with second := true }, phase := .retryGap Config.retryGapMs } := by
  unfold Part.failAttempt
  simp only [polls, kept, first, Bool.false_eq_true, if_false, Part.bus_setProbe]

/-- The address and the request byte are sent, and the conversion is waited for. -/
theorem Part.request_acknowledged {b : Bus} {q : Poll} {reach : Reach} {p : Part} (polls : (p.bus b).poll = some q) :
    p.request b true reach = p.setBus b { p.bus b with
      sent := [addressByte q.address false, Config.measureRequest], phase := .converting q.conversion } := by
  unfold Part.request
  simp only [polls, if_true]

theorem Part.request_unacknowledged {b : Bus} {q : Poll} {reach : Reach} {p : Part} (polls : (p.bus b).poll = some q)
    (kept : q.discarded = false) (first : q.second = false) :
    p.request b false reach = (p.setProbe q.probe { p.probe q.probe with lastFailure := some .noAckRequest }).setBus b
      { p.bus b with poll := some { q with second := true }, phase := .retryGap Config.retryGapMs
                     sent := [addressByte q.address false, Config.measureRequest] } := by
  unfold Part.request
  simp only [polls, Bool.false_eq_true, if_false]
  rw [Part.failAttempt_first (q := q) (by rw [Part.bus_setBus_self]) kept first, Part.setProbe_setBus,
    Part.setBus_setBus, Part.bus_setBus_self, Part.probe_setBus]

theorem Part.busFree_waiting {b : Bus} {ms : Nat} {ack : Bool} {reach : Reach} {p : Part}
    (waits : (p.bus b).phase = .awaitFree ms) : p.busFree b ack reach = p.request b ack reach := by
  simp only [Part.busFree, waits]

/-- The probe is addressed for reading. -/
theorem Part.conversionDone_converting {b : Bus} {q : Poll} {ms : Nat} {ack : Bool} {reach : Reach} {p : Part}
    (converting : (p.bus b).phase = .converting ms) (polls : (p.bus b).poll = some q) : p.conversionDone b ack reach =
      let r := p.setBus b { p.bus b with sent := (p.bus b).sent ++ [addressByte q.address true], phase := .reading }
      if ack then r else r.failAttempt b .noAckRead reach := by
  simp only [Part.conversionDone, converting, polls]

theorem Part.retry_gap {b : Bus} {q : Poll} {ms : Nat} {dataLow : Option Nat} {p : Part}
    (gap : (p.bus b).phase = .retryGap ms) (polls : (p.bus b).poll = some q) : p.retry b dataLow =
      p.setBus b { p.bus b with
      phase := .start
      pulses := match dataLow with
        | some n => if (p.probe q.probe).lastFailure = some .busHeld then min n 9 else 0
        | none => 0 } := by
  simp only [Part.retry, gap, polls] <;> rfl

/-- Settles O51. -/
theorem attemptStepsOnTheBus : Obligations.AttemptStepsOnTheBus := by
  intro s b q reach on polls p r write bus retried
  refine ⟨fun start => ?_, fun ms waits => ⟨?_, fun kept first => ?_⟩, fun ms converting => ?_,
    fun kept first held => ?_,
    fun ms n gap => ⟨?_, ?_⟩⟩
  · intro begun
    have begins (reply : AttemptReply) : p.startAttempt b reply reach = match reply with
        | .linesHeld => p.setBus b begun
        | .acknowledged => (p.setBus b begun).request b true reach
        | .notAcknowledged => (p.setBus b begun).request b false reach := if_pos start
    have polls' : ((p.setBus b begun).bus b).poll = some q := by rw [Part.bus_setBus_self]; exact polls
    refine ⟨exec_of_powered rfl on (begins .linesHeld), exec_of_powered rfl on ((begins .acknowledged).trans ?_),
      fun kept first => exec_of_powered rfl on ((begins .notAcknowledged).trans ?_)⟩
    · simp only [Part.request_acknowledged polls', Part.setBus_setBus, Part.bus_setBus_self]
      rfl
    · simp only [Part.request_unacknowledged polls' kept first, Part.setProbe_setBus, Part.setBus_setBus,
        Part.bus_setBus_self, Part.probe_setBus]
      rfl
  · exact exec_of_powered rfl on ((Part.busFree_waiting waits).trans (Part.request_acknowledged polls))
  · exact exec_of_powered rfl on ((Part.busFree_waiting waits).trans (Part.request_unacknowledged polls kept first))
  · intro sent
    have done (ack : Bool) := Part.conversionDone_converting (ack := ack) (reach := reach) converting polls
    refine ⟨exec_of_powered rfl on (done true), fun kept first => exec_of_powered rfl on ((done false).trans ?_)⟩
    dsimp only
    rw [if_neg nofun, Part.failAttempt_first (q := q) (by rw [Part.bus_setBus_self]; exact polls) kept first,
      Part.setProbe_setBus, Part.setBus_setBus, Part.bus_setBus_self, Part.probe_setBus]
    rfl
  · have fails : p.busHeld b reach = p.failAttempt b .busHeld reach := by
      unfold Part.busHeld
      split
      · rfl
      · rfl
      · rfl
      · next other₁ other₂ other₃ =>
        obtain ⟨ms, phase⟩ | ⟨ms, phase⟩ | phase := held
        · exact absurd phase (other₁ ms)
        · exact absurd phase (other₂ ms)
        · exact absurd phase other₃
    exact exec_of_powered rfl on (fails.trans (Part.failAttempt_first polls kept first))
  · exact exec_of_powered rfl on (Part.retry_gap gap polls)
  · exact exec_of_powered rfl on (Part.retry_gap gap polls)

end Sys2Proof.Machine

/-! ## Dockets handed to their owner, and the entries they offer -/

namespace Sys2Proof.Machine

/-! ### A docket handed to its owner is performed -/

theorem exec_enroll {s : State} {d : InHand} {a : EnrollArgs} (on : s.part.tbu.mainPower = true)
    (h : s.part.hands d (.enroll a)) : exec .enroll s = .next (s.withPart (s.part.enrollDocket a)) :=
  exec_of_powered rfl on (by simp only [Part.handedRequest_of_hands h])

theorem exec_split {s : State} {d : InHand} {a : SplitArgs} (on : s.part.tbu.mainPower = true)
    (h : s.part.hands d (.split a)) : exec .split s = .next (s.withPart (s.part.splitDocket a)) :=
  exec_of_powered rfl on (by simp only [Part.handedRequest_of_hands h])

theorem exec_retire {s : State} {d : InHand} {a : ContainerId} (on : s.part.tbu.mainPower = true)
    (h : s.part.hands d (.retire a)) : exec .retire s = .next (s.withPart (s.part.retireDocket a)) :=
  exec_of_powered rfl on (by simp only [Part.handedRequest_of_hands h])

theorem exec_quarantine {s : State} {d : InHand} {a : ContainerId} (on : s.part.tbu.mainPower = true)
    (h : s.part.hands d (.quarantine a)) : exec .quarantine s = .next (s.withPart (s.part.quarantineDocket a)) :=
  exec_of_powered rfl on (by simp only [Part.handedRequest_of_hands h])

theorem exec_release {s : State} {d : InHand} {a : ReleaseArgs} (on : s.part.tbu.mainPower = true)
    (h : s.part.hands d (.release a)) : exec .release s = .next (s.withPart (s.part.releaseDocket a)) :=
  exec_of_powered rfl on (by simp only [Part.handedRequest_of_hands h])

theorem exec_query {s : State} {d : InHand} {a : QueryArgs} (on : s.part.tbu.mainPower = true)
    (h : s.part.hands d (.query a)) : exec .query s = .next (s.withPart (s.part.queryDocket a false)) :=
  exec_of_powered rfl on (by simp only [Part.handedRequest_of_hands h])

theorem exec_moveList {s : State} {d : InHand} {a : MoveListArgs} (on : s.part.tbu.mainPower = true)
    (h : s.part.hands d (.moveList a)) : exec .moveList s = .next (s.withPart (s.part.moveListDocket a)) :=
  exec_of_powered rfl on (by simp only [Part.handedRequest_of_hands h])

theorem exec_setClass {s : State} {d : InHand} {a : ClassArgs} (on : s.part.tbu.mainPower = true)
    (h : s.part.hands d (.setClass a)) : exec .setClass s = .next (s.withPart (s.part.setClassDocket a)) :=
  exec_of_powered rfl on (by simp only [Part.handedRequest_of_hands h])

theorem exec_setEngine {s : State} {d : InHand} {a : EngineArgs} (on : s.part.tbu.mainPower = true)
    (h : s.part.hands d (.setEngine a)) : exec .setEngine s = .next (s.withPart (s.part.setEngineDocket a)) :=
  exec_of_powered rfl on (by simp only [Part.handedRequest_of_hands h])

theorem exec_setZone {s : State} {d : InHand} {a : ZoneArgs} (on : s.part.tbu.mainPower = true)
    (h : s.part.hands d (.setZone a)) : exec .setZone s = .next (s.withPart (s.part.setZoneDocket a)) :=
  exec_of_powered rfl on (by simp only [Part.handedRequest_of_hands h])

theorem exec_setProbe {s : State} {d : InHand} {a : ProbeArgs} (on : s.part.tbu.mainPower = true)
    (h : s.part.hands d (.setProbe a)) : exec .setProbe s = .next (s.withPart (s.part.setProbeDocket a)) :=
  exec_of_powered rfl on (by simp only [Part.handedRequest_of_hands h])

theorem exec_setGroup {s : State} {d : InHand} {a : GroupArgs} (on : s.part.tbu.mainPower = true)
    (h : s.part.hands d (.setGroup a)) : exec .setGroup s = .next (s.withPart (s.part.setGroupDocket a)) :=
  exec_of_powered rfl on (by simp only [Part.handedRequest_of_hands h])

theorem exec_queryProbe {s : State} {d : InHand} {a : QueryProbeArgs} (on : s.part.tbu.mainPower = true)
    (h : s.part.hands d (.queryProbe a)) : exec .queryProbe s = .next (s.withPart (s.part.queryProbeDocket a false)) :=
  exec_of_powered rfl on (by simp only [Part.handedRequest_of_hands h])

theorem exec_setDoor {s : State} {d : InHand} {a : DoorArgs} (on : s.part.tbu.mainPower = true)
    (h : s.part.hands d (.setDoor a)) : exec .setDoor s = .next (s.withPart (s.part.setDoorDocket a)) :=
  exec_of_powered rfl on (by simp only [Part.handedRequest_of_hands h])

theorem exec_setOutput {s : State} {d : InHand} {a : OutputArgs} (on : s.part.tbu.mainPower = true)
    (h : s.part.hands d (.setOutput a)) : exec .setOutput s = .next (s.withPart (s.part.setOutputDocket a)) :=
  exec_of_powered rfl on (by simp only [Part.handedRequest_of_hands h])

theorem exec_setTime {s : State} {d : InHand} {a : Nat} (on : s.part.tbu.mainPower = true)
    (h : s.part.hands d (.setTime a)) : exec .setTime s = .next (s.withPart (s.part.setTimeDocket a)) :=
  exec_of_powered rfl on (by simp only [Part.handedRequest_of_hands h])

/-! ### Entries that enter the queue at once -/

/-- An image of a container or a zone, which clears its object's mark in a resync (R166). -/
def Payload.isImage : Payload → Bool
  | .containerImage _ | .zoneImage .. => true
  | _ => false

/-- Entering the queue clears no mark: no resync is under way, or the entry is no image. -/
def Part.clearsNone (p : Part) (pls : List Payload) : Prop :=
  p.jnc.journal ≠ .resync ∨ ∀ pl ∈ pls, pl.isImage = false

theorem Part.clearMark_of_none {pl : Payload} {p : Part} (h : p.jnc.journal ≠ .resync ∨ pl.isImage = false) :
    p.clearMark pl = p := by
  unfold Part.clearMark
  split
  · next resync =>
    have plain := h.resolve_left (fun other => other resync.1)
    split
    · cases plain
    · cases plain
    · rfl
  · rfl

/-- The count of 60 seconds after entries have been staged: a TIME_MARK starts it afresh (R162). -/
def sinceMarkAfter (pls : List Payload) (n : Nat) : Nat :=
  pls.foldl (fun n pl => match pl with
    | .timeMark _ => 0
    | _ => n) n

/-- The entries of a list of payloads, stamped with the engine second. -/
def Part.stamped (p : Part) (owner : StagedBy) (pls : List Payload) : List Staged :=
  pls.map fun pl => { payload := pl, time := p.now, owner := owner }

/-- Entries that clear no mark change the queue and the count of 60 seconds alone. -/
theorem Part.enqueue_eq {owner : StagedBy} {pls : List Payload} {p : Part} (h : p.clearsNone pls) :
    p.enqueue owner pls = { p with jnc := { p.jnc with
      queue := p.jnc.queue ++ p.stamped owner pls, sinceMark := sinceMarkAfter pls p.jnc.sinceMark } } := by
  induction pls generalizing p with
  | nil => simp [Part.enqueue, Part.stamped, sinceMarkAfter]
  | cons pl pls ih =>
    have first : p.clearMark pl = p := Part.clearMark_of_none (h.imp_right fun k => k pl (List.mem_cons_self ..))
    have step : p.enqueue owner (pl :: pls) = ((p.clearMark pl).onJnc fun j =>
        { j with queue := j.queue ++ [{ payload := pl, time := (p.clearMark pl).now, owner := owner }]
                 sinceMark := sinceMarkAfter [pl] j.sinceMark }).enqueue owner pls := by
      cases pl <;> rfl
    have rest : ∀ q : Part, q.jnc.journal = p.jnc.journal → q.clearsNone pls := fun q same => by
      unfold Part.clearsNone
      rw [same]
      exact h.imp_right fun k x hx => k x (List.mem_cons_of_mem _ hx)
    rw [step, first]
    generalize staged : p.onJnc _ = q
    rw [ih (rest q (by rw [← staged]; rfl)), ← staged]
    simp [Part.onJnc, Part.stamped, Part.now, sinceMarkAfter]

theorem Part.serveCommit_format (p : Part) : p.serveCommit.jnc.format = p.jnc.format := by
  unfold Part.serveCommit
  dsimp only
  split
  · split <;> rfl
  · split
    · rfl
    · split <;> rfl

/-- The arbiter starts no FORMAT. -/
theorem Part.pump_format {p : Part} (h : p.jnc.closing = none) (unformatted : p.jnc.format = none) :
    p.pump.jnc.format = none := by
  have still : p.closingMark.stopStaging = p := by simp [Part.closingMark, h, Part.stopStaging, unformatted]
  unfold Part.pump
  simp only [still, unformatted]
  split
  · exact unformatted
  · split
    · exact unformatted
    · unfold Part.arbitrate
      simp only [h]
      split
      · exact p.serveCommit_format.trans unformatted
      · split <;> exact unformatted

/-- The journal takes `n` docket-caused entries into the queue at once. -/
def Part.hasRoom (n : Nat) (p : Part) : Prop :=
  p.jnc.journal = .ok ∧ p.jnc.waiting = [] ∧ p.jnc.closing = none ∧ p.jnc.format = none ∧
    Config.holdFree < p.jnc.freeCount ∧ p.jnc.queue.length + n ≤ Config.docketPlaces

theorem Part.hasRoom_of_takes {p : Part} (h : p.journalTakes) : p.hasRoom 5 := h

theorem Part.hasRoom.mono {m n : Nat} {p : Part} (h : p.hasRoom n) (le : m ≤ n) : p.hasRoom m := by
  obtain ⟨ok, waiting, closing, format, free, room⟩ := h
  exact ⟨ok, waiting, closing, format, free, by omega⟩

theorem Part.hasRoom_congr {n : Nat} {p q : Part} (h : q.jnc = p.jnc) : q.hasRoom n ↔ p.hasRoom n := by
  unfold Part.hasRoom
  rw [h]

theorem Part.docketEntries_le (p : Part) : p.docketEntries ≤ p.jnc.queue.length := List.length_filter_le ..

theorem Part.offerDocket_eq {n : Nat} {o : Offer} {p : Part} (room : p.hasRoom n)
    (len : (p.offerPayloads o).length ≤ n) :
    p.offerDocket o = (p.enqueue .docket (p.offerPayloads o)).pump := by
  obtain ⟨ok, waiting, closing, format, free, places⟩ := room
  have opened : p.stagingOpen = true := by simp [Part.stagingOpen, ok, closing, Jnc.formatStages, format]
  have entries := p.docketEntries_le
  have fits : p.docketRoom (p.offerPayloads o).length = true := by
    simp only [Part.docketRoom, Part.held, Bool.and_eq_true, decide_eq_true_eq, Bool.not_eq_true',
      decide_eq_false_iff_not]
    simp only [Config.docketPlaces, Config.stagingPlaces] at places ⊢
    omega
  simp [Part.offerDocket, opened, waiting, fits]

/-- An entry that finds its place at once: it enters the queue at its tail, and of the part the journal's own record
alone
changes. -/
theorem Part.offerDocket_room {n : Nat} {o : Offer} {p : Part} (room : p.hasRoom n)
    (len : (p.offerPayloads o).length ≤ n) :
    ∃ j, p.offerDocket o = { p with jnc := j } ∧ j.queue = p.jnc.queue ++ p.stagedNow (p.offerPayloads o) ∧
      j.engine = p.jnc.engine ∧ Part.hasRoom (n - (p.offerPayloads o).length) { p with jnc := j } := by
  rw [Part.offerDocket_eq room len]
  obtain ⟨ok, waiting, closing, format, free, places⟩ := room
  rw [Part.enqueue_eq (.inl (by simp [ok]))]
  generalize hq : ({ p with jnc := { p.jnc with
    queue := p.jnc.queue ++ p.stamped .docket (p.offerPayloads o)
    sinceMark := sinceMarkAfter (p.offerPayloads o) p.jnc.sinceMark } } : Part) = q
  have qclosing : q.jnc.closing = none := by rw [← hq]; exact closing
  obtain ⟨j, pumped, -⟩ := Part.pump_open qclosing
  obtain ⟨queue, waits, engine, journal, closes, freed, -⟩ := Part.pump_jnc qclosing
  have formats := Part.pump_format qclosing (by rw [← hq]; exact format)
  rw [pumped] at queue waits engine journal closes freed formats ⊢
  have length : (p.stamped .docket (p.offerPayloads o)).length = (p.offerPayloads o).length := List.length_map ..
  subst hq
  refine ⟨j, rfl, queue, engine, journal.trans ok, waits.trans waiting, closes, formats, by rw [freed]; exact free, ?_⟩
  dsimp only at queue ⊢
  rw [queue, List.length_append, length]
  omega

/-- An offered entry that is no image changes the journal's own record alone, whether it is staged or waits. -/
theorem Part.offerDocket_plain {o : Offer} {p : Part} (closing : p.jnc.closing = none)
    (plain : ∀ pl ∈ p.offerPayloads o, pl.isImage = false) :
    ∃ j, p.offerDocket o = { p with jnc := j } ∧ j.closing = none ∧ j.engine = p.jnc.engine := by
  unfold Part.offerDocket
  split
  · exact ⟨_, rfl, closing, rfl⟩
  · dsimp only
    split
    · rw [Part.enqueue_eq (.inr plain)]
      generalize hq : ({ p with jnc := { p.jnc with
        queue := p.jnc.queue ++ p.stamped .docket (p.offerPayloads o)
        sinceMark := sinceMarkAfter (p.offerPayloads o) p.jnc.sinceMark } } : Part) = q
      have qclosing : q.jnc.closing = none := by rw [← hq]; exact closing
      obtain ⟨j, pumped, -⟩ := Part.pump_open qclosing
      obtain ⟨-, -, engine, -, closes, -⟩ := Part.pump_jnc qclosing
      rw [pumped] at engine closes ⊢
      subst hq
      exact ⟨j, rfl, closes, engine⟩
    · exact ⟨_, rfl, closing, rfl⟩

theorem Part.partPayloads_plain (p : Part) (q : SettingPart) : ∀ pl ∈ p.partPayloads q, pl.isImage = false := by
  cases q <;> simp [Part.partPayloads, Payload.isImage]

/-- The image of a setting part, staged or waiting. -/
theorem Part.offerDocket_part (q : SettingPart) {p : Part} (closing : p.jnc.closing = none) :
    ∃ j, p.offerDocket (.part q) = { p with jnc := j } ∧ j.closing = none ∧ j.engine = p.jnc.engine ∧
      (p.journalTakes → j.queue = p.jnc.queue ++ p.stagedNow (p.partPayloads q)) := by
  obtain ⟨j, offered, closes, engine⟩ := Part.offerDocket_plain (o := .part q) closing (p.partPayloads_plain q)
  refine ⟨j, offered, closes, engine, fun takes => ?_⟩
  obtain ⟨j', offered', queue, -⟩ := Part.offerDocket_room (o := .part q) (Part.hasRoom_of_takes takes)
    (by cases q <;> simp [Part.offerPayloads, Part.partPayloads])
  obtain rfl : j = j' := congrArg Part.jnc (offered.symm.trans offered')
  exact queue

/-! ### Numbers in their range -/

theorem finOf?_eq_some {n k : Nat} {i : Fin n} : finOf? n k = some i ↔ i.val = k := by
  unfold finOf?
  split
  · simp only [Option.some.injEq, Fin.ext_iff]
    exact eq_comm
  · next out =>
    simp only [reduceCtorEq, false_iff]
    exact fun h => out (h ▸ i.isLt)

theorem finOf?_val {n : Nat} (i : Fin n) : finOf? n i.val = some i := finOf?_eq_some.2 rfl

theorem finOf?_eq_none {n k : Nat} : finOf? n k = none ↔ n ≤ k := by
  unfold finOf?
  split
  · simp; omega
  · simp; omega

theorem addrOk_iff {a : HostAddr} {n : Nat} : addrOk a n = true ↔ a ≠ 0 ∧ a.toNat % n = 0 := by
  simp [addrOk]

end Sys2Proof.Machine

/-! ## The dockets of the probes, the groups, the outputs and the door lines (O41 to O45) -/

namespace Sys2Proof.Machine

/-! ### QUERY_PROBE -/

theorem Part.probeReport_length (p : Part) (n : Fin 32) : (p.probeReport n).length = 32 := by
  unfold Part.probeReport
  dsimp only
  split <;> simp

/-- The report of a probe, and the answer. -/
theorem Part.queryProbeDocket_reports {a : QueryProbeArgs} {n : Fin 32} {d : InHand} {p : Part}
    (hand : p.exi.inHand = some d) (number : n.val = a.probe) (address : addrOk a.reply 32 = true) :
    p.queryProbeDocket a false = { p with
      host := p.host.write hostBlank a.reply.toNat (p.probeReport n)
      prc := { p.prc with probes := p.prc.probes.set n { p.probe n with late := if a.clearLate then 0 else (p.probe n).late } }
      exi := { p.exi with inHand := some { d with stage := .finished {
        result := .ok, first := (p.probe n).state.code, second := (p.probe n).late
        value := timeCode (p.probe n).readingTime } } } } := by
  unfold Part.queryProbeDocket
  simp only [finOf?_eq_some.2 number, address, Bool.not_true, Bool.false_eq_true, if_false]
  cases a.clearLate with
  | true =>
    rw [if_pos rfl, Part.finishDocket_spec (d := d) (by exact hand)]
    rfl
  | false =>
    rw [if_neg nofun, Part.finishDocket_spec (d := d) (by exact hand)]
    have same : p.prc.probes.set n (p.probe n) = p.prc.probes := by simp [Part.probe]
    simp only [Bool.false_eq_true, if_false]
    rw [same]
    rfl

/-- Settles O45. -/
theorem queryProbeReportsTheProbe : Obligations.QueryProbeReportsTheProbe := by
  intro s d a n on h number p r
  have hand : p.exi.inHand = some d := h.1
  refine ⟨fun bad => ?refused, fun nonzero aligned => ?reports⟩
  case refused =>
    rw [exec_queryProbe on h, ← Part.refuseDocket_spec hand]
    have badAddress : addrOk a.reply 32 = false := by
      rw [Bool.eq_false_iff, Ne, addrOk_iff]
      tauto
    unfold Part.queryProbeDocket
    simp only [finOf?_eq_some.2 number, badAddress, Bool.not_false, if_true]
    rfl
  case reports =>
    refine ⟨_, exec_queryProbe on h, ?_⟩
    rw [Part.queryProbeDocket_reports h.1 number (addrOk_iff.2 ⟨nonzero, aligned⟩)]
    refine ⟨rfl, fun m hm => ?_, ?_, p.probeReport_length n⟩
    · exact Part.probe_setProbe_of_ne hm.symm _ p
    · exact Part.probe_setProbe_self n _ p

/-! ### SET_GROUP -/

/-- A group's record after a SET_GROUP. -/
def GroupArgs.written (a : GroupArgs) (g : Fin 4) (queued : Bool) (r : PowerGroup) : PowerGroup :=
  if a.mask.getLsbD g.val then
    let r := { r with cycled := a.modes[g] == 1, lead := a.leads[g] }
    if !r.cycled && !r.on then r.switchOn else if r.cycled && !queued then r.switchOff else r
  else r

theorem Part.writeGroup_eq (a : GroupArgs) (g : Fin 4) (p : Part) :
    p.writeGroup a g = p.setGroup g (a.written g (p.groupQueued g) (p.group g)) := by
  unfold Part.writeGroup GroupArgs.written
  split
  · rfl
  · rw [p.setGroup_self g]

theorem Part.writeGroups_spec (a : GroupArgs) (gs : List (Fin 4)) (distinct : gs.Nodup) (p : Part) :
    ∃ groups, gs.foldl (fun p g => p.writeGroup a g) p = { p with prc := { p.prc with groups := groups } } ∧
      ∀ g, groups[g] = if g ∈ gs then a.written g (p.groupQueued g) (p.group g) else p.group g := by
  induction gs generalizing p with
  | nil => exact ⟨p.prc.groups, rfl, fun g => rfl⟩
  | cons x gs ih =>
    rw [List.nodup_cons] at distinct
    obtain ⟨groups, eq, each⟩ := ih distinct.2 (p.writeGroup a x)
    refine ⟨groups, ?_, fun g => ?_⟩
    · rw [List.foldl_cons, eq, Part.writeGroup_eq]
      rfl
    · rw [each, Part.writeGroup_eq, Part.group_setGroup]
      have queued : (p.setGroup x (a.written x (p.groupQueued x) (p.group x))).groupQueued g = p.groupQueued g := rfl
      rw [queued]
      by_cases hx : x = g
      · subst hx
        simp [distinct.1]
      · simp [hx, Ne.symm hx]

theorem decodeSpeed_isSome {n : Nat} : (decodeSpeed n).isSome = true ↔ n = 100 ∨ n = 400 := by
  unfold decodeSpeed
  split <;> simp_all

theorem decodeSpeed_fast {n : Nat} (h : n = 100 ∨ n = 400) : (decodeSpeed n).getD false = decide (n = 400) := by
  obtain rfl | rfl := h <;> rfl

theorem GroupArgs.valid_iff (a : GroupArgs) : a.valid = true ↔
    (∀ g : Fin 4, a.mask.getLsbD g.val = true → a.modes[g] ≤ 1 ∧ a.leads[g] ≤ 2550 ∧ a.leads[g] % 10 = 0) ∧
      (a.mask.getLsbD 4 = true → a.speedA = 100 ∨ a.speedA = 400) ∧
      (a.mask.getLsbD 5 = true → a.speedB = 100 ∨ a.speedB = 400) := by
  have flagged (b : Bool) (c : Bool) : (!b || c) = true ↔ (b = true → c = true) := by cases b <;> simp
  simp only [GroupArgs.valid, Bool.and_eq_true, List.all_eq_true, List.mem_finRange, true_implies, GroupArgs.groupOk,
    flagged, decodeSpeed_isSome, decide_eq_true_eq, beq_iff_eq, and_assoc]

theorem Part.writeSpeed_busA (flag : Bool) (kHz : Nat) (p : Part) : p.writeSpeed flag .busA kHz =
    { p with prc := { p.prc with busA := { p.prc.busA with
      fast := if flag then (decodeSpeed kHz).getD false else p.prc.busA.fast } } } := by
  cases flag <;> rfl

theorem Part.writeSpeed_busB (flag : Bool) (kHz : Nat) (p : Part) : p.writeSpeed flag .busB kHz =
    { p with prc := { p.prc with busB := { p.prc.busB with
      fast := if flag then (decodeSpeed kHz).getD false else p.prc.busB.fast } } } := by
  cases flag <;> rfl

/-- What SET_GROUP leaves of a flagged group. -/
theorem GroupArgs.written_spec {a : GroupArgs} {g : Fin 4} (queued : Bool) (r : PowerGroup)
    (flagged : a.mask.getLsbD g.val = true) :
    (a.written g queued r).lead = a.leads[g] ∧ ((a.written g queued r).cycled = true ↔ a.modes[g] = 1) ∧
      (a.modes[g] = 0 → (a.written g queued r).on = true) ∧
      (a.modes[g] = 0 → r.on = false → (a.written g queued r).ready = a.leads[g]) ∧
      (a.modes[g] = 1 → (a.written g queued r).on = (r.on && queued)) := by
  unfold GroupArgs.written
  rw [if_pos flagged]
  generalize a.modes[g] = mode
  generalize a.leads[g] = lead
  by_cases cycled : mode = 1
  · cases queued <;> simp [cycled, PowerGroup.switchOff]
  · cases on : r.on <;> simp [cycled, PowerGroup.switchOn]

/-- Settles O42. -/
theorem setGroupWritesFlaggedValues : Obligations.SetGroupWritesFlaggedValues := by
  intro s d a on h p
  have hand : p.exi.inHand = some d := h.1
  refine ⟨a.valid_iff, fun closing => ⟨fun named bad => ?refused, fun empty => ?nothing, fun named good => ?written⟩⟩
  case refused =>
    rw [exec_setGroup on h, ← Part.refuseDocket_spec hand]
    unfold Part.setGroupDocket
    rw [if_neg (show ¬a.mask.setWidth 6 = 0 from named), if_pos (by simp [bad])]
  case nothing =>
    rw [exec_setGroup on h, ← Part.refuseDocket_spec hand]
    exact congrArg (fun q => Host.Outcome.next (s.withPart q)) (if_pos empty)
  case written =>
    obtain ⟨flaggedOk, speedA, speedB⟩ := a.valid_iff.1 good
    obtain ⟨groups, eq, each⟩ := Part.writeGroups_spec a (List.finRange 4) (List.nodup_finRange 4) p
    simp only [List.mem_finRange, if_true] at each
    let r : Part := (({ p with prc := { p.prc with groups := groups } } :
      Part).writeSpeed (a.mask.getLsbD 4) .busA a.speedA
      ).writeSpeed (a.mask.getLsbD 5) .busB a.speedB
    have performed : p.setGroupDocket a = (r.offerDocket (.part .groups)).finishDocket (plainAnswer .ok) := by
      unfold Part.setGroupDocket
      rw [if_neg (show ¬a.mask.setWidth 6 = 0 from named), if_neg (by simp [good])]
      simp only [eq]
      rfl
    have speeds : r = { p with prc := { p.prc with
        groups := groups
        busA := { p.prc.busA with fast := if a.mask.getLsbD 4 then decide (a.speedA = 400) else p.prc.busA.fast }
        busB := { p.prc.busB with fast := if a.mask.getLsbD 5 then decide (a.speedB = 400) else p.prc.busB.fast } } } := by
      unfold r
      rw [Part.writeSpeed_busA, Part.writeSpeed_busB]
      cases flagA : a.mask.getLsbD 4 <;> cases flagB : a.mask.getLsbD 5 <;>
        simp_all [decodeSpeed_fast]
    obtain ⟨j, offered, -⟩ := Part.offerDocket_part .groups (p := r) (by rw [speeds]; exact closing)
    refine ⟨_, exec_setGroup on h, ?_⟩
    show _ = _ ∧ _
    rw [performed, offered, Part.finishDocket_spec (d := d) (by rw [speeds]; exact hand), speeds]
    refine ⟨rfl, fun g unflagged => ?_, fun g flagged => ?_⟩
    · refine (each g).trans ?_
      simp [GroupArgs.written, unflagged]
    · have spec := GroupArgs.written_spec (p.groupQueued g) (p.group g) flagged
      rw [← each g] at spec
      exact spec

end Sys2Proof.Machine

/-! ## SET_OUTPUT (O44) -/

namespace Sys2Proof.Machine

/-! ### The checks -/

theorem decodeOverride_isSome {n : Nat} : (decodeOverride n).isSome = true ↔ n ≤ 2 := by
  obtain _ | _ | _ | n := n <;> simp [decodeOverride]

theorem not_or_eq_true {b c : Bool} : (!b || c) = true ↔ (b = true → c = true) := by cases b <;> simp

theorem OutputArgs.valid_iff (a : OutputArgs) : a.valid = true ↔
    (∀ n : Fin 8, a.mask.getLsbD n.val = true → a.overrides[n] ≤ 2) ∧
      (a.mask.getLsbD 16 = true → 2 ≤ a.calm.length ∧ a.calm.length ≤ 16) ∧
      (a.mask.getLsbD 17 = true → 2 ≤ a.warn.length ∧ a.warn.length ≤ 16) ∧
      (a.mask.getLsbD 18 = true → 2 ≤ a.hold.length ∧ a.hold.length ≤ 16) ∧
      (a.mask.getLsbD 19 = true → 50 ≤ a.stepPeriod ∧ a.stepPeriod ≤ 1000 ∧ a.stepPeriod % 50 = 0) := by
  simp only [OutputArgs.valid, Bool.and_eq_true, List.all_eq_true, List.mem_finRange, true_implies, not_or_eq_true,
    decodeOverride_isSome, OutputArgs.override?, OutputArgs.pattern?, OutputArgs.period?, Pattern.valid,
    decide_eq_true_eq, beq_iff_eq, and_assoc]

theorem OutputArgs.zonesOk_iff (a : OutputArgs) (p : Part) : a.zonesOk p = true ↔
    ∀ n : Fin 8, a.mask.getLsbD (8 + n.val) = true → a.lampZones[n] = 255 ∨
      ∃ z : Fin 64, z.val = a.lampZones[n] ∧ (p.zone z).config.kind ≠ .unused := by
  have field (k : Nat) : (match optField 64 k with
      | some none => true
      | some (some z) => (p.zone z).config.kind != .unused
      | none => false) = true ↔ k = 255 ∨ ∃ z : Fin 64, z.val = k ∧ (p.zone z).config.kind ≠ .unused := by
    unfold optField
    by_cases none : k = 255
    · simp [none]
    · rw [if_neg none]
      cases number : finOf? 64 k with
      | none =>
        rw [finOf?_eq_none] at number
        simp only [Option.map_none, Bool.false_eq_true, none, false_or, false_iff]
        rintro ⟨z, rfl, -⟩
        omega
      | some z =>
        have val := finOf?_eq_some.1 number
        simp only [Option.map_some, bne_iff_ne, none, false_or]
        exact ⟨fun h => ⟨z, val, h⟩, fun ⟨y, hy, h⟩ => (Fin.ext (hy.trans val.symm) : y = z) ▸ h⟩
  simp only [OutputArgs.zonesOk, List.all_eq_true, List.mem_finRange, true_implies, not_or_eq_true, OutputArgs.lamp?]
  exact forall_congr' fun n => imp_congr_right fun _ => field _

/-! ### Writing the line-hold outputs and the lamps -/

theorem Part.setLineHold_self (n : Fin 8) (p : Part) : p.setLineHold n (p.lineHold n) = p := by
  simp [Part.setLineHold, Part.lineHold]

theorem Part.setLamp_self (n : Fin 8) (p : Part) : p.setLamp n (p.lamp n) = p := by
  simp [Part.setLamp, Part.lamp]

/-- A fold that writes each output named from its own record and the zones. -/
theorem Part.foldl_setLineHold {f : Part → Fin 8 → Part} {F : Znu → Fin 8 → LineHold → LineHold}
    (hf : ∀ p n, f p n = p.setLineHold n (F p.znu n (p.lineHold n))) (ns : List (Fin 8)) (distinct : ns.Nodup)
      (p : Part) :
    ∃ holds, ns.foldl f p = { p with dou := { p.dou with holds := holds } } ∧
      ∀ n, holds[n] = if n ∈ ns then F p.znu n (p.lineHold n) else p.lineHold n := by
  induction ns generalizing p with
  | nil => exact ⟨p.dou.holds, rfl, fun n => rfl⟩
  | cons x ns ih =>
    rw [List.nodup_cons] at distinct
    obtain ⟨holds, eq, each⟩ := ih distinct.2 (f p x)
    refine ⟨holds, ?_, fun n => ?_⟩
    · rw [List.foldl_cons, eq, hf]
      rfl
    · rw [each, hf, Part.lineHold_setLineHold, Part.setLineHold_znu]
      by_cases hx : x = n
      · subst hx
        simp [distinct.1]
      · simp [hx, Ne.symm hx]

/-- A fold that writes each lamp named, from its own record and what stands beside the lamps. -/
theorem Part.foldl_setLamp {f : Part → Fin 8 → Part} {F : Znu → Nat → Fin 8 → Lamp → Lamp}
    (hf : ∀ p n, f p n = p.setLamp n (F p.znu p.dou.stepPeriod n (p.lamp n))) (ns : List (Fin 8)) (distinct : ns.Nodup)
    (p : Part) : ∃ lamps, ns.foldl f p = { p with dou := { p.dou with lamps := lamps } } ∧
      ∀ n, lamps[n] = if n ∈ ns then F p.znu p.dou.stepPeriod n (p.lamp n) else p.lamp n := by
  induction ns generalizing p with
  | nil => exact ⟨p.dou.lamps, rfl, fun n => rfl⟩
  | cons x ns ih =>
    rw [List.nodup_cons] at distinct
    obtain ⟨lamps, eq, each⟩ := ih distinct.2 (f p x)
    refine ⟨lamps, ?_, fun n => ?_⟩
    · rw [List.foldl_cons, eq, hf]
      rfl
    · have period : (f p x).dou.stepPeriod = p.dou.stepPeriod := by rw [hf]; rfl
      rw [each, period, hf, Part.lamp_setLamp, Part.setLamp_znu]
      by_cases hx : x = n
      · subst hx
        simp [distinct.1]
      · simp [hx, Ne.symm hx]

/-- The record a flagged override gives an output. -/
def OutputArgs.overridden (a : OutputArgs) (n : Fin 8) (r : LineHold) : LineHold :=
  if a.override? n then { r with override := (decodeOverride a.overrides[n]).getD .auto } else r

/-- The record a flagged lamp zone gives a lamp. -/
def OutputArgs.rebound (a : OutputArgs) (n : Fin 8) (r : Lamp) : Lamp :=
  if a.lamp? n then { r with zone := (optField 64 a.lampZones[n]).getD none } else r

/-- The drive of an output in the zones as they stand (R97). -/
def Znu.drive (u : Znu) (r : LineHold) : Bool := holdDrive r.override (r.zone.map fun z => u.zones[z].blocking)

theorem Part.writeOutputs_spec (a : OutputArgs) (p : Part) : ∃ holds lamps,
    p.writeOutputs a = { p with dou := { p.dou with
      holds := holds, lamps := lamps
      calm := if a.pattern? .calm then a.calm else p.dou.calm
      warn := if a.pattern? .warn then a.warn else p.dou.warn
      hold := if a.pattern? .hold then a.hold else p.dou.hold
      stepPeriod := if a.period? then a.stepPeriod else p.dou.stepPeriod } } ∧
    (∀ n, holds[n] = a.overridden n (p.lineHold n)) ∧ ∀ n, lamps[n] = a.rebound n (p.lamp n) := by
  obtain ⟨holds, eq, each⟩ := Part.foldl_setLineHold (F := fun _ => a.overridden)
    (f := fun p n => if a.override? n then
      p.setLineHold n { p.lineHold n with override := (decodeOverride a.overrides[n]).getD .auto } else p)
    (fun p n => by
      unfold OutputArgs.overridden
      split
      · rfl
      · rw [p.setLineHold_self n]) (List.finRange 8) (List.nodup_finRange 8) p
  obtain ⟨lamps, eq', each'⟩ := Part.foldl_setLamp (F := fun _ _ => a.rebound)
    (f := fun p n => if a.lamp? n then p.setLamp n { p.lamp n with zone := (optField 64 a.lampZones[n]).getD none } else p)
    (fun p n => by
      unfold OutputArgs.rebound
      split
      · rfl
      · rw [p.setLamp_self n]) (List.finRange 8) (List.nodup_finRange 8)
      { p with dou := { p.dou with holds := holds } }
  simp only [List.mem_finRange, if_true] at each each'
  refine ⟨holds, lamps, ?_, each, each'⟩
  unfold Part.writeOutputs
  rw [eq]
  exact congrArg (fun q : Part => ({ q with dou := { q.dou with
    calm := if a.pattern? .calm then a.calm else q.dou.calm
    warn := if a.pattern? .warn then a.warn else q.dou.warn
    hold := if a.pattern? .hold then a.hold else q.dou.hold
    stepPeriod := if a.period? then a.stepPeriod else q.dou.stepPeriod } } : Part)) eq'

/-- The lamps alone change, and none is bound anew. -/
def Part.lampsShown (p q : Part) : Prop :=
  q = { p with dou := { p.dou with lamps := q.dou.lamps } } ∧ ∀ n, (q.lamp n).zone = (p.lamp n).zone

theorem Part.lampsShown_refl (p : Part) : p.lampsShown p := ⟨rfl, fun _ => rfl⟩

theorem Part.lampsShown_trans {p q r : Part} (h : p.lampsShown q) (k : q.lampsShown r) : p.lampsShown r := by
  refine ⟨?_, fun n => (k.2 n).trans (h.2 n)⟩
  rw [k.1, h.1]

theorem Part.lampsShown_foldl {f : Part → Fin 8 → Part} (h : ∀ (p : Part) n, p.lampsShown (f p n)) (ns : List (Fin 8))
    (p : Part) :
    p.lampsShown (ns.foldl f p) := by
  induction ns generalizing p with
  | nil => exact p.lampsShown_refl
  | cons x ns ih => exact Part.lampsShown_trans (h p x) (ih _)

theorem Part.lampsShown_setLamp {n : Fin 8} {r : Lamp} {p : Part} (h : r.zone = (p.lamp n).zone) :
    p.lampsShown (p.setLamp n r) := by
  refine ⟨rfl, fun m => ?_⟩
  rw [Part.lamp_setLamp]
  split
  · next hn => rw [h, hn]
  · rfl

theorem Part.lampsShown_deriveLamp (n : Fin 8) (p : Part) : p.lampsShown (p.deriveLamp n) := by
  unfold Part.deriveLamp
  dsimp only
  split
  · exact Part.lampsShown_setLamp rfl
  · split
    · exact p.lampsShown_refl
    · exact Part.lampsShown_setLamp rfl

theorem Part.lampsShown_refreshLamp (a : OutputArgs) (n : Fin 8) (p : Part) : p.lampsShown (p.refreshLamp a n) := by
  refine Part.lampsShown_setLamp ?_
  cases (p.lamp n).shown with
  | none => dsimp only; split <;> rfl
  | some q => dsimp only; split <;> split <;> rfl

/-- The drives that a SET_OUTPUT calls for: of a flagged output as its record gives it, and the lamps' patterns. -/
theorem Part.applyOutputs_spec (a : OutputArgs) (p : Part) : ∃ holds, (∀ n, holds[n] = if a.override? n then
      { p.lineHold n with asserted := p.znu.drive (p.lineHold n) } else p.lineHold n) ∧
    Part.lampsShown { p with dou := { p.dou with holds := holds } } (p.applyOutputs a) := by
  obtain ⟨holds, eq, each⟩ := Part.foldl_setLineHold
    (F := fun u n r => if a.override? n then { r with asserted := u.drive r } else r)
    (f := fun p n => if a.override? n then p.deriveHold n else p)
    (fun p n => by
      split
      · rfl
      · rw [p.setLineHold_self n]) (List.finRange 8) (List.nodup_finRange 8) p
  simp only [List.mem_finRange, if_true] at each
  refine ⟨holds, each, ?_⟩
  unfold Part.applyOutputs
  rw [eq]
  refine Part.lampsShown_trans (Part.lampsShown_foldl (fun p n => ?_) _ _)
    (Part.lampsShown_foldl (fun p n => p.lampsShown_refreshLamp a n) _ _)
  show p.lampsShown (if a.lamp? n then p.deriveLamp n else p)
  split
  · exact p.lampsShown_deriveLamp n
  · exact p.lampsShown_refl

theorem optField_getD (k : Nat) : (optField 64 k).getD none = finOf? 64 k := by
  unfold optField
  split
  · next none =>
    subst none
    exact (finOf?_eq_none.2 (by omega)).symm
  · cases finOf? 64 k <;> rfl

theorem Part.setOutputDocket_spec {a : OutputArgs} {d : InHand} {p : Part} (hand : p.exi.inHand = some d)
    (closing : p.jnc.closing = none) (named : a.mask.setWidth 20 ≠ 0) (good : a.valid = true)
      (zones : a.zonesOk p = true) :
    ∃ holds lamps j x, p.setOutputDocket a = { p with
        jnc := j
        dou := { p.dou with
          holds := holds, lamps := lamps
          calm := if a.mask.getLsbD 16 then a.calm else p.dou.calm
          warn := if a.mask.getLsbD 17 then a.warn else p.dou.warn
          hold := if a.mask.getLsbD 18 then a.hold else p.dou.hold
          stepPeriod := if a.mask.getLsbD 19 then a.stepPeriod else p.dou.stepPeriod }
        exi := { p.exi with inHand := some { d with stage := .finished x } } } ∧
      x.result = .ok ∧ x.first = ((List.finRange 8).filter fun n => holds[n].asserted).length ∧
      (∀ n, holds[n] = if a.override? n then { a.overridden n (p.lineHold n) with
        asserted := p.znu.drive (a.overridden n (p.lineHold n)) } else p.lineHold n) ∧
      ∀ n, lamps[n].zone = (a.rebound n (p.lamp n)).zone := by
  obtain ⟨written, bound, eq, overrides, rebinds⟩ := p.writeOutputs_spec a
  obtain ⟨holds, drives, shown, zone⟩ := Part.applyOutputs_spec a (p.writeOutputs a)
  generalize hr : (p.writeOutputs a).applyOutputs a = r at shown zone
  rw [eq] at drives shown zone
  obtain ⟨j, offered, -⟩ := Part.offerDocket_part .outputs (p := r) (by rw [shown]; exact closing)
  refine ⟨holds, r.dou.lamps, j, r.outputAnswer, ?_, rfl, ?_, fun n => ?_, fun n => ?_⟩
  · unfold Part.setOutputDocket
    rw [if_neg named, if_neg (by simp [good]), if_neg (by simp [zones])]
    dsimp only
    rw [hr, offered, Part.finishDocket_spec (d := d) (by rw [shown]; exact hand)]
    generalize r.outputAnswer = x
    rw [shown]
    rfl
  · rw [shown]
    rfl
  · rw [drives n]
    show (if a.override? n then { written[n] with asserted := p.znu.drive written[n] } else written[n]) = _
    rw [overrides n]
    split
    · rfl
    · next unflagged => exact if_neg unflagged
  · exact (zone n).trans (congrArg Lamp.zone (rebinds n))

/-- Settles O44. -/
theorem setOutputWritesFlaggedValues : Obligations.SetOutputWritesFlaggedValues := by
  intro s d a on h p patternOk
  have hand : p.exi.inHand = some d := h.1
  refine ⟨a.valid_iff, a.zonesOk_iff p, fun empty => ?empty, fun closing named =>
    ⟨fun bad => ?badArg, fun good bad => ?badZone, fun good zones => ?written⟩⟩
  case empty =>
    rw [exec_setOutput on h]
    refine congrArg (fun q => Host.Outcome.next (s.withPart q)) ((if_pos empty).trans ?_)
    exact Part.finishDocket_spec hand _
  case badArg =>
    rw [exec_setOutput on h, ← Part.refuseDocket_spec hand]
    refine congrArg (fun q => Host.Outcome.next (s.withPart q)) ((if_neg named).trans (if_pos ?_))
    simp [bad]
  case badZone =>
    rw [exec_setOutput on h, ← Part.refuseDocket_spec hand]
    refine congrArg (fun q => Host.Outcome.next (s.withPart q)) ((if_neg named).trans ((if_neg ?_).trans (if_pos ?_)))
    · simp [good]
    · simp only [Bool.not_eq_true']
      exact bad
  case written =>
    obtain ⟨holds, lamps, j, x, eq, result, first, drives, zone⟩ :=
        Part.setOutputDocket_spec hand closing named good zones
    refine ⟨_, x, exec_setOutput on h, ?_⟩
    rw [show s.part.setOutputDocket a = p.setOutputDocket a from rfl, eq]
    refine ⟨rfl, result, first, fun n unflagged => ?_, fun n flagged => ?_, fun n => ?_⟩
    · refine (drives n).trans (if_neg ?_)
      simp [OutputArgs.override?, unflagged]
    · have driven := (drives n).trans (if_pos flagged)
      have record : a.overridden n (p.lineHold n) = { p.lineHold n with
          override := (decodeOverride a.overrides[n]).getD .auto } := if_pos flagged
      show holds[n].zone = _ ∧ (_ → holds[n].override = _ ∧ holds[n].asserted = _) ∧
        (_ → holds[n].override = _ ∧ holds[n].asserted = _) ∧ (_ → holds[n].override = _ ∧ (holds[n].asserted = true ↔
          _))
      rw [driven, record]
      generalize a.overrides[n] = o
      refine ⟨rfl, ?_, ?_, ?_⟩
      · rintro rfl
        exact ⟨rfl, rfl⟩
      · rintro rfl
        exact ⟨rfl, rfl⟩
      · rintro rfl
        refine ⟨rfl, ?_⟩
        show holdDrive .auto _ = true ↔ _
        unfold holdDrive
        cases (p.lineHold n).zone with
        | none => simp
        | some z => simp [Part.zone]
    · refine (zone n).trans ?_
      unfold OutputArgs.rebound OutputArgs.lamp?
      split
      · exact optField_getD _
      · rfl

end Sys2Proof.Machine

/-! ## SET_DOOR, SET_CLASS and a SET_ENGINE without re-evaluation (O43, O38) -/

namespace Sys2Proof.Machine

theorem next_congr {s : State} {p q : Part} (h : p = q) :
    (.next (s.withPart p) : Host.Outcome State Fault Refusal) = .next (s.withPart q) := by rw [h]

/-! ### SET_DOOR -/

theorem optField_number {n k : Nat} {i : Fin n} (number : i.val = k) (notNone : k ≠ 255) :
    optField n k = some (some i) := by
  unfold optField
  rw [if_neg notNone, finOf?_eq_some.2 number]
  rfl

theorem optField_none (n : Nat) : optField n 255 = some none := rfl

/-- The first check of SET_DOOR, on its fields. -/
def DoorArgs.fieldsOk (a : DoorArgs) : Bool :=
  decide (a.polarity ≤ 1) && decide (10 ≤ a.filterTime) && decide (a.filterTime ≤ 2550) && a.filterTime % 10 == 0

theorem DoorArgs.fieldsOk_iff (a : DoorArgs) : a.fieldsOk = true ↔
    a.polarity ≤ 1 ∧ 10 ≤ a.filterTime ∧ a.filterTime ≤ 2550 ∧ a.filterTime % 10 = 0 := by
  simp only [DoorArgs.fieldsOk, Bool.and_eq_true, decide_eq_true_eq, beq_iff_eq, and_assoc]

theorem Part.checkDoor_eq {a : DoorArgs} {n : Fin 16} {p : Part} (number : n.val = a.line) : p.checkDoor a =
    check a.fieldsOk .badArg (match optField 64 a.zone with
      | none => .error .badZone
      | some none => .ok (n, none)
      | some (some z) =>
        check ((p.zone z).config.kind == .dry || (p.zone z).config.kind == .oven) .badZone (.ok (n, some z))) := by
  simp only [Part.checkDoor, finOf?_eq_some.2 number, DoorArgs.fieldsOk] <;> rfl

theorem Part.checkDoor_ok {a : DoorArgs} {n : Fin 16} {zone : Option (Fin 64)} {p : Part} (number : n.val = a.line)
    (good : a.fieldsOk = true) (bound : a.zone = 255 ∧ zone = none ∨ ∃ z : Fin 64, z.val = a.zone ∧ zone = some z ∧
      ((p.zone z).config.kind = .dry ∨ (p.zone z).config.kind = .oven)) : p.checkDoor a = .ok (n, zone) := by
  rw [Part.checkDoor_eq number, good]
  obtain ⟨none, rfl⟩ | ⟨z, val, rfl, kind⟩ := bound
  · rw [none, optField_none]
    rfl
  · rw [optField_number val (by omega)]
    obtain kind | kind := kind <;> simp [check, kind]

/-- Steps 1 to 3 of R94. -/
theorem DoorLine.configure_eq (l : DoorLine) (a : DoorArgs) : l.configure a = { l with
    openLow := a.polarity == 1, filterTime := a.filterTime, openLimit := a.openLimit
    filteredOpen := if (a.polarity == 1) = l.openLow then l.filteredOpen else l.high != (a.polarity == 1)
    timer := if (a.polarity == 1) = l.openLow then
        (if a.filterTime = l.filterTime then l.timer else l.timer.map fun _ => a.filterTime) else none } := by
  unfold DoorLine.configure
  dsimp only
  split
  · next same =>
    simp only [same]
  · next differs => simp

theorem Part.updateDoor_spec {z : Fin 64} {t : Nat} {reach : Reach} {p : Part} (open_ : p.jnc.closing = none) :
    p.UpdatesDoor z (p.updateDoor z t reach) := by
  cases lines : p.anyLineOpen z <;> cases door : (p.door z).isOpen
  case true.false => exact (Part.updateDoor_opens_spec open_ lines door).1
  case false.true => exact (Part.updateDoor_closes_spec open_ lines door).1
  all_goals
    rw [Part.updateDoor_same (lines.trans door.symm)]
    exact ⟨⟨rfl, rfl, rfl⟩, rfl, fun _ _ => rfl, door.trans lines.symm, fun _ => rfl, rfl, rfl, rfl, .refl _⟩

/-- What the door updates of a SET_DOOR leave of a part. -/
structure Part.KeepsLines (p q : Part) : Prop where
  outside : p.sameOutside q
  lines : q.dou.lines = p.dou.lines
  config : ∀ z, (q.zone z).config = (p.zone z).config
  prc : q.prc = p.prc
  closing : q.jnc.closing = p.jnc.closing
  inHand : q.exi.inHand = p.exi.inHand

theorem Part.KeepsLines.refl (p : Part) : p.KeepsLines p := ⟨⟨rfl, rfl, rfl⟩, rfl, fun _ => rfl, rfl, rfl, rfl⟩

theorem Part.KeepsLines.trans {p q r : Part} (h : p.KeepsLines q) (k : q.KeepsLines r) : p.KeepsLines r :=
  ⟨h.outside.trans k.outside, k.lines.trans h.lines, fun z => (k.config z).trans (h.config z), k.prc.trans h.prc,
    k.closing.trans h.closing, k.inHand.trans h.inHand⟩

theorem Part.UpdatesDoor.keepsLines {z : Fin 64} {p q : Part} (h : p.UpdatesDoor z q) : p.KeepsLines q :=
  ⟨h.outside, h.lines, h.config, h.prc, h.closing, h.inHand⟩

/-- The door of a line's zone, when it has one, is taken again. -/
def Part.updateBound (z : Option (Fin 64)) (p : Part) : Part := match z with
  | some z => p.updateDoor z p.now none
  | none => p

/-- The second count of a SET_DOOR. -/
def Part.boundOpen (z : Option (Fin 64)) (p : Part) : Nat := match z with
  | some z => (p.door z).isOpen.toNat
  | none => 0

theorem Part.updateBound_spec {z : Option (Fin 64)} {p : Part} (open_ : p.jnc.closing = none) :
    p.KeepsLines (p.updateBound z) ∧ ∀ y, z = some y → ((p.updateBound z).door y).isOpen = p.anyLineOpen y := by
  cases z with
  | none => exact ⟨.refl p, nofun⟩
  | some z =>
    have updates := Part.updateDoor_spec (z := z) (t := p.now) (reach := none) open_
    refine ⟨updates.keepsLines, fun y hy => ?_⟩
    obtain rfl := Option.some.inj hy
    exact updates.isOpen

/-- The part once the line is written and the doors of its old and its new zone are taken again. -/
def Part.doorSet (n : Fin 16) (zone : Option (Fin 64)) (a : DoorArgs) (p : Part) : Part :=
  let l := (p.line n).configure a
  if zone = (p.line n).zone then
    if l.filteredOpen = (p.line n).filteredOpen then p.setLine n l else (p.setLine n l).updateBound zone
  else ((p.setLine n { l with zone := zone, pendingOpen := false }).updateBound (p.line n).zone).updateBound zone

theorem Part.applyDoor_eq (n : Fin 16) (zone : Option (Fin 64)) (a : DoorArgs) (p : Part) : p.applyDoor n zone a =
    ((p.doorSet n zone a).offerDocket (.part (.door n))).finishDocket
      { result := .ok, first := ((p.line n).configure a).filteredOpen.toNat
        second := (p.doorSet n zone a).boundOpen zone
        value := 0 } := by
  have named : p.applyDoor n zone a = (let q := p.doorSet n zone a
      (q.offerDocket (.part (.door n))).finishDocket
        { result := .ok, first := ((p.line n).configure a).filteredOpen.toNat
          second := q.boundOpen zone
          value := 0 }) := by
    unfold Part.applyDoor Part.doorSet
    dsimp only
    split
    · split <;> rfl
    · rfl
  exact named

/-- The line that a SET_DOOR leaves. -/
def DoorLine.bound (l : DoorLine) (zone : Option (Fin 64)) (a : DoorArgs) : DoorLine :=
  { l.configure a with zone := zone, pendingOpen := if zone = l.zone then l.pendingOpen else false }

theorem Part.anyLineOpen_of_lines {p q : Part} (z : Fin 64) (lines : q.dou.lines = p.dou.lines) :
    q.anyLineOpen z = p.anyLineOpen z := by
  unfold Part.anyLineOpen Part.line
  rw [lines]

theorem Part.doorSet_spec (n : Fin 16) (zone : Option (Fin 64)) (a : DoorArgs) {p : Part} (open_ : p.jnc.closing =
    none) :
    (p.setLine n ((p.line n).bound zone a)).KeepsLines (p.doorSet n zone a) ∧
    (zone ≠ (p.line n).zone → ∀ z, zone = some z →
      ((p.doorSet n zone a).door z).isOpen = (p.doorSet n zone a).anyLineOpen z) ∧
    (zone = (p.line n).zone → ((p.line n).configure a).filteredOpen = (p.line n).filteredOpen →
      p.doorSet n zone a = p.setLine n ((p.line n).bound zone a)) := by
  by_cases same : zone = (p.line n).zone
  · have bound : (p.line n).bound zone a = (p.line n).configure a := by
      simp only [DoorLine.bound, DoorLine.configure_eq, same, if_true]
    have written : p.doorSet n zone a = if ((p.line n).configure a).filteredOpen = (p.line n).filteredOpen then
        p.setLine n ((p.line n).configure a) else (p.setLine n ((p.line n).configure a)).updateBound zone := by
      simp only [Part.doorSet, if_pos same]
    rw [bound, written]
    refine ⟨?_, fun differs => absurd same differs, fun _ unmoved => if_pos unmoved⟩
    split
    · exact .refl _
    · exact (Part.updateBound_spec (p := p.setLine n _) open_).1
  · have bound : (p.line n).bound zone a = { (p.line n).configure a with zone := zone, pendingOpen := false } := by
      simp only [DoorLine.bound, if_neg same]
    have written : p.doorSet n zone a =
        ((p.setLine n ((p.line n).bound zone a)).updateBound (p.line n).zone).updateBound zone := by
      simp only [Part.doorSet, if_neg same, bound]
    obtain ⟨old, -⟩ := Part.updateBound_spec (z := (p.line n).zone)
      (p := p.setLine n ((p.line n).bound zone a)) open_
    obtain ⟨new, isOpen⟩ := Part.updateBound_spec (z := zone) (old.closing.trans open_)
    rw [written]
    refine ⟨old.trans new, fun _ z hz => (isOpen z hz).trans ?_, fun equal => absurd equal same⟩
    exact (Part.anyLineOpen_of_lines z new.lines).symm

theorem Part.applyDoor_spec {n : Fin 16} {zone : Option (Fin 64)} {a : DoorArgs} {p : Part} {d : InHand}
    (open_ : p.jnc.closing = none) (inHand : p.exi.inHand = some d) :
    ∃ j x, p.applyDoor n zone a = { p.doorSet n zone a with
        jnc := j, exi := { (p.doorSet n zone a).exi with inHand := some { d with stage := .finished x } } } ∧
      x = { result := .ok, first := ((p.line n).configure a).filteredOpen.toNat
            second := (p.doorSet n zone a).boundOpen zone
            value := 0 } := by
  obtain ⟨keeps, -, -⟩ := Part.doorSet_spec n zone a open_
  obtain ⟨j, offered, -⟩ := Part.offerDocket_part (.door n) (keeps.closing.trans open_)
  refine ⟨j, _, ?_, rfl⟩
  rw [Part.applyDoor_eq, offered]
  exact Part.finishDocket_spec (p := { p.doorSet n zone a with jnc := j }) (keeps.inHand.trans inHand) _

/-- Settles O43: the checks stand in their order in `checkDoor_eq`; the line, its zone's door and what stands are in
`doorSet_spec`. -/
theorem setDoorConfiguresTheLine : Obligations.SetDoorConfiguresTheLine := by
  intro s d a n on hands p l good number open_
  obtain ⟨inHand, -, -⟩ := id hands
  have answered := exec_setDoor on hands
  have refused : ∀ r, p.checkDoor a = .error r → exec .setDoor s = .next (s.withPart (p.refusedWith d r)) := by
    intro r fails
    rw [answered, Part.setDoorDocket, fails]
    exact next_congr (Part.refuseDocket_spec inHand r)
  refine ⟨fun bad => refused _ ?_, fun fine z val notDry notOven => refused _ ?_, fun zone fine bound => ?_⟩
  · rw [Part.checkDoor_eq number, Bool.eq_false_iff.2 (mt (DoorArgs.fieldsOk_iff a).1 bad)]
    rfl
  · rw [Part.checkDoor_eq number, (DoorArgs.fieldsOk_iff a).2 fine, optField_number val (by omega)]
    simp [check, notDry, notOven]
  · intro l'
    have line : l.bound zone a = l' := by
      show DoorLine.bound _ _ _ = _
      simp only [DoorLine.bound, DoorLine.configure_eq]
      rfl
    obtain ⟨j, x, applied, answer⟩ := Part.applyDoor_spec (n := n) (zone := zone) (a := a) open_ inHand
    obtain ⟨keeps, isOpen, unmoved⟩ := Part.doorSet_spec n zone a open_
    refine ⟨{ p.doorSet n zone a with jnc := j, exi := { (p.doorSet n zone a).exi with
      inHand := some { d with stage := .finished x } } }, ?_, keeps.outside, ?_, fun m other => ?_, keeps.prc,
        keeps.config, ?_, ?_, ?_⟩
    · rw [answered, Part.setDoorDocket, Part.checkDoor_ok number ((DoorArgs.fieldsOk_iff a).2 fine) bound]
      exact next_congr applied
    · exact (congrArg (·[n]) keeps.lines).trans ((Part.line_setLine_self ..).trans line)
    · exact (congrArg (·[m]) keeps.lines).trans (Part.line_setLine_of_ne other.symm ..)
    · intro z hz differs
      exact isOpen differs z hz
    · intro same (polarity : _ = (p.line n).openLow)
      have stands := unmoved same (by simp [DoorLine.configure_eq, polarity])
      simp only [stands]
      exact ⟨rfl, rfl, rfl⟩
    · have filtered : ((p.line n).configure a).filteredOpen = l'.filteredOpen := by
        rw [← line]
        rfl
      rw [filtered] at answer
      subst answer
      cases zone <;> rfl

/-! ### SET_CLASS and SET_ENGINE -/

/-- The ranges of R2. -/
theorem ClassArgs.valid_iff (a : ClassArgs) : a.valid = true ↔
    1 ≤ a.allowance ∧ a.allowance ≤ 1048575 ∧ a.warnMargin ≤ a.allowance ∧ a.ceiling ≤ 100 ∧ 300 ≤ a.bakeTemp ∧
      a.bakeTemp ≤ a.bakeMax ∧ a.bakeMax ≤ 1500 ∧ 1 ≤ a.bakeDuration ∧ a.bakeDuration ≤ 65535 ∧ a.maxBakes ≤ 15 := by
  simp only [ClassArgs.valid, Bool.and_eq_true, decide_eq_true_eq, and_assoc]

/-- The ranges of R5. -/
theorem Settings.valid_iff (v : Settings) : v.valid = true ↔
    256 ≤ v.ceiling ∧ v.ceiling ≤ 1023 ∧ v.outage ≤ 1023 ∧ v.backdate ≤ 3600 ∧ v.repeatWindow ≤ 255 ∧
      v.tempHyst ≤ 50 ∧ v.rhHyst ≤ 50 := by
  simp only [Settings.valid, Bool.and_eq_true, decide_eq_true_eq, and_assoc]

theorem Part.checkClass_eq {a : ClassArgs} {n : Fin 16} {p : Part} (number : n.val = a.cls) : p.checkClass a =
    check (a.defined == 0 || (a.defined == 1 && a.valid)) .badArg
      (check ((p.cls n).useCount == 0) .classInUse (.ok n)) := by
  simp only [Part.checkClass, finOf?_eq_some.2 number]

/-- A setting entry that a docket stages once its record is written: the journal alone takes it, and the docket is
done. -/
theorem Part.offerDocket_finish {o : Offer} {p : Part} {d : InHand} (a : Answer) (closing : p.jnc.closing = none)
    (inHand : p.exi.inHand = some d) (plain : ∀ pl ∈ p.offerPayloads o, pl.isImage = false)
    (few : (p.offerPayloads o).length ≤ 5) :
    ∃ j, (p.offerDocket o).finishDocket a =
        { p with jnc := j, exi := { p.exi with inHand := some { d with stage := .finished a } } } ∧
      (p.journalTakes → j.queue = p.jnc.queue ++ p.stagedNow (p.offerPayloads o)) := by
  obtain ⟨j, offered, -⟩ := Part.offerDocket_plain closing plain
  refine ⟨j, ?_, fun takes => ?_⟩
  · rw [offered]
    exact Part.finishDocket_spec (p := { p with jnc := j }) inHand a
  · obtain ⟨j', offered', queue, -⟩ := Part.offerDocket_room (Part.hasRoom_of_takes takes) few
    obtain rfl : j = j' := congrArg Part.jnc (offered.symm.trans offered')
    exact queue

theorem Part.setClassDocket_refused {a : ClassArgs} {d : InHand} {r : ResultCode} {p : Part} (inHand : p.exi.inHand =
    some d)
    (fails : p.checkClass a = .error r) : p.setClassDocket a = p.refusedWith d r := by
  rw [Part.setClassDocket, fails]
  exact Part.refuseDocket_spec inHand r

theorem Part.setClassDocket_written {a : ClassArgs} {n : Fin 16} {d : InHand} {p : Part} (inHand : p.exi.inHand =
    some d)
    (closing : p.jnc.closing = none) (passes : p.checkClass a = .ok n) {k : Option ClassDef}
    (defn : (if a.defined = 1 then some a.define else none) = k) :
    ∃ j, p.setClassDocket a = { p.setCls n { defn := k, useCount := 0 } with
        jnc := j, exi := { p.exi with inHand := some { d with stage := .finished (plainAnswer .ok) } } } ∧
      (p.journalTakes → j.queue = p.jnc.queue ++ p.stagedNow [.classImage n (k.map ClassDef.image)]) := by
  have image : (p.setCls n { defn := k, useCount := 0 }).offerPayloads (.cls n) =
      [.classImage n (k.map ClassDef.image)] := by simp [Part.offerPayloads]
  obtain ⟨j, written, queue⟩ := Part.offerDocket_finish (o := .cls n) (p := p.setCls n { defn := k, useCount := 0 })
    (plainAnswer .ok) closing inHand (by simp [image, Payload.isImage]) (by simp [image])
  refine ⟨j, ?_, fun takes => ?_⟩
  · rw [Part.setClassDocket, passes, ← defn]
    rw [← defn] at written
    exact written
  · rw [image] at queue
    exact queue takes

/-- A SET_ENGINE that names neither the ceiling nor a hysteresis leaves these three. -/
theorem EngineArgs.apply_of_still {a : EngineArgs} (still : a.reevaluates = false) (v : Settings) : a.apply v = { v with
    outage := if a.mask.getLsbD 1 then a.outage else v.outage
    backdate := if a.mask.getLsbD 2 then a.backdate else v.backdate
    repeatWindow := if a.mask.getLsbD 3 then a.repeatWindow else v.repeatWindow } := by
  simp only [EngineArgs.reevaluates, Bool.or_eq_false_iff] at still
  obtain ⟨⟨ceiling, temp⟩, rh⟩ := still
  simp only [EngineArgs.apply, ceiling, temp, rh, Bool.false_eq_true, if_false]

theorem Part.setEngineDocket_written {a : EngineArgs} {d : InHand} {p : Part} (inHand : p.exi.inHand = some d)
    (triggers : d.triggers = []) (closing : p.jnc.closing = none) (names : a.names = true)
    (still : a.reevaluates = false) (valid : (a.apply p.znu.settings).valid = true) :
    ∃ j, p.setEngineDocket a = { p with
        jnc := j, znu := { p.znu with settings := a.apply p.znu.settings }
        exi := { p.exi with inHand := some { d with stage := .finished (plainAnswer .ok) } } } ∧
      (p.journalTakes → j.queue = p.jnc.queue ++ p.stagedNow [.engineImage (a.apply p.znu.settings)]) := by
  obtain ⟨j, written, queue⟩ := Part.offerDocket_finish (o := .part .engine)
    (p := { p with znu := { p.znu with settings := a.apply p.znu.settings } }) (plainAnswer .ok) closing inHand
    (Part.partPayloads_plain _ .engine) (by simp [Part.offerPayloads, Part.partPayloads])
  refine ⟨j, ?_, queue⟩
  simp only [Part.setEngineDocket, names, still, valid, Bool.not_true, Bool.false_eq_true, if_false, written,
    Part.awaitTriggers, Part.setInHand]
  rw [← triggers]

/-- Settles O38: the checks of SET_CLASS in their order (`checkClass_eq`), and the records written with their images
(`setClassDocket_written`, `setEngineDocket_written`). -/
theorem classAndEngineSettingsAreWritten : Obligations.ClassAndEngineSettingsAreWritten := by
  intro s d on closing triggers p done inRange
  refine ⟨fun a hands outside => ?_, fun a n hands number => ?_, Settings.valid_iff, fun a hands empty => ?_,
    fun a hands names still => ⟨fun valid => ?_, fun invalid => ?_⟩⟩
  · rw [exec_setClass on hands]
    refine next_congr (Part.setClassDocket_refused hands.1 ?_)
    simp only [Part.checkClass, finOf?_eq_none.2 (by omega : 16 ≤ a.cls)]
  · rw [exec_setClass on hands]
    have badArg : 1 < a.defined ∨ (a.defined = 1 ∧ ¬inRange a) →
        (a.defined == 0 || (a.defined == 1 && a.valid)) = false := by
      rintro (big | ⟨defined, bad⟩)
      · simp only [Bool.or_eq_false_iff, beq_eq_false_iff_ne, Bool.and_eq_false_iff]
        omega
      · rw [defined, Bool.eq_false_iff.2 (mt (ClassArgs.valid_iff a).1 bad)]
        rfl
    have fieldsOk : a.defined = 0 ∨ (a.defined = 1 ∧ inRange a) →
        (a.defined == 0 || (a.defined == 1 && a.valid)) = true := by
      rintro (undefined | ⟨defined, good⟩)
      · rw [undefined]
        rfl
      · rw [defined, (ClassArgs.valid_iff a).2 good]
        rfl
    have passes (unused : (p.cls n).useCount = 0) (good : a.defined = 0 ∨ (a.defined = 1 ∧ inRange a)) :
        p.checkClass a = .ok n := by
      rw [Part.checkClass_eq number, fieldsOk good, beq_iff_eq.2 unused]
      rfl
    refine ⟨fun bad => next_congr (Part.setClassDocket_refused hands.1 ?_),
      fun used good => next_congr (Part.setClassDocket_refused hands.1 ?_), fun unused undefined => ?_,
      fun unused defined good => ?_⟩
    · rw [Part.checkClass_eq number, badArg bad]
      rfl
    · rw [Part.checkClass_eq number, fieldsOk good,
        beq_eq_false_iff_ne.2 (show (s.part.cls n).useCount ≠ 0 from used.ne')]
      rfl
    · obtain ⟨j, written, queue⟩ := Part.setClassDocket_written hands.1 closing (passes unused (.inl undefined))
        (if_neg (by omega))
      exact ⟨_, next_congr written, rfl, queue⟩
    · obtain ⟨j, written, queue⟩ := Part.setClassDocket_written hands.1 closing (passes unused (.inr ⟨defined, good⟩))
        (if_pos defined)
      exact ⟨_, _, next_congr written, rfl, rfl, queue⟩
  · rw [exec_setEngine on hands]
    refine next_congr ?_
    simp only [Part.setEngineDocket, EngineArgs.names, empty]
    exact Part.finishDocket_spec hands.1 _
  · rw [exec_setEngine on hands]
    obtain ⟨j, written, queue⟩ := Part.setEngineDocket_written hands.1 triggers closing names still valid
    refine ⟨_, next_congr written, ?_, queue⟩
    rw [← EngineArgs.apply_of_still still]
  · rw [exec_setEngine on hands]
    refine next_congr ?_
    simp only [Part.setEngineDocket, names, show (a.apply s.part.znu.settings).valid = false from invalid]
    exact Part.refuseDocket_spec hands.1 _

end Sys2Proof.Machine

/-! ## The exposure account (O59, O60) -/

namespace Sys2Proof.Machine

/-! ### What a settle does in each mode -/

/-- A container expires where its exposure has been found at its limit. -/
theorem settleRecord_accrue_expires {k : ClassDef} {c : Container} {m T : Nat} (mode : c.mode = .accrue m)
    (later : c.settled ≤ T) (opened : c.custody = .opened) (limit : k.limit ≤ c.exposure + (T - c.settled) * m) :
    settleRecord k T c = ({ c with exposure := k.limit, settled := T, custody := .expired, mode := .hold }, true) := by
  simp only [settleRecord, if_neg (Nat.not_lt.2 later), mode, opened, limit, and_self, if_true, Container.expire,
    Nat.min_eq_left limit]

/-- The exposure grows up to the limit, which is not reached by an OPEN container. -/
theorem settleRecord_accrue_grows {k : ClassDef} {c : Container} {m T : Nat} (mode : c.mode = .accrue m)
    (later : c.settled ≤ T) (below : c.custody = .opened → c.exposure + (T - c.settled) * m < k.limit) :
    settleRecord k T c =
      ({ c with exposure := min k.limit (c.exposure + (T - c.settled) * m), settled := T }, false) := by
  simp only [settleRecord, if_neg (Nat.not_lt.2 later), mode]
  exact if_neg fun h => Nat.not_lt.2 h.2 (below h.1)

theorem settleRecord_credit {k : ClassDef} {c : Container} {r T : Nat} (mode : c.mode = .credit r)
    (later : c.settled ≤ T) :
    settleRecord k T c = ({ c with exposure := c.exposure - (T - c.settled) * r, settled := T }, false) := by
  simp only [settleRecord, if_neg (Nat.not_lt.2 later), mode]

theorem settleRecord_still {k : ClassDef} {c : Container} {T : Nat} (mode : c.mode = .hold ∨ c.mode = .bakePause)
    (later : c.settled ≤ T) : settleRecord k T c = ({ c with settled := T }, false) := by
  obtain mode | mode := mode <;> simp only [settleRecord, if_neg (Nat.not_lt.2 later), mode]

theorem settleRecord_bakes {k : ClassDef} {c : Container} {T : Nat} (mode : c.mode = .bakeRun) (later : c.settled ≤ T)
    (left : T - c.settled < bakeLeft k c) : settleRecord k T c =
      ({ c with bakeProgress := some (c.bakeProgress.getD 0 + (T - c.settled)), settled := T }, false) := by
  simp only [settleRecord, if_neg (Nat.not_lt.2 later), mode, if_neg (Nat.not_le.2 left)]

theorem settleRecord_bakeEnds {k : ClassDef} {c : Container} {T : Nat} (mode : c.mode = .bakeRun)
    (later : c.settled ≤ T) (ends : bakeLeft k c ≤ T - c.settled) :
    settleRecord k T c = ({ c.completeBake with settled := T }, true) := by
  simp only [settleRecord, if_neg (Nat.not_lt.2 later), mode, if_pos ends]

/-! ### Settling twice -/

/-- The two intervals of a settle in two steps. -/
theorem interval_split {S T1 T2 : Nat} (first : S ≤ T1) (second : T1 ≤ T2) (m : Nat) :
    (T1 - S) * m + (T2 - T1) * m = (T2 - S) * m := by
  rw [← Nat.add_mul]
  congr 1
  omega

/-- R10, R123: a settle to T2 is a settle to T1 and then one to T2, with an image called for by either. -/
theorem settleRecord_settleRecord (k : ClassDef) {c : Container} {T1 T2 : Nat} (first : c.settled ≤ T1)
    (second : T1 ≤ T2) :
    settleRecord k T2 c = ((settleRecord k T2 (settleRecord k T1 c).1).1,
      (settleRecord k T1 c).2 || (settleRecord k T2 (settleRecord k T1 c).1).2) := by
  have whole := first.trans second
  cases mode : c.mode with
  | accrue m =>
    have split := interval_split first second m
    by_cases opened : c.custody = .opened
    · by_cases early : k.limit ≤ c.exposure + (T1 - c.settled) * m
      · rw [settleRecord_accrue_expires mode whole opened (by omega),
          settleRecord_accrue_expires mode first opened early, settleRecord_still (.inl rfl) second]
        rfl
      · rw [settleRecord_accrue_grows mode first fun _ => Nat.not_le.1 early]
        have grown : min k.limit (c.exposure + (T1 - c.settled) * m) = c.exposure + (T1 - c.settled) * m := by omega
        rw [grown]
        by_cases late : k.limit ≤ c.exposure + (T2 - c.settled) * m
        · rw [settleRecord_accrue_expires mode whole opened late,
            settleRecord_accrue_expires (by exact mode) second (by exact opened) (by dsimp only; omega)]
          rfl
        · rw [settleRecord_accrue_grows mode whole fun _ => Nat.not_le.1 late,
            settleRecord_accrue_grows (by exact mode) second fun _ => by dsimp only; omega]
          dsimp only
          rw [Nat.add_assoc, split]
          rfl
    · rw [settleRecord_accrue_grows mode whole fun h => absurd h opened,
        settleRecord_accrue_grows mode first fun h => absurd h opened,
        settleRecord_accrue_grows (by exact mode) second fun h => by exact absurd h opened]
      have grown : min k.limit (min k.limit (c.exposure + (T1 - c.settled) * m) + (T2 - T1) * m) =
          min k.limit (c.exposure + (T2 - c.settled) * m) := by omega
      dsimp only
      rw [grown]
      rfl
  | credit r =>
    rw [settleRecord_credit mode whole, settleRecord_credit mode first, settleRecord_credit (by exact mode) second,
      ← interval_split first second r, ← Nat.sub_sub]
    rfl
  | hold =>
    rw [settleRecord_still (.inl mode) whole, settleRecord_still (.inl mode) first,
      settleRecord_still (.inl (by exact mode)) second]
    rfl
  | bakePause =>
    rw [settleRecord_still (.inr mode) whole, settleRecord_still (.inr mode) first,
      settleRecord_still (.inr (by exact mode)) second]
    rfl
  | bakeRun =>
    by_cases early : bakeLeft k c ≤ T1 - c.settled
    · rw [settleRecord_bakeEnds mode whole (by omega), settleRecord_bakeEnds mode first early,
        settleRecord_still (.inl rfl) second]
      rfl
    · rw [settleRecord_bakes mode first (Nat.not_le.1 early)]
      unfold bakeLeft at early
      by_cases late : bakeLeft k c ≤ T2 - c.settled
      · rw [settleRecord_bakeEnds mode whole late]
        unfold bakeLeft at late
        rw [settleRecord_bakeEnds (by exact mode) second
          (by simp only [bakeLeft, Option.getD_some]; omega)]
        rfl
      · rw [settleRecord_bakes mode whole (Nat.not_le.1 late)]
        unfold bakeLeft at late
        rw [settleRecord_bakes (by exact mode) second (by simp only [bakeLeft, Option.getD_some]; omega)]
        simp only [Option.getD_some, Bool.or_self, Prod.mk.injEq, and_true, Container.mk.injEq, Option.some.injEq,
          true_and]
        omega

/-- R12: no settle leaves more than the limit that was not above it. -/
theorem settleRecord_exposure_le {k : ClassDef} {c : Container} {T : Nat} (h : c.exposure ≤ k.limit) :
    (settleRecord k T c).1.exposure ≤ k.limit := by
  unfold settleRecord
  split
  · exact h
  · split
    case h_1 =>
      dsimp only
      split <;> exact Nat.min_le_left ..
    case h_2 => exact (Nat.sub_le ..).trans h
    case h_3 | h_4 => exact h
    case h_5 =>
      dsimp only
      split
      · exact Nat.zero_le _
      · exact h

/-- Settles O59 by `settleRecord_settleRecord`. -/
theorem settlingIsAdditive : Obligations.SettlingIsAdditive := by
  intro k c T1 T2 first second
  have twice := settleRecord_settleRecord k first second
  refine ⟨?_, ?_, settleRecord_settled k (first.trans second), settleRecord_exposure_le,
    fun T before => settleRecord_before k before⟩
  · rw [twice]
  · rw [twice, Bool.or_eq_true]

/-! ### Dues -/

theorem ceilDiv_le_iff {a b n : Nat} (pos : 0 < b) : ceilDiv a b ≤ n ↔ a ≤ n * b := by
  unfold ceilDiv
  rw [← Nat.lt_succ_iff, Nat.div_lt_iff_lt_mul pos, Nat.succ_mul]
  omega

/-- The dues of an OPEN container that accrues (R13). -/
theorem withDues_accrue {k : ClassDef} {c : Container} {m : Nat} (opened : c.custody = .opened)
    (mode : c.mode = .accrue m) (pos : 0 < m) : withDues k c = { c with
      warnDue := if c.warned = false ∧ 0 < k.warnTicks ∧ k.warnTicks < remaining k c then
          some (capDue (c.settled + ceilDiv (remaining k c - k.warnTicks) m)) else none
      expireDue := some (capDue (c.settled + ceilDiv (remaining k c) m)) } := by
  simp only [withDues, opened, mode, if_pos pos]

/-- A due below the last second is not capped. -/
theorem capDue_below {n d : Nat} (due : capDue n = d) (below : d < Config.lastSecond) : n = d := by
  unfold capDue at due
  omega

/-- Settles O60: a due lies at or before `T` exactly when the ticks to it have accrued by `T` (`ceilDiv_le_iff`). -/
theorem duesAreFirstCrossings : Obligations.DuesAreFirstCrossings := by
  intro k c m T d opened mode pos under below later
  rw [withDues_accrue opened mode pos]
  have crosses {a : Nat} : c.settled + ceilDiv a m ≤ T ↔ a ≤ (T - c.settled) * m := by
    rw [← ceilDiv_le_iff pos]
    omega
  have warnCrossing (due : (if c.warned = false ∧ 0 < k.warnTicks ∧ k.warnTicks < remaining k c then
      some (capDue (c.settled + ceilDiv (remaining k c - k.warnTicks) m)) else none) = some d) :
      (d ≤ T ↔ remaining k c - k.warnTicks ≤ (T - c.settled) * m) ∧ 0 < k.warnTicks ∧ k.warnTicks < remaining k c := by
    split at due
    · next margin =>
      rw [← capDue_below (Option.some.inj due) below, crosses]
      exact ⟨Iff.rfl, margin.2⟩
    · cases due
  unfold remaining at *
  refine ⟨fun due => ?_, fun unwarned due => ?_, fun unwarned due before => ?_⟩
  · rw [← capDue_below (Option.some.inj due) below, crosses]
    by_cases limit : k.limit ≤ c.exposure + (T - c.settled) * m
    · rw [settleRecord_accrue_expires mode later opened limit]
      exact ⟨fun _ => by omega, fun _ => rfl⟩
    · rw [settleRecord_accrue_grows mode later fun _ => Nat.not_le.1 limit]
      simp only [opened, reduceCtorEq, false_iff]
      omega
  · obtain ⟨crossing, margin, -⟩ := warnCrossing due
    by_cases limit : k.limit ≤ c.exposure + (T - c.settled) * m
    · rw [settleRecord_accrue_expires mode later opened limit]
      exact .inr (.inl (Nat.le_refl _))
    · rw [or_iff_not_imp_left, Nat.not_lt, crossing]
      intro near
      rw [settleRecord_accrue_grows mode later fun _ => Nat.not_le.1 limit, warnRecord, if_pos]
      · exact .inr rfl
      · refine ⟨opened, unwarned, margin, ?_⟩
        dsimp only [remaining]
        omega
  · obtain ⟨crossing, margin, -⟩ := warnCrossing due
    have far : ¬ k.limit - c.exposure - k.warnTicks ≤ (T - c.settled) * m := mt crossing.2 (Nat.not_le.2 before)
    rw [settleRecord_accrue_grows mode later fun _ => by omega, warnRecord, if_neg, if_neg]
    · exact unwarned
    · exact fun h => Bool.false_ne_true (unwarned.symm.trans h.2.1)
    · rintro ⟨-, -, -, near⟩
      dsimp only [remaining] at near
      omega

end Sys2Proof.Machine

/-! ## What a change of one slot writes -/

namespace Sys2Proof.Machine

theorem Part.sameConfig.trans {p q r : Part} (h : p.sameConfig q) (k : q.sameConfig r) : p.sameConfig r := by
  obtain ⟨config, cells, temp, rh, settings⟩ := h
  obtain ⟨config', cells', temp', rh', settings'⟩ := k
  exact ⟨fun z => (config' z).trans (config z), cells'.trans cells, temp'.trans temp, rh'.trans rh,
    settings'.trans settings⟩

theorem Part.sameOtherSlots.trans {i : Fin 2048} {p q r : Part} (h : p.sameOtherSlots i q) (k : q.sameOtherSlots i r) :
    p.sameOtherSlots i r := fun j other => (k j other).trans (h j other)

/-! ### The counts of a zone and of the header -/

/-- A zone's record when the contribution of a member moves (R39). -/
def Zone.recounted (r : Zone) (oldBlocks oldWarned blocks warned : Bool) : Zone :=
  if oldBlocks = blocks ∧ oldWarned = warned then r
  else { r with blocking := r.blocking - oldBlocks.toNat + blocks.toNat
                warnedCount := r.warnedCount - oldWarned.toNat + warned.toNat }

theorem Zone.recounted_eq (r : Zone) (a b c d : Bool) :
    r.recounted a b c d = { r with blocking := (r.recounted a b c d).blocking
                                   warnedCount := (r.recounted a b c d).warnedCount } := by
  unfold Zone.recounted
  split <;> rfl

/-- The header counts once a container's level has moved (R138). -/
def Dlu.relevel (old new : AlertLevel) (d : Dlu) : Dlu :=
  if old = new then d
  else
    let d := d.setCount old (d.count old - 1)
    d.setCount new (d.count new + 1)

/-- The three header counts. -/
def Dlu.counts (d : Dlu) : Nat × Nat × Nat := (d.warnCount, d.expiredCount, d.quarantinedCount)

theorem Dlu.count_of_counts {d e : Dlu} (h : e.counts = d.counts) (l : AlertLevel) : e.count l = d.count l := by
  simp only [Dlu.counts, Prod.mk.injEq] at h
  cases l <;> simp [Dlu.count, h]

theorem Dlu.counts_setCount {d e : Dlu} (h : e.counts = d.counts) (l : AlertLevel) (n : Nat) :
    (e.setCount l n).counts = (d.setCount l n).counts := by
  simp only [Dlu.counts, Prod.mk.injEq] at h
  cases l <;> simp [Dlu.counts, Dlu.setCount, h]

theorem Dlu.counts_relevel {d e : Dlu} (h : e.counts = d.counts) (a b : AlertLevel) :
    (e.relevel a b).counts = (d.relevel a b).counts := by
  unfold Dlu.relevel
  split
  · exact h
  · have first := Dlu.counts_setCount h a (d.count a - 1)
    dsimp only
    rw [Dlu.count_of_counts h a, Dlu.count_of_counts first b]
    exact Dlu.counts_setCount first b _

theorem Dlu.counts_checkPass (d : Dlu) : d.checkPass.counts = d.counts := by
  unfold Dlu.checkPass
  split
  · split <;> rfl
  · rfl

theorem Dlu.counts_place (i : Fin 2048) (due : Nat) (kind : DueKind) (d : Dlu) : (d.place i due kind).counts =
    d.counts := by
  unfold Dlu.place
  dsimp only
  split
  · rfl
  · rw [Dlu.counts_checkPass]
    unfold Dlu.noteMoved
    split <;> rfl

theorem Dlu.counts_remove (i : Fin 2048) (d : Dlu) : (d.remove i).counts = d.counts := by
  unfold Dlu.remove
  split
  · exact Dlu.counts_checkPass _
  · rfl

/-! ### Each part of a record's commit -/

theorem Part.placeDue_eq (i : Fin 2048) (c : Container) (p : Part) :
    ∃ d, p.placeDue i c = { p with dlu := d } ∧ d.counts = p.dlu.counts := by
  unfold Part.placeDue
  split
  · exact ⟨_, rfl, Dlu.counts_place ..⟩
  · exact ⟨_, rfl, Dlu.counts_remove ..⟩

theorem Part.moveCounts_eq (z : Fin 64) (a b c d : Bool) (p : Part) : ∃ marks dou,
    p.moveCounts z a b c d = { p with
      exi := { p.exi with zoneMarks := marks }
      znu := { p.znu with zones := p.znu.zones.set z ((p.zone z).recounted a b c d) }
      dou := dou } := by
  unfold Part.moveCounts Zone.recounted
  split
  · refine ⟨p.exi.zoneMarks, p.dou, ?_⟩
    simp [Part.zone]
  · obtain ⟨marks, hz⟩ := p.setZone_spec z { p.zone z with
      blocking := (p.zone z).blocking - a.toNat + c.toNat, warnedCount := (p.zone z).warnedCount - b.toNat + d.toNat }
    dsimp only
    rw [hz]
    exact ⟨marks, _, Part.sameButDou_reportCounts z _⟩

theorem Part.reportLevel_eq (a b : AlertLevel) (p : Part) : ∃ rise cause messages,
    p.reportLevel a b = { p with
      dlu := p.dlu.relevel a b
      exi := { p.exi with headerMark := p.exi.headerMark || decide (a ≠ b)
                          rise := rise, cause := cause, messages := messages } } ∧
    (a.rank < b.rank → p.exi.intake = .on → rise = true) ∧
    (b.rank ≤ a.rank → rise = p.exi.rise ∧ cause = p.exi.cause ∧ messages = p.exi.messages) := by
  unfold Part.reportLevel Dlu.relevel
  split
  · next same =>
    refine ⟨p.exi.rise, p.exi.cause, p.exi.messages, by simp [same], fun h => ?_, fun _ => ⟨rfl, rfl, rfl⟩⟩
    rw [same] at h
    exact absurd h (Nat.lt_irrefl _)
  · next differs =>
    dsimp only
    split
    · next rises =>
      unfold Part.handRise
      split
      · refine ⟨true, p.exi.cause, p.exi.messages, ?_, fun _ _ => rfl, fun h => absurd rises (Nat.not_lt.2 h)⟩
        simp [Part.countLevel, Part.onDlu, Part.postHeader, differs]
      · next off =>
        refine ⟨p.exi.rise, ((p.countLevel a b).raise .alert).exi.cause,
          ((p.countLevel a b).raise .alert).exi.messages, ?_,
          fun _ on => absurd on off, fun h => absurd rises (Nat.not_lt.2 h)⟩
        rw [Part.raise_eq]
        simp [Part.countLevel, Part.onDlu, Part.postHeader, differs]
    · next falls =>
      refine ⟨p.exi.rise, p.exi.cause, p.exi.messages, ?_, fun h => absurd h falls, fun _ => ⟨rfl, rfl, rfl⟩⟩
      simp [Part.countLevel, Part.onDlu, Part.postHeader, differs]

theorem Part.postIfChanged_eq (i : Fin 2048) (a b : Option Container) (p : Part) :
    ∃ marks, p.postIfChanged i a b = { p with exi := { p.exi with slotMarks := marks } } := by
  unfold Part.postIfChanged
  split
  · exact ⟨p.exi.slotMarks, rfl⟩
  · exact ⟨_, rfl⟩

/-! ### The commit of a record -/

/-- The part `q` is `p` with the record `c` in slot `i`, where `old` stood, and its consequences: the zone's counts, the
header counts and ALERT (R19 steps 3 to 5). -/
structure Part.Commits (i : Fin 2048) (old c : Container) (p q : Part) : Prop where
  eq : q = { p with
    exi := { p.exi with headerMark := q.exi.headerMark, zoneMarks := q.exi.zoneMarks, slotMarks := q.exi.slotMarks
                        rise := q.exi.rise, cause := q.exi.cause, messages := q.exi.messages }
    ctu := (p.setSlot i (some c)).ctu
    znu := { p.znu with zones := p.znu.zones.set c.zone <|
      ((p.zone c.zone).recounted old.blocks old.countsWarned c.blocks c.countsWarned) }
    dou := q.dou, dlu := q.dlu }
  counts : q.dlu.counts = (p.dlu.relevel old.level c.level).counts
  header : q.exi.headerMark = (p.exi.headerMark || decide (old.level ≠ c.level))
  rise : old.level.rank < c.level.rank → p.exi.intake = .on → q.exi.rise = true

theorem Part.commits_commitRecord (i : Fin 2048) (old c : Container) (p : Part) :
    p.Commits i old c (p.commitRecord i old c) := by
  obtain ⟨d, placed, counts⟩ := (p.setSlot i (some c)).placeDue_eq i c
  obtain ⟨marks, dou, moved⟩ := Part.moveCounts_eq c.zone old.blocks old.countsWarned c.blocks c.countsWarned
    { p.setSlot i (some c) with dlu := d }
  obtain ⟨q, hq⟩ : ∃ q, q = Part.moveCounts c.zone old.blocks old.countsWarned c.blocks c.countsWarned
    { p.setSlot i (some c) with dlu := d } := ⟨_, rfl⟩
  obtain ⟨rise, cause, messages, reported, rises, -⟩ := q.reportLevel_eq old.level c.level
  obtain ⟨slots, posted⟩ := (q.reportLevel old.level c.level).postIfChanged_eq i (some old) (some c)
  have commit : p.commitRecord i old c = (q.reportLevel old.level c.level).postIfChanged i (some old) (some c) := by
    rw [hq, ← placed]
    rfl
  rw [commit, posted, reported]
  rw [← hq] at moved
  constructor
  case eq => rw [moved]; rfl
  case counts =>
    show (q.dlu.relevel old.level c.level).counts = _
    rw [moved]
    exact Dlu.counts_relevel counts _ _
  case header =>
    show (q.exi.headerMark || _) = _
    rw [moved]
    rfl
  case rise =>
    intro h on
    refine rises h ?_
    rw [moved]
    exact on

section
variable {i : Fin 2048} {old c : Container} {p q : Part}

theorem Part.Commits.slot (h : p.Commits i old c q) (j : Fin 2048) : q.slot j = if i = j then some c else p.slot j := by
  rw [h.eq]
  exact Part.slot_setSlot ..

theorem Part.Commits.own (h : p.Commits i old c q) : q.slot i = some c := by rw [h.slot, if_pos rfl]

theorem Part.Commits.others (h : p.Commits i old c q) : p.sameOtherSlots i q := fun j other => by
  rw [h.slot, if_neg other.symm]

theorem Part.Commits.jnc (h : p.Commits i old c q) : q.jnc = p.jnc := by rw [h.eq]

theorem Part.Commits.sameOutside (h : p.Commits i old c q) : p.sameOutside q := by
  rw [h.eq]
  exact ⟨rfl, rfl, rfl⟩

theorem Part.Commits.now (h : p.Commits i old c q) : q.now = p.now := by
  rw [h.eq]
  rfl

theorem Part.Commits.inHand (h : p.Commits i old c q) : q.exi.inHand = p.exi.inHand := by rw [h.eq]

theorem Part.Commits.prc (h : p.Commits i old c q) : q.prc = p.prc := by rw [h.eq]

theorem Part.Commits.classes (h : p.Commits i old c q) : q.ctu.classes = p.ctu.classes := by rw [h.eq]; rfl

theorem Part.Commits.list (h : p.Commits i old c q) : q.ctu.list = p.ctu.list := by rw [h.eq]; rfl

theorem Part.Commits.zone (h : p.Commits i old c q) (y : Fin 64) : q.zone y = if c.zone = y then
    (p.zone c.zone).recounted old.blocks old.countsWarned c.blocks c.countsWarned else p.zone y := by
  rw [h.eq]
  exact Part.zone_putZone ..

/-- Only a zone's counts move, so the zone's inputs, condition and change stand. -/
theorem Part.Commits.zone_eq (h : p.Commits i old c q) (y : Fin 64) :
    q.zone y = { p.zone y with blocking := (q.zone y).blocking, warnedCount := (q.zone y).warnedCount } := by
  rw [h.zone]
  split
  · next at_ =>
    rw [← at_]
    exact Zone.recounted_eq ..
  · rfl

theorem Part.Commits.sameConfig (h : p.Commits i old c q) : p.sameConfig q := by
  refine ⟨fun y => ?_, ?_⟩
  · rw [h.zone_eq]
  · rw [h.eq]
    exact ⟨rfl, rfl, rfl, rfl⟩

end

/-- R11, R19: a settle of a slot, with a change made on the settled record and carried through. -/
theorem Part.changeTo_commits {i : Fin 2048} {c : Container} {p : Part} (live : p.slot i = some c) (T : Nat)
    (keep : Bool)
    (f : Container → Container) :
    let settled := settleRecord (p.classDef c.cls) T c
    let derived := p.deriveRecord keep (f settled.1)
    ∃ q, p.changeTo i T keep f = (q, settled.2 || derived.2) ∧ p.Commits i c derived.1 q := by
  refine ⟨_, ?_, Part.commits_commitRecord ..⟩
  simp only [Part.changeTo, live]

/-! ### The image of a slot -/

/-- The part `q` is `p` with the journal's record, the header's mark and the journal-dirty mark of slot `i` changed. -/
structure Part.Marks (i : Fin 2048) (p q : Part) : Prop where
  eq : q = { p with jnc := q.jnc, exi := { p.exi with headerMark := q.exi.headerMark }
                    ctu := { p.ctu with slots := q.ctu.slots } }
  others : p.sameOtherSlots i q
  own : ∀ c, p.slot i = some c → ∃ b, q.slot i = some { c with dirty := b }
  header : p.exi.headerMark = true → q.exi.headerMark = true
  closing : q.jnc.closing = p.jnc.closing
  engine : q.jnc.engine = p.jnc.engine

theorem Part.Marks.trans {i : Fin 2048} {p q r : Part} (h : p.Marks i q) (k : q.Marks i r) : p.Marks i r := by
  refine ⟨?_, fun j other => (k.others j other).trans (h.others j other), ?_, fun m => k.header (h.header m),
    k.closing.trans h.closing, k.engine.trans h.engine⟩
  · rw [k.eq, h.eq]
  · intro c live
    obtain ⟨b, marked⟩ := h.own c live
    obtain ⟨b', own⟩ := k.own _ marked
    exact ⟨b', own⟩

/-- A change of the journal's record alone. -/
theorem Part.Marks.of_jnc {p : Part} (i : Fin 2048) (j : Jnc) (closing : j.closing = p.jnc.closing)
    (engine : j.engine = p.jnc.engine) : p.Marks i { p with jnc := j } :=
  ⟨rfl, fun _ _ => rfl, fun c live => ⟨c.dirty, live⟩, id, closing, engine⟩

theorem Part.Marks.refl (i : Fin 2048) (p : Part) : p.Marks i p := .of_jnc i p.jnc rfl rfl

theorem Part.marks_setDirty {i : Fin 2048} {c : Container} {p : Part} (live : p.slot i = some c) (b : Bool) :
    p.Marks i (p.setSlot i (some { c with dirty := b })) := by
  refine ⟨rfl, fun j other => ?_, fun d was => ⟨b, ?_⟩, id, rfl, rfl⟩
  · rw [Part.slot_setSlot, if_neg other.symm]
  · obtain rfl := Option.some.inj (live.symm.trans was)
    rw [Part.slot_setSlot, if_pos rfl]

theorem Part.marks_clearMark {i : Fin 2048} {g : ContainerImage} (slot : g.slot = i) (p : Part) :
    p.Marks i (p.clearMark (.containerImage g)) := by
  subst slot
  unfold Part.clearMark
  split
  · dsimp only
    split
    · next c live => exact Part.marks_setDirty live _
    · exact .refl ..
  · exact .refl ..

theorem Part.marks_enqueue {i : Fin 2048} {g : ContainerImage} (slot : g.slot = i) (owner : StagedBy) (p : Part) :
    p.Marks i (p.enqueue owner [.containerImage g]) :=
  (Part.marks_clearMark slot p).trans (.of_jnc i _ rfl rfl)

theorem Part.marks_pump {p : Part} (i : Fin 2048) (open_ : p.jnc.closing = none) : p.Marks i p.pump := by
  obtain ⟨j, pumped, -⟩ := Part.pump_open open_
  obtain ⟨-, -, engine, -, closing, -⟩ := Part.pump_jnc open_
  rw [pumped] at engine closing ⊢
  exact .of_jnc i j (closing.trans open_.symm) engine

theorem Part.marks_dropEntry {i : Fin 2048} {g : ContainerImage} (slot : g.slot = i) (p : Part) :
    p.Marks i (p.dropEntry (.containerImage g)) := by
  subst slot
  obtain ⟨q, hq⟩ : ∃ q, q = p.onJnc fun j => { j with dropTime := some (j.dropTime.getD p.now), endStaged := false } :=
    ⟨_, rfl⟩
  have dropped : p.Marks g.slot q := by
    rw [hq]
    exact .of_jnc _ _ rfl rfl
  have dirty : q.Marks g.slot (q.markDirty (.containerImage g)) := by
    unfold Part.markDirty
    dsimp only
    split
    · next c live => exact Part.marks_setDirty live _
    · exact .refl ..
  have marked := dropped.trans dirty
  unfold Part.dropEntry
  dsimp only
  rw [← hq]
  split
  · exact marked
  · exact marked.trans ⟨rfl, fun _ _ => rfl, (Part.Marks.refl _ (q.markDirty _)).own, fun _ => rfl, rfl, rfl⟩

theorem Part.marks_offerInternal {i : Fin 2048} {g : ContainerImage} {p : Part} (slot : g.slot = i)
    (open_ : p.jnc.closing = none) : p.Marks i (p.offerInternal (.containerImage g)) := by
  unfold Part.offerInternal
  split
  · exact .refl ..
  · split
    · have queued := Part.marks_enqueue slot .internal p
      exact queued.trans (Part.marks_pump i (queued.closing.trans open_))
    · exact Part.marks_dropEntry slot p

theorem Part.marks_imageIf {i : Fin 2048} {p : Part} (b : Bool) (open_ : p.jnc.closing = none) :
    p.Marks i (Part.imageIf i (p, b)) := by
  unfold Part.imageIf Part.imageInternal
  dsimp only
  split
  · split
    · next c live => exact Part.marks_offerInternal rfl open_
    · exact .refl ..
  · exact .refl ..

theorem Part.marks_offerDocket {i : Fin 2048} {p : Part} (open_ : p.jnc.closing = none) :
    p.Marks i (p.offerDocket (.image i)) := by
  have queued : p.Marks i (p.enqueue .docket (p.offerPayloads (.image i))) := by
    unfold Part.offerPayloads
    dsimp only
    split
    · next c live => exact Part.marks_enqueue (show (imageOf i c).slot = i from rfl) _ p
    · exact .refl ..
  unfold Part.offerDocket
  split
  · exact .refl ..
  · dsimp only
    split
    · exact queued.trans (Part.marks_pump i (queued.closing.trans open_))
    · exact .of_jnc i _ rfl rfl

section
variable {i : Fin 2048} {p q : Part}

theorem Part.Marks.zone (h : p.Marks i q) (y : Fin 64) : q.zone y = p.zone y := by rw [h.eq]; rfl

theorem Part.Marks.dlu (h : p.Marks i q) : q.dlu = p.dlu := by rw [h.eq]

theorem Part.Marks.prc (h : p.Marks i q) : q.prc = p.prc := by rw [h.eq]

theorem Part.Marks.inHand (h : p.Marks i q) : q.exi.inHand = p.exi.inHand := by rw [h.eq]

theorem Part.Marks.rise (h : p.Marks i q) : q.exi.rise = p.exi.rise := by rw [h.eq]

theorem Part.Marks.classes (h : p.Marks i q) : q.ctu.classes = p.ctu.classes := by rw [h.eq]

theorem Part.Marks.sameConfig (h : p.Marks i q) : p.sameConfig q := by
  refine ⟨fun z => by rw [h.zone], ?_⟩
  rw [h.eq]
  exact ⟨rfl, rfl, rfl, rfl⟩

theorem Part.Marks.sameOutside (h : p.Marks i q) : p.sameOutside q := by
  rw [h.eq]
  exact ⟨rfl, rfl, rfl⟩

end

end Sys2Proof.Machine

/-! ## The fire requests (O48) -/

namespace Sys2Proof.Machine

/-! ### What the derivation of a record writes -/

/-- The mode that a record takes from its custody and its zone. -/
def Part.modeFor (p : Part) (keep : Bool) (c : Container) : Mode :=
  deriveMode (p.classDef c.cls) (p.zone c.zone).condition (p.zone c.zone).held keep c

theorem warnRecord_eq (k : ClassDef) (c : Container) :
    (warnRecord k c).1 = { c with warned := (warnRecord k c).1.warned } := by
  unfold warnRecord
  split
  · rfl
  · split <;> rfl

/-- R15, R16: the warn test and the warn clearing. -/
theorem warnRecord_warned (k : ClassDef) (c : Container) : (warnRecord k c).1.warned =
    if c.custody = .opened ∧ c.warned = false ∧ 0 < k.warnTicks ∧ k.limit - c.exposure ≤ k.warnTicks then true
    else if c.custody ≠ .quarantined ∧ c.warned = true ∧ k.warnTicks < k.limit - c.exposure then false
    else c.warned := by
  unfold warnRecord remaining
  split
  · rfl
  · split <;> rfl

theorem withDues_eq (k : ClassDef) (c : Container) :
    withDues k c = { c with warnDue := (withDues k c).warnDue, expireDue := (withDues k c).expireDue } := by
  unfold withDues
  split
  · split <;> rfl
  · rfl

/-- R19 steps 1 to 3: the mode, the bake run start, the warning and the dues are all that a derivation writes. -/
theorem Part.deriveRecord_eq (keep : Bool) (c : Container) (p : Part) :
    (p.deriveRecord keep c).1 = { c with
      mode := p.modeFor keep c, bakeRunStart := (c.setMode (p.modeFor keep c)).bakeRunStart
      warned := (warnRecord (p.classDef c.cls) c).1.warned
      warnDue := (p.deriveRecord keep c).1.warnDue, expireDue := (p.deriveRecord keep c).1.expireDue } := by
  have warned : (warnRecord (p.classDef c.cls) (c.setMode (p.modeFor keep c))).1.warned =
      (warnRecord (p.classDef c.cls) c).1.warned := by
    rw [warnRecord_warned, warnRecord_warned]
    rfl
  have dues := withDues_eq (p.classDef c.cls) (warnRecord (p.classDef c.cls) (c.setMode (p.modeFor keep c))).1
  rw [warnRecord_eq, warned] at dues
  have derived : (p.deriveRecord keep c).1 =
      withDues (p.classDef c.cls) (warnRecord (p.classDef c.cls) (c.setMode (p.modeFor keep c))).1 := rfl
  rw [derived, warnRecord_eq, warned]
  exact dues

/-- What a settle leaves of a record besides the figures of its account. -/
theorem settleRecord_frame (k : ClassDef) (T : Nat) (c : Container) : (settleRecord k T c).1 = { c with
    exposure := (settleRecord k T c).1.exposure, settled := (settleRecord k T c).1.settled
    custody := (settleRecord k T c).1.custody, mode := (settleRecord k T c).1.mode
    bakeCount := (settleRecord k T c).1.bakeCount, bakedThisStay := (settleRecord k T c).1.bakedThisStay
    bakeProgress := (settleRecord k T c).1.bakeProgress, bakeRunStart := (settleRecord k T c).1.bakeRunStart } := by
  unfold settleRecord
  split
  · rfl
  · dsimp only
    split
    case h_1 => split <;> rfl
    case h_5 => split <;> rfl
    all_goals rfl

theorem settleRecord_settled_max (k : ClassDef) (T : Nat) (c : Container) :
    (settleRecord k T c).1.settled = max c.settled T := by
  by_cases later : c.settled ≤ T
  · rw [settleRecord_settled k later]
    omega
  · rw [settleRecord_before k (Nat.not_le.1 later)]
    dsimp only
    omega

/-! ### Settling a slot that no change reaches -/

theorem Part.reached_still {i : Fin 2048} {c : Container} {p : Part} (live : p.slot i = some c)
    (still : (p.zone c.zone).change = none) : p.reached i = p := by
  simp only [Part.reached, live, Part.reachMember, still]

/-- R11: with no change under way in its zone, a slot is settled where it stands. -/
theorem Part.settleSlot_commits {i : Fin 2048} {c : Container} {p : Part} (live : p.slot i = some c)
    (still : (p.zone c.zone).change = none) (T : Nat) :
    let settled := settleRecord (p.classDef c.cls) T c
    let derived := p.deriveRecord true settled.1
    ∃ q, p.settleSlot i T = (q, settled.2 || derived.2) ∧ p.Commits i c derived.1 q := by
  rw [Part.settleSlot, Part.reached_still live still]
  exact Part.changeTo_commits live T true id

/-! ### A fire request -/

theorem Dlu.take_eq {g : Pass} {e : Due} {d : Dlu} (pass : d.pass = some g) (next : passNext g d.entries = some e)
    (kind : DueKind) : d.take kind = if e.kind = kind then
      some (e, { d with entries := removeDue e.slot d.entries, pass := some { g with reached := some (e.due, e.slot.val) } })
    else none := by
  simp only [Dlu.take, pass, next]

theorem Part.fire_other {g : Pass} {e : Due} {kind : DueKind} {p : Part} (pass : p.dlu.pass = some g)
    (next : passNext g p.dlu.entries = some e) (other : e.kind ≠ kind) : p.fire kind = p := by
  simp only [Part.fire, Dlu.take_eq pass next, if_neg other]

theorem Part.fire_idle {kind : DueKind} {p : Part} (idle : p.dlu.pass = none) : p.fire kind = p := by
  simp only [Part.fire, Dlu.take, idle]

/-- R132: the entry that the pass takes settles its container to the due, and the change is carried through. -/
theorem Part.fire_spec {g : Pass} {e : Due} {c : Container} {p : Part} (pass : p.dlu.pass = some g)
    (next : passNext g p.dlu.entries = some e) (live : p.slot e.slot = some c)
    (still : (p.zone c.zone).change = none) (open_ : p.jnc.closing = none) :
    let settled := (settleRecord (p.classDef c.cls) e.due c).1
    let derived := (p.deriveRecord true settled).1
    ∃ q b, p.fire e.kind = q ∧ q.slot e.slot = some { derived with dirty := b } ∧ p.sameOtherSlots e.slot q ∧
      p.sameOutside q ∧ p.sameConfig q ∧ q.prc = p.prc ∧
      q.dlu.counts = (p.dlu.relevel c.level derived.level).counts ∧
      (c.level.rank < derived.level.rank → p.exi.intake = .on → q.exi.rise = true) := by
  intro settled derived
  obtain ⟨d, taken, counts⟩ : ∃ d, p.dlu.take e.kind = some (e, d) ∧ d.counts = p.dlu.counts :=
    ⟨_, (Dlu.take_eq pass next e.kind).trans (if_pos rfl), rfl⟩
  obtain ⟨r, settles, commits⟩ := Part.settleSlot_commits (p := { p with dlu := d }) live still e.due
  have images := Part.marks_imageIf (i := e.slot) (p := r)
    ((settleRecord (p.classDef c.cls) e.due c).2 || (p.deriveRecord true settled).2)
    ((congrArg Jnc.closing commits.jnc).trans open_)
  generalize hq : Part.imageIf e.slot (r, _) = q at images
  obtain ⟨b, own⟩ := images.own _ commits.own
  refine ⟨q.onDlu Dlu.checkPass, b, ?_, own, fun j other => ?_, ?_, ?_, ?_, ?_, ?_⟩
  · simp only [Part.fire, taken, settles]
    exact congrArg (Part.onDlu Dlu.checkPass) hq
  · exact (commits.others.trans images.others) j other
  · exact commits.sameOutside.trans images.sameOutside
  · exact commits.sameConfig.trans images.sameConfig
  · exact images.prc.trans commits.prc
  · have counted : (q.onDlu Dlu.checkPass).dlu.counts = r.dlu.counts := by
      rw [← images.dlu]
      exact Dlu.counts_checkPass _
    exact (counted.trans commits.counts).trans (Dlu.counts_relevel counts ..)
  · intro rises on
    exact images.rise.trans (commits.rise rises on)

/-- A bake runs in a BAKING container alone. -/
theorem deriveMode_bakeRun {k : ClassDef} {condition : Option Condition} {held : Option Reading} {keep : Bool}
    {c : Container} (runs : deriveMode k condition held keep c = .bakeRun) : c.custody = .baking := by
  unfold deriveMode at runs
  split at runs
  case h_1 | h_2 => split at runs <;> cases runs
  case h_3 =>
    split at runs
    · split at runs
      · split at runs <;> cases runs
      · split at runs <;> cases runs
    · cases runs
  case h_4 =>
    split at runs
    · assumption
    · cases runs
  case h_5 => split at runs <;> cases runs
  case h_6 => cases runs

/-- A SEALED and an EXPIRED container hold (R9). -/
theorem deriveMode_hold {k : ClassDef} {condition : Option Condition} {held : Option Reading} {keep : Bool} {c : Container}
    (custody : c.custody = .sealed ∨ c.custody = .expired) : deriveMode k condition held keep c = .hold := by
  unfold deriveMode
  obtain custody | custody := custody <;> simp only [custody, reduceCtorEq, or_self, if_false] <;> split <;> rfl

/-- Only an OPEN container has dues (R13). -/
theorem Part.deriveRecord_noDues {keep : Bool} {c : Container} {p : Part} (custody : c.custody ≠ .opened) :
    (p.deriveRecord keep c).1.warnDue = none ∧ (p.deriveRecord keep c).1.expireDue = none := by
  have closed : (warnRecord (p.classDef c.cls) (c.setMode (p.modeFor keep c))).1.custody ≠ .opened := by
    rw [warnRecord_eq]
    exact custody
  have dues : (p.deriveRecord keep c).1 =
      withDues (p.classDef c.cls) (warnRecord (p.classDef c.cls) (c.setMode (p.modeFor keep c))).1 := rfl
  rw [dues]
  unfold withDues
  split
  · next opened _ => exact absurd opened closed
  · exact ⟨rfl, rfl⟩

/-- Settles O48: what a fire request writes is `fire_spec`; the settled record is that of its mode
(`settleRecord_*`). -/
theorem fireRequestsSettleAtTheDue : Obligations.FireRequestsSettleAtTheDue := by
  intro s on p
  refine ⟨fun g e pass next => ⟨fun other => ?_, fun other => ?_, fun other => ?_, fun c live still open_ later => ?_⟩,
    fun idle => ⟨?_, ?_, ?_, fun t pending => ?_⟩, fun busy => ?_⟩
  · exact exec_of_powered_id (f := Part.fire .warnDue) rfl on (Part.fire_other pass next other)
  · exact exec_of_powered_id (f := Part.fire .expireDue) rfl on (Part.fire_other pass next other)
  · exact exec_of_powered_id (f := Part.fire .bakeDue) rfl on (Part.fire_other pass next other)
  · intro k dt fired
    obtain ⟨q, b, fires, own, others, outside, config, prc, counts, rise⟩ := Part.fire_spec pass next live still open_
    generalize hsettled : (settleRecord (p.classDef c.cls) e.due c).1 = settled at own counts rise
    have record := Part.deriveRecord_eq true settled p
    have dues := Part.deriveRecord_noDues (keep := true) (c := settled) (p := p)
    generalize (p.deriveRecord true settled).1 = derived at own counts rise record dues
    have classed : settled.cls = c.cls := by rw [← hsettled, settleRecord_frame]
    have identity : derived.id = c.id ∧ derived.zone = c.zone ∧ derived.settled = e.due := by
      rw [record, ← hsettled, settleRecord_frame]
      exact ⟨rfl, rfl, settleRecord_settled _ later⟩
    have start (x : Instr) (own' : Part → Container → Prop) (acts : exec x s = .next (s.powered (Part.fire e.kind)))
        (h : own' q { derived with dirty := b }) : fired x own' :=
      ⟨q, _, exec_of_powered acts on fires, own, others, outside, config, prc, identity.1, identity.2.1, identity.2.2,
        h⟩
    refine ⟨fun m opened mode => ⟨fun kind unwarned below near => ?_, fun kind limit => ?_⟩,
      fun baking mode kind ends => ?_⟩
    · rw [settleRecord_accrue_grows mode later fun _ => below] at hsettled
      have warned : (warnRecord (p.classDef settled.cls) settled).1.warned = true := by
        rw [warnRecord_warned, if_pos]
        rw [classed, ← hsettled]
        exact ⟨opened, unwarned, (Nat.sub_pos_of_lt below).trans_le near,
          (congrArg (k.limit - ·) (Nat.min_eq_right below.le)).le.trans near⟩
      rw [warned, ← hsettled] at record
      have old : c.level = .none := by simp [Container.level, opened, unwarned]
      have new : derived.level = .warn := by
        rw [record]
        simp [Container.level, opened]
      refine start .warnDue _ (by rw [kind]; rfl) ⟨by rw [record], by rw [record]; exact opened, ?_, ?_⟩
      · rw [record]
        exact Nat.min_eq_right (Nat.le_of_lt below)
      · rw [old, new] at counts
        exact congrArg Prod.fst counts
    · rw [settleRecord_accrue_expires mode later opened limit] at hsettled
      have custody : derived.custody = .expired := by rw [record, ← hsettled]
      have old : c.level = if c.warned then .warn else .none := by simp only [Container.level, opened]
      have new : derived.level = .expired := by simp only [Container.level, custody]
      have settledCustody : settled.custody = .expired := by rw [← hsettled]
      refine start .expireDue _ (by rw [kind]; rfl) ⟨custody, ?_, ?_, ?_, ?_, ?_⟩
      · rw [record]
        exact deriveMode_hold (.inr settledCustody)
      · rw [record, ← hsettled]
      · exact (dues (by rw [settledCustody]; decide)).2
      · rw [new, old] at counts
        cases warned : c.warned <;> rw [warned] at counts <;> exact congrArg (fun x => x.2.1) counts
      · rw [old, new] at rise
        exact rise (by cases c.warned <;> decide)
    · rw [settleRecord_bakeEnds mode later ends] at hsettled
      have settledCustody : settled.custody = .opened := by rw [← hsettled]; rfl
      refine start .bakeDue _ (by rw [kind]; rfl) ?_
      rw [record]
      refine ⟨settledCustody, ?_, ?_, ?_, ?_, ?_⟩
      case refine_5 =>
        have still : p.modeFor true settled ≠ .bakeRun := fun runs => by
          have := (deriveMode_bakeRun runs).symm.trans settledCustody
          cases this
        exact if_neg still
      all_goals
        rw [← hsettled]
        rfl
  · exact exec_of_powered_id (f := Part.fire .warnDue) rfl on (Part.fire_idle idle)
  · exact exec_of_powered_id (f := Part.fire .expireDue) rfl on (Part.fire_idle idle)
  · exact exec_of_powered_id (f := Part.fire .bakeDue) rfl on (Part.fire_idle idle)
  · refine exec_of_powered (f := Part.pendingPassStart) rfl on ?_
    simp only [Part.pendingPassStart, show s.part.dlu.pass = none from idle,
      show s.part.dlu.pendingPass = some t from pending]
    rfl
  · refine exec_of_powered_id (f := Part.pendingPassStart) rfl on ?_
    unfold Part.pendingPassStart
    split
    · next idle pending =>
      obtain running | none_ := busy
      · exact absurd idle running
      · cases pending.symm.trans none_
    · rfl

end Sys2Proof.Machine

/-! ## QUARANTINE, RELEASE, QUERY and RETIRE (O31, O32, O33) -/

namespace Sys2Proof.Machine

/-! ### The container that an ID names -/

theorem Part.lookup_none {id : ContainerId} {p : Part} (h : id = 0 ∨ ∀ j, ¬p.holdsId j id) : p.lookup id = none := by
  have missing : p.findId id = none := by
    by_cases zero : id = 0
    · simp only [Part.findId, if_pos zero]
    · exact Part.findId_none zero (h.resolve_left zero)
  rw [Part.lookup, missing]
  rfl

theorem Part.lookup_some {id : ContainerId} {p : Part} {i : Fin 2048} {c : Container} (named : id ≠ 0)
    (unique : p.idsUnique) (live : p.slot i = some c) (holds : c.id = id) : p.lookup id = some (i, c) := by
  rw [Part.lookup, Part.findId_of_holds unique named live holds, Option.bind_some, live]
  rfl

/-! ### A change of a slot whose image a docket stages -/

theorem Part.offerImage_spec {i : Fin 2048} {c : Container} {p : Part} (live : p.slot i = some c)
    (open_ : p.jnc.closing = none) : p.Marks i (p.offerDocket (.image i)) ∧
      (p.journalTakes → (p.offerDocket (.image i)).jnc.queue =
        p.jnc.queue ++ p.stagedNow [.containerImage (imageOf i c)]) := by
  refine ⟨Part.marks_offerDocket open_, fun takes => ?_⟩
  have image : p.offerPayloads (.image i) = [.containerImage (imageOf i c)] := by simp only [Part.offerPayloads, live]
  obtain ⟨j, offered, queue, -⟩ := Part.offerDocket_room (o := .image i) (Part.hasRoom_of_takes takes) (by simp [image])
  rw [offered, ← image]
  exact queue

theorem Part.journalTakes_congr {p q : Part} (h : q.jnc = p.jnc) : q.journalTakes ↔ p.journalTakes := by
  unfold Part.journalTakes
  rw [h]

/-- The part `q` is `p` with the record `c` in slot `i`, where `old` stood, its consequences, and its image staged for
the docket or waiting. -/
structure Part.Imaged (i : Fin 2048) (old c : Container) (p q : Part) : Prop where
  own : ∃ b, q.slot i = some { c with dirty := b }
  others : p.sameOtherSlots i q
  outside : p.sameOutside q
  classes : q.ctu.classes = p.ctu.classes
  zone : ∀ y, q.zone y = if c.zone = y then
    (p.zone c.zone).recounted old.blocks old.countsWarned c.blocks c.countsWarned else p.zone y
  counts : q.dlu.counts = (p.dlu.relevel old.level c.level).counts
  header : old.level ≠ c.level → q.exi.headerMark = true
  rise : old.level.rank < c.level.rank → p.exi.intake = .on → q.exi.rise = true
  queue : p.journalTakes → q.jnc.queue = p.jnc.queue ++ p.stagedNow [.containerImage (imageOf i c)]

theorem Part.Commits.imaged {i : Fin 2048} {old c : Container} {p q : Part} (h : p.Commits i old c q)
    (open_ : p.jnc.closing = none) : p.Imaged i old c (q.offerDocket (.image i)) := by
  obtain ⟨marks, queue⟩ := Part.offerImage_spec h.own ((congrArg Jnc.closing h.jnc).trans open_)
  refine ⟨marks.own c h.own, h.others.trans marks.others, h.sameOutside.trans marks.sameOutside,
    marks.classes.trans h.classes, fun y => (marks.zone y).trans (h.zone y), ?_, fun moved => marks.header ?_,
    fun rises on => marks.rise.trans (h.rise rises on), fun takes => ?_⟩
  · rw [marks.dlu]
    exact h.counts
  · rw [h.header]
    simp [moved]
  · rw [queue ((Part.journalTakes_congr h.jnc).2 takes), h.jnc]
    simp only [Part.stagedNow, h.now]

/-- The counts of a zone whose member has moved from `old` to `c`, as a statement writes them. -/
theorem Part.Imaged.recounts {i : Fin 2048} {old c : Container} {p q : Part} (h : p.Imaged i old c q) :
    (old.blocks = c.blocks ∧ old.countsWarned = c.countsWarned → q.zone c.zone = p.zone c.zone) ∧
    (old.blocks ≠ c.blocks ∨ old.countsWarned ≠ c.countsWarned →
      (q.zone c.zone).blocking = (p.zone c.zone).blocking - old.blocks.toNat + c.blocks.toNat ∧
      (q.zone c.zone).warnedCount = (p.zone c.zone).warnedCount - old.countsWarned.toNat + c.countsWarned.toNat) ∧
    ∀ z, z ≠ c.zone → q.zone z = p.zone z := by
  refine ⟨fun same => ?_, fun moved => ?_, fun z other => ?_⟩
  · rw [h.zone, if_pos rfl, Zone.recounted, if_pos same]
  · have differs : ¬ (old.blocks = c.blocks ∧ old.countsWarned = c.countsWarned) := by
      rintro ⟨blocks, warned⟩
      exact moved.elim (absurd blocks) (absurd warned)
    rw [h.zone, if_pos rfl, Zone.recounted, if_neg differs]
    exact ⟨rfl, rfl⟩
  · rw [h.zone, if_neg other.symm]

/-! ### QUARANTINE -/

theorem settleRecord_warned (k : ClassDef) (T : Nat) (c : Container) : (settleRecord k T c).1.warned = c.warned := by
  rw [settleRecord_frame]

theorem settleRecord_ids (k : ClassDef) (T : Nat) (c : Container) : (settleRecord k T c).1.id = c.id ∧
    (settleRecord k T c).1.cls = c.cls ∧ (settleRecord k T c).1.zone = c.zone := by
  rw [settleRecord_frame]
  exact ⟨rfl, rfl, rfl⟩

/-- A QUARANTINED container has no warn test and no warn clearing (R15, R16). -/
theorem warnRecord_quarantined {k : ClassDef} {c : Container} (h : c.custody = .quarantined) :
    (warnRecord k c).1.warned = c.warned := by
  rw [warnRecord_warned, if_neg (by simp [h]), if_neg (by simp [h])]

/-- The mode of an OPEN or a QUARANTINED container accrues at the zone's multiplier. -/
theorem deriveMode_rates {k : ClassDef} {condition : Option Condition} {held : Option Reading} {keep : Bool} {c : Container}
    {m : Nat} (custody : c.custody = .opened ∨ c.custody = .quarantined)
    (rates : condition = some (.exposing m) ∨ condition = some (.dryFailed m)) :
    deriveMode k condition held keep c = .accrue m := by
  obtain rfl | rfl := rates <;> exact if_pos custody

theorem deriveMode_quarantined {k : ClassDef} {condition : Option Condition} {held : Option Reading} {keep : Bool}
    {c : Container} (custody : c.custody = .quarantined)
    (rateless : ∀ m, ¬ (condition = some (.exposing m) ∨ condition = some (.dryFailed m))) :
    deriveMode k condition held keep c = .hold := by
  unfold deriveMode
  split
  case h_1 m => exact absurd (.inl rfl) (rateless m)
  case h_2 m => exact absurd (.inr rfl) (rateless m)
  all_goals simp only [custody, reduceCtorEq, if_false]

/-- The credit decision of an OPEN container (R17). -/
theorem deriveMode_drying_fresh {k : ClassDef} {held : Option Reading} {x : Nat} {c : Container}
    (opened : c.custody = .opened) : deriveMode k (some (.drying x)) held false c =
      if 0 < k.ceiling ∧ c.exposure ≤ k.creditLimit then .credit x else .hold := by
  simp only [deriveMode, opened, if_true, Bool.false_eq_true, if_false, creditTaken, Bool.and_eq_true,
    decide_eq_true_eq]

theorem deriveMode_opened_hold {k : ClassDef} {condition : Option Condition} {held : Option Reading} {keep : Bool}
    {c : Container} (opened : c.custody = .opened)
    (rateless : ∀ m, ¬ (condition = some (.exposing m) ∨ condition = some (.dryFailed m)))
    (wet : ∀ x, condition ≠ some (.drying x)) : deriveMode k condition held keep c = .hold := by
  unfold deriveMode
  split
  case h_1 m => exact absurd (.inl rfl) (rateless m)
  case h_2 m => exact absurd (.inr rfl) (rateless m)
  case h_3 x => exact absurd rfl (wet x)
  all_goals simp only [opened, reduceCtorEq, if_false]

theorem Container.level_expired {c : Container} : c.level = .expired ↔ c.custody = .expired := by
  cases custody : c.custody <;> cases warned : c.warned <;> simp [Container.level, custody, warned]

theorem Container.level_quarantined {c : Container} : c.level = .quarantined ↔ c.custody = .quarantined := by
  cases custody : c.custody <;> cases warned : c.warned <;> simp [Container.level, custody, warned]

/-- The docket is answered. -/
theorem Part.Imaged.finish {i : Fin 2048} {old c : Container} {p q : Part} {d : InHand} (h : p.Imaged i old c q)
    (inHand : q.exi.inHand = some d) (a : Answer) :
    p.Imaged i old c (q.finishDocket a) ∧ (q.finishDocket a).finishes d a := by
  rw [Part.finishDocket_spec inHand]
  exact ⟨⟨h.own, h.others, h.outside, h.classes, h.zone, h.counts, h.header, h.rise, h.queue⟩, rfl⟩

theorem Part.Imaged.exposureAt {i : Fin 2048} {old c : Container} {p q : Part} (h : p.Imaged i old c q) :
    q.exposureAt i = c.exposure := by
  obtain ⟨b, own⟩ := h.own
  simp only [Part.exposureAt, own]

/-- R19, R11: a change of a slot on its settled record, with its image staged for the docket. -/
theorem Part.changeTo_imaged {i : Fin 2048} {c : Container} {p : Part} (live : p.slot i = some c)
    (open_ : p.jnc.closing = none) (T : Nat) (keep : Bool) (f : Container → Container) :
    let derived := (p.deriveRecord keep (f (settleRecord (p.classDef c.cls) T c).1)).1
    let q := (p.changeTo i T keep f).1.offerDocket (.image i)
    p.Imaged i c derived q ∧ q.exi.inHand = p.exi.inHand := by
  obtain ⟨q, changes, commits⟩ := Part.changeTo_commits live T keep f
  intro derived r
  have result : r = q.offerDocket (.image i) := congrArg (fun x => x.1.offerDocket (.image i)) changes
  rw [result]
  obtain ⟨marks, -⟩ := Part.offerImage_spec commits.own ((congrArg Jnc.closing commits.jnc).trans open_)
  exact ⟨commits.imaged open_, marks.inHand.trans commits.inHand⟩

theorem Part.quarantineDocket_spec {id : ContainerId} {i : Fin 2048} {c : Container} {p : Part} {d : InHand}
    (named : p.lookup id = some (i, c)) (live : p.slot i = some c) (still : (p.zone c.zone).change = none)
    (open_ : p.jnc.closing = none) (inHand : p.exi.inHand = some d) (free : c.custody ≠ .quarantined) :
    let k := p.classDef c.cls
    ∃ derived, derived = (p.deriveRecord true ((settleRecord k p.now c).1.quarantineByHost k)).1 ∧
    p.Imaged i c derived (p.quarantineDocket id) ∧ (p.quarantineDocket id).finishes d
      { result := .ok, first := 0, second := 0, value := derived.exposure } := by
  intro k
  obtain ⟨imaged, hand⟩ := Part.changeTo_imaged live open_ p.now true (Container.quarantineByHost k)
  obtain ⟨derived, made⟩ : ∃ x, x = (p.deriveRecord true ((settleRecord k p.now c).1.quarantineByHost k)).1 := ⟨_, rfl⟩
  rw [← made] at imaged
  refine ⟨derived, made, ?_⟩
  have answered := imaged.finish (hand.trans inHand) { result := .ok, first := 0, second := 0, value := derived.exposure }
  have runs : p.quarantineDocket id = ((p.changeTo i p.now true (Container.quarantineByHost k)).1.offerDocket
      (.image i)).finishDocket { result := .ok, first := 0, second := 0, value := derived.exposure } := by
    simp only [Part.quarantineDocket, named, if_neg free, Part.reached_still live still]
    rw [imaged.exposureAt]
  rw [runs]
  exact answered

theorem Part.releaseDocket_spec {a : ReleaseArgs} {resume : Custody} {i : Fin 2048} {c : Container} {p : Part} {d : InHand}
    (asked : requestCustody a.resume = some resume) (named : p.lookup a.id = some (i, c)) (live : p.slot i = some c)
    (still : (p.zone c.zone).change = none) (open_ : p.jnc.closing = none) (inHand : p.exi.inHand = some d)
    (held : c.custody = .quarantined) :
    let k := p.classDef c.cls
    ∃ derived, derived = (p.deriveRecord false ((settleRecord k p.now c).1.release k resume)).1 ∧
    p.Imaged i c derived (p.releaseDocket a) ∧ (p.releaseDocket a).finishes d
      { result := .ok, first := derived.custody.code, second := 0, value := derived.exposure } := by
  intro k
  obtain ⟨imaged, hand⟩ := Part.changeTo_imaged live open_ p.now false (Container.release k resume)
  obtain ⟨derived, made⟩ : ∃ x, x = (p.deriveRecord false ((settleRecord k p.now c).1.release k resume)).1 := ⟨_, rfl⟩
  rw [← made] at imaged
  refine ⟨derived, made, ?_⟩
  have answered := imaged.finish (hand.trans inHand)
    { result := .ok, first := derived.custody.code, second := 0, value := derived.exposure }
  obtain ⟨b, own⟩ := imaged.own
  have runs : p.releaseDocket a = ((p.changeTo i p.now false (Container.release k resume)).1.offerDocket
      (.image i)).finishDocket { result := .ok, first := derived.custody.code, second := 0, value := derived.exposure } := by
    simp only [Part.releaseDocket, asked, named, held, ne_eq, not_true_eq_false, if_false,
      Part.reached_still live still]
    rw [imaged.exposureAt, own]
  rw [runs]
  exact answered

theorem Part.quarantineDocket_refused {id : ContainerId} {p : Part} {d : InHand} (inHand : p.exi.inHand = some d) :
    (p.lookup id = none → p.quarantineDocket id = p.refusedWith d .unknownId) ∧
    ∀ i c, p.lookup id = some (i, c) → c.custody = .quarantined →
      p.quarantineDocket id = p.refusedWith d .wrongState := by
  refine ⟨fun missing => ?_, fun i c found held => ?_⟩
  · simp only [Part.quarantineDocket, missing]
    exact Part.refuseDocket_spec inHand _
  · simp only [Part.quarantineDocket, found, if_pos held]
    exact Part.refuseDocket_spec inHand _

theorem requestCustody_eq {n : Nat} (few : n ≤ 1) :
    requestCustody n = some (if n = 1 then .opened else .sealed) := by
  obtain rfl | rfl : n = 0 ∨ n = 1 := by omega
  · rfl
  · rfl

theorem requestCustody_none {n : Nat} (many : 1 < n) : requestCustody n = none := by
  obtain _ | _ | n := n
  · cases many
  · exact absurd many (by decide)
  · rfl

theorem Part.releaseDocket_refused {a : ReleaseArgs} {p : Part} {d : InHand} (inHand : p.exi.inHand = some d) :
    (1 < a.resume → p.releaseDocket a = p.refusedWith d .badArg) ∧
    (a.resume ≤ 1 → p.lookup a.id = none → p.releaseDocket a = p.refusedWith d .unknownId) ∧
    (a.resume ≤ 1 → ∀ i c, p.lookup a.id = some (i, c) → c.custody ≠ .quarantined →
      p.releaseDocket a = p.refusedWith d .wrongState) := by
  refine ⟨fun many => ?_, fun few missing => ?_, fun few i c found free => ?_⟩
  · simp only [Part.releaseDocket, requestCustody_none many]
    exact Part.refuseDocket_spec inHand _
  · simp only [Part.releaseDocket, requestCustody_eq few, missing]
    exact Part.refuseDocket_spec inHand _
  · simp only [Part.releaseDocket, requestCustody_eq few, found, ne_eq, free, not_false_eq_true, if_true]
    exact Part.refuseDocket_spec inHand _

/-- A container that is not BAKING has no bake run start (R23). -/
theorem Part.deriveRecord_bakeRunStart {keep : Bool} {c : Container} {p : Part} (custody : c.custody ≠ .baking) :
    (p.deriveRecord keep c).1.bakeRunStart = none := by
  rw [Part.deriveRecord_eq]
  exact if_neg fun runs => custody (deriveMode_bakeRun runs)

theorem Container.quarantineByHost_eq (k : ClassDef) (c : Container) : c.quarantineByHost k = { c with
    warned := (warnRecord k c).1.warned, custody := .quarantined, quarantineCause := some .host, bakeProgress := none
    bakeRunStart := none } := by
  unfold Container.quarantineByHost
  rw [warnRecord_eq]

/-- The header counts as a container that was not QUARANTINED becomes it. -/
theorem Dlu.relevel_quarantined {old : AlertLevel} (h : old ≠ .quarantined) (d : Dlu) :
    (d.relevel old .quarantined).counts =
      (d.warnCount - (old == .warn).toNat, d.expiredCount - (old == .expired).toNat, d.quarantinedCount + 1) := by
  unfold Dlu.relevel
  rw [if_neg h]
  cases old
  case quarantined => exact absurd rfl h
  all_goals rfl

/-- The header counts as a QUARANTINED container becomes something else. -/
theorem Dlu.relevel_released {new : AlertLevel} (h : new ≠ .quarantined) (d : Dlu) :
    (d.relevel .quarantined new).counts =
      (d.warnCount + (new == .warn).toNat, d.expiredCount + (new == .expired).toNat, d.quarantinedCount - 1) := by
  unfold Dlu.relevel
  rw [if_neg h.symm]
  cases new
  case quarantined => exact absurd rfl h
  all_goals rfl

/-- Settles O32. -/
theorem quarantineAndRelease : Obligations.QuarantineAndRelease := by
  intro s d id on p
  refine ⟨fun missing => ⟨fun hands => ?_, fun resume few hands => ?_⟩, fun resume many hands => ?_,
    fun i c named unique live holds still open_ => ?_⟩
  · rw [exec_quarantine on hands]
    exact next_congr ((Part.quarantineDocket_refused hands.1).1 (Part.lookup_none missing))
  · rw [exec_release on hands]
    exact next_congr ((Part.releaseDocket_refused hands.1).2.1 few (Part.lookup_none missing))
  · rw [exec_release on hands]
    exact next_congr ((Part.releaseDocket_refused hands.1).1 many)
  · have found : p.lookup id = some (i, c) := Part.lookup_some named unique live holds
    intro k c1 e condition rates changed
    have ids := settleRecord_ids k p.now c
    have change {derived : Container} {q : Part} (imaged : p.Imaged i c derived q) (account : derived.id = c.id ∧
        derived.cls = c.cls ∧ derived.zone = c.zone ∧ derived.exposure = e ∧ derived.settled = c1.settled ∧
        derived.bakeCount = c1.bakeCount) : ∃ b, changed q { derived with dirty := b } := by
      obtain ⟨b, own⟩ := imaged.own
      obtain ⟨sameId, sameCls, sameZone, exposure, settled, bakes⟩ := account
      have recounts := imaged.recounts
      rw [sameZone] at recounts
      exact ⟨b, own, imaged.others, imaged.outside, sameId.trans holds, sameCls, sameZone, exposure,
        settled.trans (settleRecord_settled_max ..), bakes, recounts.1, recounts.2.1, recounts.2.2, imaged.queue⟩
    refine ⟨fun hands => ⟨fun held => ?_, fun free => ?_⟩, fun resume few hands => ⟨fun free => ?_, fun held => ?_⟩⟩
    · rw [exec_quarantine on hands]
      exact next_congr ((Part.quarantineDocket_refused hands.1).2 i c found held)
    · rw [exec_quarantine on hands]
      obtain ⟨derived, derives, imaged, finishes⟩ := Part.quarantineDocket_spec found live still open_ hands.1 free
      have record := derives.trans (Part.deriveRecord_eq true (c1.quarantineByHost k) p)
      have dues := Part.deriveRecord_noDues (keep := true) (c := c1.quarantineByHost k) (p := p) nofun
      have run := Part.deriveRecord_bakeRunStart (keep := true) (c := c1.quarantineByHost k) (p := p) nofun
      rw [← derives] at dues run
      rw [← derives] at record
      have made := Container.quarantineByHost_eq k c1
      have warned : derived.warned = (warnRecord k c1).1.warned := by
        rw [record]
        exact (warnRecord_quarantined rfl).trans (by rw [made])
      have zone : (c1.quarantineByHost k).zone = c.zone := by rw [made]; exact ids.2.2
      have quarantined : derived.custody = .quarantined := by rw [record]; rfl
      have level : derived.level = .quarantined := Container.level_quarantined.2 quarantined
      have freed : c.level ≠ .quarantined := mt Container.level_quarantined.1 free
      have exposure : derived.exposure = e := by rw [record, made]
      have counts := imaged.counts
      rw [level, Dlu.relevel_quarantined freed] at counts
      simp only [Dlu.counts, Prod.mk.injEq] at counts
      obtain ⟨warnCount, expiredCount, quarantinedCount⟩ := counts
      obtain ⟨b, changes⟩ := change imaged ⟨by rw [record, made]; exact ids.1, by rw [record, made]; exact ids.2.1,
        by rw [record]; exact zone, exposure, by rw [record, made], by rw [record, made]⟩
      refine ⟨_, _, rfl, changes, quarantined, by rw [record]; rfl, by rw [record]; rfl, run, fun m rate => ?_,
        fun rateless => ?_, dues.1, dues.2, warned, quarantinedCount, expiredCount, warnCount,
        imaged.header (by rw [level]; exact freed), imaged.rise ?_, ?_⟩
      · rw [record]
        refine deriveMode_rates (.inr rfl) ?_
        rw [zone]
        exact rate
      · rw [record]
        refine deriveMode_quarantined rfl ?_
        rw [zone]
        exact rateless
      · rw [level]
        cases hl : c.level
        case quarantined => exact absurd hl freed
        all_goals decide
      · rw [← exposure]
        exact finishes
    · rw [exec_release on hands]
      exact next_congr ((Part.releaseDocket_refused hands.1).2.2 few i c found free)
    · intro custody
      rw [exec_release on hands]
      obtain ⟨derived, derives, imaged, finishes⟩ :=
        Part.releaseDocket_spec (a := { id := id, resume := resume })
          (requestCustody_eq few) found live still open_ hands.1 held
      have record := derives.trans (Part.deriveRecord_eq false { c1 with custody := custody, quarantineCause := none } p)
      have cases_ : custody = .sealed ∨ custody = .opened ∨ custody = .expired := by
        show (if _ then _ else if _ then _ else _) = Custody.sealed ∨ _
        by_cases limit : k.limit ≤ e
        · exact .inr (.inr (if_pos limit))
        · by_cases one : resume = 1
          · exact .inr (.inl ((if_neg limit).trans (if_pos one)))
          · exact .inl ((if_neg limit).trans (if_neg one))
      have notQuarantined : custody ≠ .quarantined := by
        obtain h | h | h := cases_ <;> rw [h] <;> decide
      have held' : derived.custody = custody := by rw [record]
      have level : derived.level ≠ .quarantined := fun h =>
        notQuarantined (held'.symm.trans (Container.level_quarantined.1 h))
      have exposure : derived.exposure = e := by rw [record]
      have warned := warnRecord_warned (p.classDef c1.cls) { c1 with custody := custody, quarantineCause := none }
      have counts := imaged.counts
      rw [Container.level_quarantined.2 held, Dlu.relevel_released level] at counts
      simp only [Dlu.counts, Prod.mk.injEq] at counts
      obtain ⟨warnCount, expiredCount, quarantinedCount⟩ := counts
      obtain ⟨b, changes⟩ := change imaged ⟨by rw [record]; exact ids.1, by rw [record]; exact ids.2.1,
        by rw [record]; exact ids.2.2, exposure, by rw [record], by rw [record]⟩
      refine ⟨_, _, rfl, changes, held', by rw [record], fun opened => ⟨fun m rate => ?_, fun x drying => ?_,
        fun rateless wet => ?_⟩, fun closed => ?_, ?_, quarantinedCount, ?_, warnCount, imaged.header ?_, ?_⟩
      · rw [record]
        refine deriveMode_rates (.inl opened) ?_
        rw [ids.2.2]
        exact rate
      · rw [record]
        have zone : (p.zone c1.zone).condition = some (.drying x) := by rw [ids.2.2]; exact drying
        show Part.modeFor _ _ _ = _
        rw [Part.modeFor, zone, ids.2.1]
        exact deriveMode_drying_fresh opened
      · rw [record]
        refine deriveMode_opened_hold opened ?_ ?_
        · rw [ids.2.2]
          exact rateless
        · rw [ids.2.2]
          exact wet
      · rw [record]
        refine deriveMode_hold ?_
        exact cases_.imp_right fun h => h.resolve_left closed
      · rw [record]
        refine warned.trans ?_
        have kept : c1.warned = c.warned := settleRecord_warned ..
        have sameClass : c1.cls = c.cls := ids.2.1
        simp only [sameClass, kept, ne_eq, notQuarantined, not_false_eq_true, true_and]
        exact if_congr Iff.rfl rfl (if_congr Iff.rfl rfl rfl)
      · rw [expiredCount]
        congr 2
        rw [Bool.eq_iff_iff, beq_iff_eq, beq_iff_eq, Container.level_expired, held']
      · rw [Container.level_quarantined.2 held]
        exact level.symm
      · rw [← held', ← exposure]
        exact finishes

/-! ### QUERY -/

/-- A settle calls for an image exactly when it has changed the custody or the bake count (R12, R124). -/
theorem settleRecord_image (k : ClassDef) (T : Nat) (c : Container) : (settleRecord k T c).2 = true ↔
    ¬ ((settleRecord k T c).1.custody = c.custody ∧ (settleRecord k T c).1.bakeCount = c.bakeCount) := by
  unfold settleRecord
  split
  · simp
  · dsimp only
    split
    case h_1 =>
      split
      · next h => simp [Container.expire, h.1]
      · simp
    case h_5 =>
      split
      · simp [Container.completeBake]
      · simp
    all_goals simp

/-- The warn test and the warn clearing call for an image exactly when the warning has changed (R15, R16). -/
theorem warnRecord_image (k : ClassDef) (c : Container) :
    (warnRecord k c).2 = true ↔ (warnRecord k c).1.warned ≠ c.warned := by
  unfold warnRecord
  split
  · next h => simp [h.2.1]
  · split
    · next h => simp [h.2.1]
    · simp

theorem Part.deriveRecord_image (keep : Bool) (c : Container) (p : Part) :
    (p.deriveRecord keep c).2 = true ↔ (p.deriveRecord keep c).1.warned ≠ c.warned := by
  have derived : (p.deriveRecord keep c).2 = (warnRecord (p.classDef c.cls) (c.setMode (p.modeFor keep c))).2 := rfl
  have warned : (p.deriveRecord keep c).1.warned = (warnRecord (p.classDef c.cls)
      (c.setMode (p.modeFor keep c))).1.warned := by
    rw [Part.deriveRecord_eq, warnRecord_warned, warnRecord_warned]
    rfl
  rw [derived, warned, warnRecord_image]
  rfl

theorem Part.classDef_congr {p q : Part} (h : q.ctu.classes = p.ctu.classes) (n : Fin 16) : q.classDef n =
    p.classDef n := by
  unfold Part.classDef Part.cls
  rw [h]

theorem Part.queryDocket_refused {a : QueryArgs} {p : Part} {d : InHand} (inHand : p.exi.inHand = some d) :
    (addrOk a.reply 64 = false → p.queryDocket a false = p.refusedWith d .badArg) ∧
    (addrOk a.reply 64 = true → p.lookup a.id = none → p.queryDocket a false = p.refusedWith d .unknownId) := by
  refine ⟨fun bad => ?_, fun good missing => ?_⟩
  · simp only [Part.queryDocket, bad]
    exact Part.refuseDocket_spec inHand _
  · simp only [Part.queryDocket, good, missing]
    exact Part.refuseDocket_spec inHand _

theorem Part.reportContainer_eq {i : Fin 2048} {c : Container} {reply : HostAddr} {p : Part} {d : InHand}
    (inHand : p.exi.inHand = some d) : p.reportContainer i c reply false = { p with
      host := p.host.write hostBlank reply.toNat (containerReport (p.classDef c.cls) i c)
      exi := { p.exi with inHand := some { d with stage := .finished {
        result := .ok, first := percentUsed (p.classDef c.cls) c.exposure, second := 0, value := c.exposure } } } } :=
  Part.finishDocket_spec (p := p.hostWrite reply (containerReport (p.classDef c.cls) i c)) inHand _

/-- R38, R148: outside RUNNING the record is reported as it stands. -/
theorem Part.queryDocket_asleep {a : QueryArgs} {i : Fin 2048} {c : Container} {p : Part} (good : addrOk a.reply 64 =
    true)
    (named : p.lookup a.id = some (i, c)) (asleep : p.jnc.engine ≠ .running) :
    p.queryDocket a false = p.reportContainer i c a.reply false := by
  simp only [Part.queryDocket, good, named, if_neg asleep, Bool.not_true, Bool.false_eq_true, if_false]

/-- R37: a QUERY in RUNNING: the settled record `derived`, its image staged when it is called for, and the report. -/
theorem Part.queryDocket_running {a : QueryArgs} {i : Fin 2048} {c : Container} {p : Part} {d : InHand}
    (good : addrOk a.reply 64 = true) (named : p.lookup a.id = some (i, c)) (live : p.slot i = some c)
    (still : (p.zone c.zone).change = none) (open_ : p.jnc.closing = none) (inHand : p.exi.inHand = some d)
    (running : p.jnc.engine = .running) :
    let k := p.classDef c.cls
    let settled := (settleRecord k p.now c).1
    let derived := (p.deriveRecord true settled).1
    let same : Prop := settled.custody = c.custody ∧ settled.bakeCount = c.bakeCount ∧ derived.warned = c.warned
    ∃ q c' b, c' = { derived with dirty := b } ∧ q.slot i = some c' ∧ p.sameOtherSlots i q ∧ p.sameOutside q ∧
      p.queryDocket a false = { q with
        host := p.host.write hostBlank a.reply.toNat (containerReport k i c')
        exi := { q.exi with inHand := some { d with stage := .finished {
          result := .ok, first := percentUsed k c'.exposure, second := 0, value := c'.exposure } } } } ∧
      (same → q.jnc = p.jnc) ∧
      (¬same → p.journalTakes → q.jnc.queue = p.jnc.queue ++ p.stagedNow [.containerImage (imageOf i c')]) := by
  intro k settled derived same
  obtain ⟨q, settles, commits⟩ := Part.settleSlot_commits live still p.now
  obtain ⟨marks, queue⟩ := Part.offerImage_spec commits.own ((congrArg Jnc.closing commits.jnc).trans open_)
  have image : ((settleRecord k p.now c).2 || (p.deriveRecord true settled).2) = true ↔ ¬same := by
    rw [Bool.or_eq_true, settleRecord_image, Part.deriveRecord_image, settleRecord_warned]
    show ¬(settled.custody = c.custody ∧ settled.bakeCount = c.bakeCount) ∨ derived.warned ≠ c.warned ↔ _
    rw [← not_and_or, and_assoc]
  obtain ⟨r, hr, unstaged, staged, marked⟩ : ∃ r, (if ((settleRecord k p.now c).2 || (p.deriveRecord true settled).2) = true
      then q.offerDocket (.image i) else q) = r ∧ (same → r = q) ∧ (¬same → r = q.offerDocket (.image i)) ∧
        q.Marks i r := by
    by_cases unchanged : same
    · exact ⟨q, if_neg (mt image.1 (not_not.2 unchanged)), fun _ => rfl, fun h => absurd unchanged h, .refl ..⟩
    · exact ⟨_, if_pos (image.2 unchanged), fun h => absurd h unchanged, fun _ => rfl, marks⟩
  obtain ⟨b, own⟩ := marked.own _ commits.own
  refine ⟨r, _, b, rfl, own, commits.others.trans marked.others, commits.sameOutside.trans marked.sameOutside, ?_,
    fun unchanged => ?_, fun changed takes => ?_⟩
  · have sameClass : r.classDef ({ derived with dirty := b } : Container).cls = k := by
      rw [Part.classDef_congr (marked.classes.trans commits.classes)]
      show p.classDef derived.cls = k
      rw [show derived.cls = c.cls by
        show (p.deriveRecord true settled).1.cls = c.cls
        rw [Part.deriveRecord_eq]
        exact (settleRecord_ids ..).2.1]
    simp only [Part.queryDocket, good, named, running, settles, Bool.not_true, Bool.false_eq_true, if_false, if_true]
    rw [hr, own]
    refine (Part.reportContainer_eq (marked.inHand.trans (commits.inHand.trans inHand))).trans ?_
    simp only [Option.getD_some]
    rw [sameClass, marked.sameOutside.1, commits.sameOutside.1]
  · rw [unstaged unchanged]
    exact commits.jnc
  · rw [staged changed, queue ((Part.journalTakes_congr commits.jnc).2 takes), commits.jnc]
    simp only [Part.stagedNow, commits.now]
    rfl

/-- Settles O33. -/
theorem queryReportsSettledRecord : Obligations.QueryReportsSettledRecord := by
  intro s d a on hands p
  rw [exec_query on hands]
  refine ⟨fun bad => ?_, fun nonzero aligned missing => ?_, fun i c nonzero aligned named unique live holds => ?_⟩
  · refine next_congr ((Part.queryDocket_refused hands.1).1 (Bool.eq_false_iff.2 fun good => ?_))
    obtain ⟨nonzero, aligned⟩ := addrOk_iff.1 good
    exact bad.elim nonzero fun h => h aligned
  · exact next_congr ((Part.queryDocket_refused hands.1).2 (addrOk_iff.2 ⟨nonzero, aligned⟩) (Part.lookup_none missing))
  · have good : addrOk a.reply 64 = true := addrOk_iff.2 ⟨nonzero, aligned⟩
    have found : p.lookup a.id = some (i, c) := Part.lookup_some named unique live holds
    intro k answer
    refine ⟨fun notRunning => next_congr ?_, fun running still open_ => ?_⟩
    · exact (Part.queryDocket_asleep good found notRunning).trans (Part.reportContainer_eq hands.1)
    · intro c1
      obtain ⟨q, c', b, made, own, others, outside, docket, unstaged, staged⟩ :=
        Part.queryDocket_running good found live still open_ hands.1 running
      have record := Part.deriveRecord_eq true c1 p
      have ids := settleRecord_ids k p.now c
      have warned : (p.deriveRecord true c1).1.warned = (warnRecord k c1).1.warned := by
        rw [record]
        exact congrArg (fun n => (warnRecord (p.classDef n) c1).1.warned) ids.2.1
      have mode : (p.deriveRecord true c1).1.mode = p.modeFor true c1 := by rw [record]
      have custody : c'.custody = c1.custody := by rw [made]; exact (Part.deriveRecord_spec ..).2.2
      have bakes : c'.bakeCount = c1.bakeCount := by
        rw [made]
        show (p.deriveRecord true c1).1.bakeCount = _
        rw [record]
      have exposure : c'.exposure = c1.exposure := by rw [made]; exact (Part.deriveRecord_spec ..).1
      refine ⟨_, c', next_congr docket, own, others, by rw [made], ?_, exposure, custody, bakes, ?_,
        fun m opened exposing => ?_, by rw [made]; exact warned, outside.2.1, outside.2.2, rfl, fun takes => ?_, rfl⟩
      · rw [made]
        show (p.deriveRecord true c1).1.id = _
        rw [record]
        exact ids.1
      · rw [made]
        exact (Part.deriveRecord_spec ..).2.1.trans (settleRecord_settled_max ..)
      · rw [made]
        refine mode.trans (deriveMode_rates (.inl (custody.symm.trans opened)) (.inl ?_))
        rw [ids.2.2]
        exact exposing
      · intro same
        have iff : same ↔ c1.custody = c.custody ∧ c1.bakeCount = c.bakeCount ∧ (p.deriveRecord true c1).1.warned =
            c.warned := by
          show c'.custody = _ ∧ c'.bakeCount = _ ∧ c'.warned = _ ↔ _
          rw [custody, bakes, made]
        refine ⟨fun unchanged => ?_, fun changed => staged (mt iff.2 changed) takes⟩
        exact congrArg Jnc.queue (unstaged (iff.1 unchanged))

/-! ### RETIRE -/

/-- A zone's new record and, at once, its counts. -/
theorem Part.setZone_moveCounts_eq (z : Fin 64) (r : Zone) (a b c d : Bool) (p : Part) : ∃ marks dou,
    (p.setZone z r).moveCounts z a b c d = { p with
      exi := { p.exi with zoneMarks := marks }
      znu := { p.znu with zones := p.znu.zones.set z (r.recounted a b c d) }
      dou := dou } := by
  obtain ⟨marks, dou, moved⟩ := (p.setZone z r).moveCounts_eq z a b c d
  obtain ⟨marks', written⟩ := p.setZone_spec z r
  refine ⟨marks, dou, ?_⟩
  rw [moved, Part.zone_setZone, if_pos rfl, written]
  simp [Part.putZone]

/-- A zone's record once the container `c` has left slot `i` of its members (R39). -/
def Zone.left (i : Fin 2048) (c : Container) (r : Zone) : Zone :=
  Zone.recounted { r with members := r.members.filter (· != i) } c.blocks c.countsWarned false false

theorem Zone.left_spec (i : Fin 2048) (c : Container) (r : Zone) : (r.left i c).blocking = r.blocking - c.blocks.toNat ∧
    (r.left i c).warnedCount = r.warnedCount - c.countsWarned.toNat ∧
    (r.left i c).members = r.members.filter (· != i) := by
  unfold Zone.left
  cases c.blocks <;> cases c.countsWarned <;> exact ⟨rfl, rfl, rfl⟩

/-- What becomes of a part whose slot `i`, with the record `c`, is freed (R32 steps 3 to 7). -/
structure Part.Frees (i : Fin 2048) (c : Container) (p q : Part) : Prop where
  eq : q = { p with
    exi := { p.exi with headerMark := true, zoneMarks := q.exi.zoneMarks, slotMarks := q.exi.slotMarks }
    ctu := { p.ctu with
      slots := p.ctu.slots.set i none
      classes := p.ctu.classes.set c.cls { p.cls c.cls with useCount := (p.cls c.cls).useCount - 1 } }
    znu := { p.znu with zones := p.znu.zones.set c.zone ((p.zone c.zone).left i c) }
    dou := q.dou, dlu := q.dlu }
  entries : q.dlu.entries = (p.dlu.remove i).entries

theorem Dlu.relevel_entries (old new : AlertLevel) (d : Dlu) : (d.relevel old new).entries = d.entries := by
  unfold Dlu.relevel
  split
  · rfl
  · cases old <;> cases new <;> rfl

theorem Part.frees_freeSlot (i : Fin 2048) (c : Container) (p : Part) : p.Frees i c (p.freeSlot i c) := by
  obtain ⟨marks, dou, left⟩ := (p.onDlu (Dlu.remove i)).setZone_moveCounts_eq c.zone
    { p.zone c.zone with members := (p.zone c.zone).members.filter (· != i) } c.blocks c.countsWarned false false
  obtain ⟨q, hq⟩ : ∃ q, q = (((p.onDlu (Dlu.remove i)).leaveZone i c).useClass c.cls (· - 1)).setSlot i none := ⟨_, rfl⟩
  obtain ⟨rise, cause, messages, reported, -, falls⟩ := q.reportLevel_eq c.level .none
  obtain ⟨rfl, rfl, rfl⟩ := falls (Nat.zero_le _)
  obtain ⟨slots, posted⟩ := (q.reportLevel c.level .none).postIfChanged_eq i (some c) none
  have freed : p.freeSlot i c = ((q.reportLevel c.level .none).postIfChanged i (some c) none).postHeader := by
    rw [hq]
    rfl
  have leaves : (p.onDlu (Dlu.remove i)).leaveZone i c = _ := left
  rw [leaves] at hq
  rw [freed, posted, reported]
  constructor
  case eq => rw [hq]; rfl
  case entries =>
    refine (Dlu.relevel_entries ..).trans ?_
    rw [hq]
    rfl

section
variable {i : Fin 2048} {c : Container} {p q : Part}

theorem Part.Frees.slot (h : p.Frees i c q) (j : Fin 2048) : q.slot j = if i = j then none else p.slot j := by
  rw [h.eq]
  exact Part.slot_setSlot ..

theorem Part.Frees.zone (h : p.Frees i c q) (y : Fin 64) : q.zone y = if c.zone =
    y then (p.zone c.zone).left i c else p.zone y := by
  rw [h.eq]
  exact Part.zone_putZone ..

theorem Part.Frees.cls (h : p.Frees i c q) (n : Fin 16) : q.cls n = if c.cls = n then
    { p.cls c.cls with useCount := (p.cls c.cls).useCount - 1 } else p.cls n := by
  rw [h.eq]
  exact Part.cls_setCls ..

theorem Part.Frees.jnc (h : p.Frees i c q) : q.jnc = p.jnc := by rw [h.eq]

theorem Part.Frees.inHand (h : p.Frees i c q) : q.exi.inHand = p.exi.inHand := by rw [h.eq]

theorem Part.Frees.sameOutside (h : p.Frees i c q) : p.sameOutside q := by
  rw [h.eq]
  exact ⟨rfl, rfl, rfl⟩

end

theorem Part.retireDocket_unknown {id : ContainerId} {p : Part} {d : InHand} (inHand : p.exi.inHand = some d)
    (missing : p.lookup id = none) : p.retireDocket id = p.refusedWith d .unknownId := by
  simp only [Part.retireDocket, missing]
  exact Part.refuseDocket_spec inHand _

theorem Part.retireDocket_spec {id : ContainerId} {i : Fin 2048} {c : Container} {p : Part} {d : InHand}
    (named : p.lookup id = some (i, c)) (live : p.slot i = some c) (still : (p.zone c.zone).change = none)
    (open_ : p.jnc.closing = none) (inHand : p.exi.inHand = some d) :
    let e := (settleRecord (p.classDef c.cls) p.now c).1.exposure
    ∃ q j, p.Frees i c q ∧ p.retireDocket id = { q with jnc := j, exi := { q.exi with inHand := some { d with
      stage := .finished { result := .ok, first := percentUsed (p.classDef c.cls) e, second := 0, value := e } } } } ∧
      (p.journalTakes → j.queue = p.jnc.queue ++ p.stagedNow [.retireEntry i id]) := by
  intro e
  have frees := Part.frees_freeSlot i c p
  obtain ⟨j, answered, queue⟩ := Part.offerDocket_finish (o := .retire i id)
    { result := .ok, first := percentUsed (p.classDef c.cls) e, second := 0, value := e }
    ((congrArg Jnc.closing frees.jnc).trans open_) (frees.inHand.trans inHand)
    (by simp [Part.offerPayloads, Payload.isImage]) (by simp [Part.offerPayloads])
  refine ⟨_, j, frees, ?_, fun takes => ?_⟩
  · rw [← answered]
    simp only [Part.retireDocket, named, Part.reached_still live still, live, Option.getD_some]
    rfl
  · rw [queue ((Part.journalTakes_congr frees.jnc).2 takes), frees.jnc]
    rw [Part.stagedNow, Part.stagedNow, Part.now, frees.sameOutside.2.2]
    rfl

/-- Settles O31. -/
theorem retireFreesSlot : Obligations.RetireFreesSlot := by
  intro s d id on hands p
  rw [exec_retire on hands]
  refine ⟨fun missing => next_congr (Part.retireDocket_unknown hands.1 (Part.lookup_none missing)),
    fun i c named unique live holds still open_ => ?_⟩
  · intro e
    obtain ⟨q, j, frees, retires, queue⟩ := Part.retireDocket_spec (Part.lookup_some named unique live holds) live still
      open_ hands.1
    obtain ⟨blocking, warned, members⟩ := (p.zone c.zone).left_spec i c
    have zone := frees.zone c.zone
    rw [if_pos rfl] at zone
    have slot : q.slot i = none := (frees.slot i).trans (if_pos rfl)
    have others : p.sameOtherSlots i q := fun j other => (frees.slot j).trans (if_neg other.symm)
    refine ⟨_, next_congr retires, slot, others, frees.sameOutside, ?_, ?_, fun y other => ?_, ?_, ?_, ?_, ?_, ?_, ?_,
      rfl, queue⟩
    · rintro j ⟨x, (held : q.slot j = some x), same⟩
      by_cases own : i = j
      · rw [← own, slot] at held
        cases held
      · rw [others j (Ne.symm own)] at held
        exact own (unique i j c x live held (holds.trans same.symm) (holds ▸ named))
    · exact (congrArg Zone.members zone).trans members
    · exact (frees.zone y).trans (if_neg other.symm)
    · exact (frees.cls c.cls).trans (if_pos rfl)
    · intro u (listed : u ∈ q.dlu.entries)
      rw [frees.entries] at listed
      exact ((Dlu.mem_remove i p.dlu u).1 listed).2
    · show q.exi.cause = _
      rw [frees.eq]
    · show q.exi.rise = _
      rw [frees.eq]
    · exact (congrArg Zone.blocking zone).trans blocking
    · exact (congrArg Zone.warnedCount zone).trans warned

end Sys2Proof.Machine

/-! ## ENROLL and SPLIT (O29, O30) -/

namespace Sys2Proof.Machine

/-! ### Images of several slots, staged for a docket -/

/-- The image of a slot, when it is live. -/
def Part.imageAt (p : Part) (i : Fin 2048) : Option Payload := (p.slot i).map fun c => .containerImage (imageOf i c)

theorem Part.offerPayloads_image (i : Fin 2048) (p : Part) : p.offerPayloads (.image i) = (p.imageAt i).toList := by
  unfold Part.offerPayloads Part.imageAt
  dsimp only
  split <;> next live => rw [live]; rfl

/-- The images of some slots, offered in order. -/
def Part.offerImages (is : List (Fin 2048)) (p : Part) : Part := is.foldl (fun p i => p.offerDocket (.image i)) p

theorem Part.offerImages_cons (i : Fin 2048) (is : List (Fin 2048)) (p : Part) :
    p.offerImages (i :: is) = (p.offerDocket (.image i)).offerImages is := rfl

/-- With room for all of them, the images enter the queue in order and nothing else changes. -/
theorem Part.offerImages_room {n : Nat} {is : List (Fin 2048)} {p : Part} (room : p.hasRoom n) (few : is.length ≤ n) :
    ∃ j, p.offerImages is = { p with jnc := j } ∧ j.queue = p.jnc.queue ++ p.stagedNow (is.filterMap p.imageAt) ∧
      j.engine = p.jnc.engine ∧ Part.hasRoom (n - is.length) { p with jnc := j } := by
  induction is generalizing n p with
  | nil => exact ⟨p.jnc, rfl, by simp [Part.stagedNow], rfl, room⟩
  | cons i is ih =>
    simp only [List.length_cons] at few
    have one : (p.offerPayloads (.image i)).length ≤ 1 := by
      rw [Part.offerPayloads_image]
      cases p.imageAt i <;> simp
    obtain ⟨j, offered, queue, engine, left⟩ := Part.offerDocket_room room (one.trans (by omega))
    obtain ⟨j', rest, queue', engine', left'⟩ := ih (n := n - 1) (left.mono (by omega)) (by omega)
    refine ⟨j', ?_, ?_, engine'.trans engine, left'.mono ?_⟩
    · rw [Part.offerImages_cons, offered]
      exact rest
    · rw [queue', queue, Part.offerPayloads_image, List.append_assoc, List.filterMap_cons]
      cases p.imageAt i <;> rfl
    · simp only [List.length_cons]
      omega

/-- The part `q` is `p` with the journal's record changed and the journal-dirty marks of some of the slots `S`
cleared. -/
structure Part.Clears (S : List (Fin 2048)) (p q : Part) : Prop where
  eq : q = { p with jnc := q.jnc, ctu := { p.ctu with slots := q.ctu.slots } }
  others : ∀ j, j ∉ S → q.slot j = p.slot j
  own : ∀ j c, p.slot j = some c → ∃ b, (b = true → c.dirty = true) ∧ q.slot j = some { c with dirty := b }
  free : ∀ j, p.slot j = none → q.slot j = none
  closing : q.jnc.closing = p.jnc.closing

theorem Part.Clears.trans {S T : List (Fin 2048)} {p q r : Part} (h : p.Clears S q) (k : q.Clears T r) :
    p.Clears (S ++ T) r := by
  refine ⟨?_, fun j out => ?_, fun j c live => ?_, fun j empty => k.free j (h.free j empty), k.closing.trans h.closing⟩
  · rw [k.eq, h.eq]
  · rw [List.mem_append, not_or] at out
    exact (k.others j out.2).trans (h.others j out.1)
  · obtain ⟨b, clean, own⟩ := h.own j c live
    obtain ⟨b', clean', own'⟩ := k.own j _ own
    exact ⟨b', fun set => clean (clean' set), own'⟩

theorem Part.Clears.of_jnc (S : List (Fin 2048)) {p : Part} {j : Jnc} (closing : j.closing = p.jnc.closing) :
    p.Clears S { p with jnc := j } :=
  ⟨rfl, fun _ _ => rfl, fun _ c live => ⟨c.dirty, id, live⟩, fun _ => id, closing⟩

theorem Part.clears_clearMark (g : ContainerImage) (p : Part) : p.Clears [g.slot] (p.clearMark (.containerImage g)) :=
    by
  unfold Part.clearMark
  split
  · dsimp only
    split
    · next c live =>
      refine ⟨rfl, fun j out => ?_, fun j d was => ?_, fun j empty => ?_, rfl⟩
      · rw [Part.slot_setSlot, if_neg (Ne.symm (by simpa using out))]
      · rw [Part.slot_setSlot]
        split
        · next same =>
          subst same
          obtain rfl := Option.some.inj (live.symm.trans was)
          exact ⟨false, nofun, rfl⟩
        · exact ⟨d.dirty, id, was⟩
      · rw [Part.slot_setSlot, if_neg fun same => by rw [← same, live] at empty; cases empty]
        exact empty
    · exact .of_jnc _ rfl
  · exact .of_jnc _ rfl

theorem Part.clears_offerImage (i : Fin 2048) {p : Part} (open_ : p.jnc.closing = none) :
    p.Clears [i] (p.offerDocket (.image i)) := by
  have queued : p.Clears [i] (p.enqueue .docket (p.offerPayloads (.image i))) := by
    unfold Part.offerPayloads
    dsimp only
    split
    · next c live =>
      exact (Part.clears_clearMark (imageOf i c) p).trans (.of_jnc [] rfl)
    · exact .of_jnc _ rfl
  unfold Part.offerDocket
  split
  · exact .of_jnc _ rfl
  · dsimp only
    split
    · obtain ⟨j, pumped, -⟩ := Part.pump_open (queued.closing.trans open_)
      obtain ⟨-, -, -, -, closing, -⟩ := Part.pump_jnc (queued.closing.trans open_)
      rw [pumped] at closing ⊢
      exact queued.trans (.of_jnc [] (closing.trans (queued.closing.trans open_).symm))
    · exact .of_jnc _ rfl

theorem Part.clears_offerImages (is : List (Fin 2048)) {p : Part} (open_ : p.jnc.closing = none) :
    p.Clears is (p.offerImages is) := by
  induction is generalizing p with
  | nil => exact .of_jnc _ rfl
  | cons i is ih =>
    have first := Part.clears_offerImage i open_
    exact first.trans (ih (first.closing.trans open_))

/-! ### A slot made live -/

/-- A zone's record once the container `c` has joined its members in slot `i` (R39). -/
def Zone.joined (i : Fin 2048) (c : Container) (r : Zone) : Zone :=
  Zone.recounted { r with members := r.members ++ [i] } false false c.blocks c.countsWarned

theorem Zone.joined_members (i : Fin 2048) (c : Container) (r : Zone) : (r.joined i c).members = r.members ++ [i] := by
  unfold Zone.joined
  rw [Zone.recounted_eq]

/-- What becomes of a part whose FREE slot `i` is made live with the record `c`. -/
structure Part.Lives (i : Fin 2048) (c : Container) (p q : Part) : Prop where
  eq : q = { p with
    exi := { p.exi with headerMark := true, zoneMarks := q.exi.zoneMarks, slotMarks := q.exi.slotMarks
                        rise := q.exi.rise, cause := q.exi.cause, messages := q.exi.messages }
    ctu := { p.ctu with
      slots := p.ctu.slots.set i (some c)
      classes := p.ctu.classes.set c.cls { p.cls c.cls with useCount := (p.cls c.cls).useCount + 1 } }
    znu := { p.znu with zones := p.znu.zones.set c.zone ((p.zone c.zone).joined i c) }
    dou := q.dou, dlu := q.dlu }

theorem Part.lives_makeLive (i : Fin 2048) (c : Container) (p : Part) : p.Lives i c (p.makeLive i c) := by
  obtain ⟨d, placed, -⟩ := ((p.setSlot i (some c)).useClass c.cls (· + 1)).placeDue_eq i c
  obtain ⟨marks, dou, joined⟩ := (((p.setSlot i (some c)).useClass c.cls (· + 1)).placeDue i c).setZone_moveCounts_eq c.zone
    { (((p.setSlot i (some c)).useClass c.cls (· + 1)).placeDue i c).zone c.zone with
      members := ((((p.setSlot i (some c)).useClass c.cls (· + 1)).placeDue i c).zone c.zone).members ++ [i] }
    false false c.blocks c.countsWarned
  obtain ⟨q, hq⟩ : ∃ q, q = (((p.setSlot i (some c)).useClass c.cls (· + 1)).placeDue i c).joinZone i c := ⟨_, rfl⟩
  obtain ⟨rise, cause, messages, reported, -⟩ := q.reportLevel_eq .none c.level
  obtain ⟨slots, posted⟩ := (q.reportLevel .none c.level).postIfChanged_eq i none (some c)
  have made : p.makeLive i c = ((q.reportLevel .none c.level).postIfChanged i none (some c)).postHeader := by
    rw [hq]
    rfl
  have joins : (((p.setSlot i (some c)).useClass c.cls (· + 1)).placeDue i c).joinZone i c = _ := joined
  rw [joins, placed] at hq
  rw [made, posted, reported]
  constructor
  rw [hq]
  rfl

section
variable {i : Fin 2048} {c : Container} {p q : Part}

theorem Part.Lives.slot (h : p.Lives i c q) (j : Fin 2048) : q.slot j = if i = j then some c else p.slot j := by
  rw [h.eq]
  exact Part.slot_setSlot ..

theorem Part.Lives.zone (h : p.Lives i c q) (y : Fin 64) :
    q.zone y = if c.zone = y then (p.zone c.zone).joined i c else p.zone y := by
  rw [h.eq]
  exact Part.zone_putZone ..

theorem Part.Lives.cls (h : p.Lives i c q) (n : Fin 16) : q.cls n = if c.cls = n then
    { p.cls c.cls with useCount := (p.cls c.cls).useCount + 1 } else p.cls n := by
  rw [h.eq]
  exact Part.cls_setCls ..

theorem Part.Lives.jnc (h : p.Lives i c q) : q.jnc = p.jnc := by rw [h.eq]

theorem Part.Lives.inHand (h : p.Lives i c q) : q.exi.inHand = p.exi.inHand := by rw [h.eq]

theorem Part.Lives.sameOutside (h : p.Lives i c q) : p.sameOutside q := by
  rw [h.eq]
  exact ⟨rfl, rfl, rfl⟩

end

/-! ### ENROLL -/

theorem firstFin_eq_some {n : Nat} {f : Fin n → Bool} {i : Fin n} (first : f i = true) (least : ∀ j, j < i →
    f j = false) :
    firstFin n f = some i := by
  unfold firstFin
  rw [List.find?_eq_some_iff_getElem]
  refine ⟨first, i.val, by simp, by simp, fun j before => ?_⟩
  rw [List.getElem_finRange, Bool.not_eq_true']
  exact least _ before

theorem Part.findId_isNone {p : Part} {id : ContainerId} (named : id ≠ 0) :
    (p.findId id).isNone = true ↔ ∀ j, ¬p.holdsId j id := by
  refine ⟨fun none_ j => Part.not_holdsId_of_findId none_ named j, fun fresh => ?_⟩
  rw [Part.findId_none named fresh]
  rfl

/-- The last three checks of R27, once the ID, the custody and the class have passed. -/
theorem Part.checkEnroll_eq {a : EnrollArgs} {n : Fin 16} {k : ClassDef} {z : Fin 64} {p : Part} (named : a.id ≠ 0)
    (custody : a.custody ≤ 1) (number : n.val = a.cls) (defined : (p.cls n).defn = some k) (zone : z.val = a.zone) :
    ∃ slot, p.checkEnroll a = check ((p.zone z).config.kind != .unused) .badZone
        (check (p.findId a.id).isNone .duplicateId slot) ∧
      ((firstFin 2048 fun i => (p.slot i).isNone) = none → slot = .error .tableFull) ∧
      ∀ i, (firstFin 2048 fun i => (p.slot i).isNone) = some i →
        slot = .ok (n, k, z, if a.custody = 1 then .opened else .sealed, i) := by
  have idOk : (a.id != 0) = true := bne_iff_ne.2 named
  cases slot : firstFin 2048 fun i => (p.slot i).isNone with
  | none =>
    refine ⟨.error .tableFull, ?_, fun _ => rfl, nofun⟩
    simp only [Part.checkEnroll, idOk, requestCustody_eq custody, finOf?_eq_some.2 number, Option.bind_some, defined,
      Option.map_some, finOf?_eq_some.2 zone, slot]
    rfl
  | some i =>
    refine ⟨.ok (n, k, z, if a.custody = 1 then .opened else .sealed, i), ?_, nofun, fun j found => ?_⟩
    · simp only [Part.checkEnroll, idOk, requestCustody_eq custody, finOf?_eq_some.2 number, Option.bind_some, defined,
        Option.map_some, finOf?_eq_some.2 zone, slot]
      rfl
    · rw [Option.some.inj found]

theorem Part.enrollDocket_refused {a : EnrollArgs} {p : Part} {d : InHand} {r : ResultCode} (inHand : p.exi.inHand =
    some d)
    (fails : p.checkEnroll a = .error r) : p.enrollDocket a = p.refusedWith d r := by
  rw [Part.enrollDocket, fails]
  exact Part.refuseDocket_spec inHand r

theorem limitRule_eq (k : ClassDef) (c : Container) : limitRule k c =
    { c with custody := (limitRule k c).custody, mode := (limitRule k c).mode } := by
  unfold limitRule
  split <;> rfl

/-- The account and the history of a new container (R28). -/
theorem enrolled_eq (id : ContainerId) (n : Fin 16) (k : ClassDef) (z : Fin 64) (kind : ZoneKind) (custody : Custody)
    (minutes t : Nat) : enrolled id n k z kind custody minutes t =
      { id := id, cls := n, custody := (enrolled id n k z kind custody minutes t).custody, zone := z
        mode := (enrolled id n k z kind custody minutes t).mode
        exposure := min minutes k.allowance * Config.ticksPerMinute, settled := t, zoneEntry := t, lastMove := none
        warned := false, bakeCount := 0, bakedThisStay := false, bakeProgress := none, bakeRunStart := none
        quarantineCause := none, parent := none, enrolled := t, warnDue := none, expireDue := none, dirty := false } :=
  limitRule_eq k _

/-- R28, R12: the custody of a new container. -/
theorem enrolled_custody (id : ContainerId) (n : Fin 16) (k : ClassDef) (z : Fin 64) (kind : ZoneKind) (asked : Prop)
    [Decidable asked] (minutes t : Nat) :
    (enrolled id n k z kind (if asked then .opened else .sealed) minutes t).custody =
      if k.limit ≤ min minutes k.allowance * Config.ticksPerMinute then .expired
      else if kind = .line ∨ asked then .opened else .sealed := by
  have custody : (if kind = .line then Custody.opened else if asked then .opened else .sealed) =
      if kind = .line ∨ asked then .opened else .sealed := by
    by_cases line : kind = .line <;> simp [line]
  unfold enrolled limitRule
  rw [custody]
  have live : (if kind = .line ∨ asked then Custody.opened else .sealed) = .sealed ∨
      (if kind = .line ∨ asked then Custody.opened else .sealed) = .opened := by
    split
    · exact .inr rfl
    · exact .inl rfl
  by_cases limit : k.limit ≤ min minutes k.allowance * Config.ticksPerMinute
  · rw [if_pos ⟨live, limit⟩, if_pos limit]
    rfl
  · rw [if_neg fun h => limit h.2, if_neg limit]

/-- R28: an ENROLL that passes its checks. -/
theorem Part.enrollDocket_spec {a : EnrollArgs} {n : Fin 16} {k : ClassDef} {z : Fin 64} {custody : Custody} {i : Fin 2048}
    {p : Part} {d : InHand} (passes : p.checkEnroll a = .ok (n, k, z, custody, i)) (open_ : p.jnc.closing = none)
    (inHand : p.exi.inHand = some d) :
    let c := (p.deriveRecord false (enrolled a.id n k z (p.zone z).config.kind custody a.minutes p.now)).1
    let q := p.makeLive i c
    p.Lives i c q ∧ ∃ r, q.Marks i r ∧ (p.journalTakes →
      r.jnc.queue = p.jnc.queue ++ p.stagedNow [.containerImage (imageOf i c)]) ∧
      p.enrollDocket a = { r with exi := { r.exi with inHand := some { d with stage := .finished {
        result := .ok, first := if k.allowance < a.minutes then 1 else 0, second := 0, value := i.val } } } } := by
  intro c q
  have lives : p.Lives i c q := Part.lives_makeLive ..
  have live : q.slot i = some c := (lives.slot i).trans (if_pos rfl)
  obtain ⟨marks, queue⟩ := Part.offerImage_spec live ((congrArg Jnc.closing lives.jnc).trans open_)
  refine ⟨lives, _, marks, fun takes => ?_, ?_⟩
  · rw [queue ((Part.journalTakes_congr lives.jnc).2 takes), lives.jnc, Part.stagedNow, Part.stagedNow, Part.now,
      lives.sameOutside.2.2]
    rfl
  · rw [Part.enrollDocket, passes]
    exact Part.finishDocket_spec (marks.inHand.trans (lives.inHand.trans inHand)) _

/-- Settles O29. -/
theorem enrollChecksThenMakesContainer : Obligations.EnrollChecksThenMakesContainer := by
  constructor
  · intro s d a on hands p refused
    have refuse (r : ResultCode) (fails : p.checkEnroll a = .error r) : refused r := by
      show exec .enroll s = _
      rw [exec_enroll on hands]
      exact next_congr (Part.enrollDocket_refused hands.1 fails)
    refine ⟨fun bad => refuse _ ?_, fun named custody undefined => refuse _ ?_,
      fun n k named custody number defined => ⟨fun unused => refuse _ ?_, fun z zone used => ?_⟩⟩
    · obtain zero | many := bad
      · simp only [Part.checkEnroll, zero]
        rfl
      · by_cases zero : a.id = 0
        · simp only [Part.checkEnroll, zero]
          rfl
        · simp only [Part.checkEnroll, bne_iff_ne.2 zero, requestCustody_none many]
          rfl
    · have noClass : ((finOf? 16 a.cls).bind fun n => (p.cls n).defn.map fun k => (n, k)) = none := by
        cases number : finOf? 16 a.cls with
        | none => rfl
        | some n => simp [undefined n (finOf?_eq_some.1 number)]
      simp only [Part.checkEnroll, bne_iff_ne.2 named, requestCustody_eq custody]
      rw [noClass]
      rfl
    · cases zone : finOf? 64 a.zone with
      | none =>
        simp only [Part.checkEnroll, bne_iff_ne.2 named, requestCustody_eq custody, finOf?_eq_some.2 number,
          Option.bind_some, defined, Option.map_some, zone]
        rfl
      | some z =>
        obtain ⟨slot, checked, -⟩ := Part.checkEnroll_eq named custody number defined (finOf?_eq_some.1 zone)
        rw [checked, bne_eq_false_iff_eq.2 (unused z (finOf?_eq_some.1 zone))]
        rfl
    · obtain ⟨slot, checked, full, -⟩ := Part.checkEnroll_eq (z := z) named custody number defined zone
      have inUse : ((p.zone z).config.kind != .unused) = true := bne_iff_ne.2 used
      rw [inUse] at checked
      refine ⟨fun held => refuse _ ?_, fun table => refuse _ ?_⟩
      · obtain ⟨i, holds⟩ := held
        have found : (p.findId a.id).isNone = false :=
          Bool.eq_false_iff.2 fun none_ => (Part.findId_isNone named).1 none_ i holds
        rw [checked, found]
        rfl
      · have fresh : (p.findId a.id).isNone = true := (Part.findId_isNone named).2 fun j ⟨c, live, same⟩ => by
          obtain ⟨c', live', other⟩ := table j
          rw [live] at live'
          exact other (Option.some.inj live' ▸ same)
        have none_ : (firstFin 2048 fun i => (p.slot i).isNone) = none := by
          unfold firstFin
          rw [List.find?_eq_none]
          intro i _
          obtain ⟨c, live, -⟩ := table i
          simp [live]
        rw [checked, fresh, full none_]
        rfl
  · intro s d a n k z i on hands p e named custody number defined zone used fresh free least open_
    rw [exec_enroll on hands]
    obtain ⟨slot, checked, -, found⟩ := Part.checkEnroll_eq (z := z) named custody number defined zone
    rw [bne_iff_ne.2 used, (Part.findId_isNone named).2 fresh] at checked
    have passes : p.checkEnroll a = .ok (n, k, z, if a.custody = 1 then .opened else .sealed, i) := by
      rw [checked, ← found i (firstFin_eq_some ?_ ?_)]
      · rfl
      · rw [free]
        rfl
      · intro j before
        rw [Option.isNone_eq_false_iff, Option.isSome_iff_ne_none]
        exact least j before
    obtain ⟨lives, r, marks, queue, enrolls⟩ := Part.enrollDocket_spec passes open_ hands.1
    have record := Part.deriveRecord_eq false (enrolled a.id n k z (p.zone z).config.kind
      (if a.custody = 1 then .opened else .sealed) a.minutes p.now) p
    generalize (p.deriveRecord false (enrolled a.id n k z (p.zone z).config.kind
      (if a.custody = 1 then .opened else .sealed) a.minutes p.now)).1 = c at lives marks queue record
    have custody := enrolled_custody a.id n k z (p.zone z).config.kind (a.custody = 1) a.minutes p.now
    have live : (p.makeLive i c).slot i = some c := (lives.slot i).trans (if_pos rfl)
    obtain ⟨b, own⟩ := marks.own c live
    have account : c.id = a.id ∧ c.cls = n ∧ c.zone = z ∧ c.exposure = e ∧ c.settled = p.now ∧ c.zoneEntry = p.now ∧
        c.enrolled = p.now ∧ c.lastMove = none ∧ c.bakeCount = 0 ∧ c.parent = none ∧ c.quarantineCause = none := by
      rw [record, enrolled_eq]
      exact ⟨rfl, rfl, rfl, rfl, rfl, rfl, rfl, rfl, rfl, rfl, rfl⟩
    have held : c.custody = if k.limit ≤ e then .expired
        else if (p.zone z).config.kind = .line ∨ a.custody = 1 then .opened else .sealed := by
      rw [record]
      exact custody
    obtain ⟨sameId, cls, inZone, exposure, settled, zoneEntry, enrolled, lastMove, bakes, parent, cause⟩ := account
    have zones (y : Fin 64) : r.zone y = if c.zone = y then (p.zone c.zone).joined i c else p.zone y :=
      (marks.zone y).trans (lives.zone y)
    have classes : r.cls n = (p.makeLive i c).cls n := by
      unfold Part.cls
      rw [marks.classes]
    refine ⟨_, _, next_congr enrolls, own, ?_, ?_, sameId, cls, inZone, exposure, settled, zoneEntry, enrolled,
      lastMove,
      bakes, parent, cause, held, ?_, fun y other => ?_, ?_, rfl, queue⟩
    · intro j other
      exact (marks.others j other).trans ((lives.slot j).trans (if_neg other.symm))
    · exact lives.sameOutside.trans marks.sameOutside
    · have joined := zones z
      rw [if_pos inZone, inZone] at joined
      exact (congrArg Zone.members joined).trans (Zone.joined_members i c _)
    · exact (zones y).trans (if_neg fun same => other (same.symm.trans inZone))
    · refine classes.trans ((lives.cls n).trans ?_)
      rw [if_pos cls, cls]

end Sys2Proof.Machine

/-! ## SPLIT (O30) -/

namespace Sys2Proof.Machine

/-! ### The checks -/

theorem SplitArgs.idsOk_iff (a : SplitArgs) :
    (a.read.all (· != 0) && decide a.read.Nodup) = true ↔ 0 ∉ a.read ∧ a.read.Nodup := by
  simp only [Bool.and_eq_true, List.all_eq_true, bne_iff_ne, decide_eq_true_eq]
  exact and_congr_left fun _ => ⟨fun h zero => h 0 zero rfl, fun h x listed zero => h (zero ▸ listed)⟩

theorem Part.splitDocket_badArg {a : SplitArgs} {p : Part} {d : InHand} (inHand : p.exi.inHand = some d)
    (bad : a.count = 0 ∨ 4 < a.count ∨ 0 ∈ a.read ∨ ¬a.read.Nodup) : p.splitDocket a = p.refusedWith d .badArg := by
  have fails : p.splitParent a = .error .badArg := by
    unfold Part.splitParent
    by_cases count : (decide (1 ≤ a.count) && decide (a.count ≤ 4)) = true
    · have few := count
      rw [Bool.and_eq_true, decide_eq_true_eq, decide_eq_true_eq] at few
      have ids : (a.read.all (· != 0) && decide a.read.Nodup) = false := by
        rw [Bool.eq_false_iff, ne_eq, SplitArgs.idsOk_iff]
        rintro ⟨nonzero, distinct⟩
        obtain h | h | h | h := bad
        · omega
        · omega
        · exact nonzero h
        · exact h distinct
      rw [count, ids]
      rfl
    · rw [Bool.eq_false_iff.2 count]
      rfl
  rw [Part.splitDocket, fails]
  exact Part.refuseDocket_spec inHand _

/-- The arguments of a SPLIT pass the first checks of R29. -/
def SplitArgs.good (a : SplitArgs) : Prop := 1 ≤ a.count ∧ a.count ≤ 4 ∧ 0 ∉ a.read ∧ a.read.Nodup

theorem Part.splitParent_eq {a : SplitArgs} {p : Part} (good : a.good) : p.splitParent a = match p.findId a.parent with
    | none => .error .unknownId
    | some i => .ok i := by
  obtain ⟨some_, few, nonzero, distinct⟩ := good
  rw [Part.splitParent, (SplitArgs.idsOk_iff a).2 ⟨nonzero, distinct⟩, decide_eq_true some_, decide_eq_true few]
  rfl

theorem Part.splitDocket_unknown {a : SplitArgs} {p : Part} {d : InHand} (inHand : p.exi.inHand = some d)
    (good : a.good)
    (missing : p.findId a.parent = none) : p.splitDocket a = p.refusedWith d .unknownId := by
  rw [Part.splitDocket, Part.splitParent_eq good, missing]
  exact Part.refuseDocket_spec inHand _

theorem Part.checkSplit_eq {a : SplitArgs} {i : Fin 2048} {c : Container} {p : Part} (live : p.slot i = some c) :
    p.checkSplit a i = check (c.custody == .opened) .wrongState
      (check (a.read.all fun id => (p.findId id).isNone) .duplicateId
        (check (decide (a.count ≤ p.freeSlots.length)) .tableFull (.ok c))) := by
  simp only [Part.checkSplit, live]

theorem Part.splitDocket_refused {a : SplitArgs} {i : Fin 2048} {c : Container} {p : Part} {d : InHand} {r : ResultCode}
    (inHand : p.exi.inHand = some d) (good : a.good) (found : p.findId a.parent = some i) (live : p.slot i = some c)
    (still : (p.zone c.zone).change = none) (fails : p.checkSplit a i = .error r) :
    p.splitDocket a = p.refusedWith d r := by
  rw [Part.splitDocket, Part.splitParent_eq good, found]
  simp only [Part.reached_still live still, fails]
  exact Part.refuseDocket_spec inHand _

/-! ### The children -/

theorem childOf_eq (k : ClassDef) (parent : Container) (id : ContainerId) (t : Nat) : childOf k parent id t =
    { parent with
      id := id, custody := (childOf k parent id t).custody, mode := (childOf k parent id t).mode, settled := t,
        zoneEntry := t
      lastMove := none, bakeProgress := none, bakeRunStart := none, quarantineCause := none, parent := some parent.id
      enrolled := t, dirty := false, warnDue := (childOf k parent id t).warnDue
      expireDue := (childOf k parent id t).expireDue } := by
  unfold childOf
  rw [withDues_eq, limitRule_eq]

/-- The account and the history of a child (R30). -/
theorem childOf_history (k : ClassDef) (parent : Container) (id : ContainerId) (t : Nat) {ch : Container}
    (made : ch = childOf k parent id t) : ch.id = id ∧ ch.parent = some parent.id ∧ ch.exposure = parent.exposure ∧
      ch.cls = parent.cls ∧ ch.zone = parent.zone ∧ ch.settled = t ∧ ch.enrolled = t ∧ ch.zoneEntry = t ∧
      ch.lastMove = none ∧ ch.bakeProgress = none ∧ ch.bakeRunStart = none ∧ ch.quarantineCause = none ∧
      ch.dirty = false ∧ ch.bakeCount = parent.bakeCount ∧ ch.bakedThisStay = parent.bakedThisStay ∧
      ch.warned = parent.warned := by
  rw [made, childOf_eq]
  exact ⟨rfl, rfl, rfl, rfl, rfl, rfl, rfl, rfl, rfl, rfl, rfl, rfl, rfl, rfl, rfl, rfl⟩

/-- R12: a child at its limit is EXPIRED. -/
theorem childOf_custody (k : ClassDef) (parent : Container) (id : ContainerId) (t : Nat) :
    (childOf k parent id t).custody = (if k.limit ≤ parent.exposure then .expired else .opened) ∧
    (childOf k parent id t).mode = if k.limit ≤ parent.exposure then .hold else parent.mode := by
  unfold childOf
  rw [withDues_eq]
  unfold limitRule
  by_cases limit : k.limit ≤ parent.exposure
  · rw [if_pos ⟨.inr rfl, limit⟩, if_pos limit, if_pos limit]
    exact ⟨rfl, rfl⟩
  · rw [if_neg fun h => limit h.2, if_neg limit, if_neg limit]
    exact ⟨rfl, rfl⟩

/-- The part `q` is `p` with children of `parent` made live in the slots of the list, one after another. -/
structure Part.Bears (k : ClassDef) (parent : Container) (xs : List (ContainerId × Fin 2048)) (p q : Part) : Prop where
  own : ∀ x ∈ xs, q.slot x.2 = some (childOf k parent x.1 p.now)
  others : ∀ j, j ∉ xs.map (·.2) → q.slot j = p.slot j
  members : (q.zone parent.zone).members = (p.zone parent.zone).members ++ xs.map (·.2)
  zones : ∀ y, y ≠ parent.zone → q.zone y = p.zone y
  useCount : (q.cls parent.cls).useCount = (p.cls parent.cls).useCount + xs.length
  classes : ∀ n, n ≠ parent.cls → q.cls n = p.cls n
  jnc : q.jnc = p.jnc
  inHand : q.exi.inHand = p.exi.inHand
  outside : p.sameOutside q

theorem Part.bears_makeChildren (k : ClassDef) (parent : Container) {xs : List (ContainerId × Fin 2048)} {p : Part}
    (distinct : (xs.map (·.2)).Nodup) :
    p.Bears k parent xs (xs.foldl (fun p x => p.makeLive x.2 (childOf k parent x.1 p.now)) p) := by
  induction xs generalizing p with
  | nil => exact ⟨nofun, fun _ _ => rfl, by simp, fun _ _ => rfl, rfl, fun _ _ => rfl, rfl, rfl, rfl, rfl, rfl⟩
  | cons x xs ih =>
    rw [List.map_cons, List.nodup_cons] at distinct
    obtain ⟨apart, distinct⟩ := distinct
    have lives := Part.lives_makeLive x.2 (childOf k parent x.1 p.now) p
    have rest := ih (p := p.makeLive x.2 (childOf k parent x.1 p.now)) distinct
    have now : (p.makeLive x.2 (childOf k parent x.1 p.now)).now = p.now :=
      congrArg Tbu.counter lives.sameOutside.2.2
    have zone : (childOf k parent x.1 p.now).zone = parent.zone := by rw [childOf_eq]
    have cls : (childOf k parent x.1 p.now).cls = parent.cls := by rw [childOf_eq]
    rw [List.foldl_cons]
    refine ⟨fun y listed => ?_, fun j out => ?_, ?_, fun y other => ?_, ?_, fun n other => ?_, rest.jnc.trans lives.jnc,
      rest.inHand.trans lives.inHand, lives.sameOutside.trans rest.outside⟩
    · obtain rfl | listed := List.mem_cons.1 listed
      · rw [rest.others _ apart, lives.slot, if_pos rfl]
      · rw [rest.own y listed, now]
    · rw [List.map_cons, List.mem_cons, not_or] at out
      rw [rest.others j out.2, lives.slot, if_neg (Ne.symm out.1)]
    · rw [rest.members, lives.zone, zone, if_pos rfl, Zone.joined_members, List.append_assoc]
      rfl
    · rw [rest.zones y other, lives.zone, zone, if_neg other.symm]
    · rw [rest.useCount, lives.cls, cls, if_pos rfl, List.length_cons, Nat.add_assoc, Nat.add_comm 1]
    · rw [rest.classes n other, lives.cls, cls, if_neg other.symm]

/-! ### The split of a settled parent -/

/-- The slots that a SPLIT makes live. -/
def Part.childSlots (p : Part) (a : SplitArgs) : List (Fin 2048) := p.freeSlots.take a.count

theorem Part.childSlots_free {p : Part} {a : SplitArgs} {j : Fin 2048} (listed : j ∈ p.childSlots a) : p.slot j =
    none := by
  have free := List.mem_of_mem_take listed
  simpa [Part.freeSlots, allFin] using free

theorem Part.childSlots_nodup (p : Part) (a : SplitArgs) : (p.childSlots a).Nodup := by
  unfold Part.childSlots Part.freeSlots allFin
  exact ((List.nodup_finRange 2048).filter _).sublist (List.take_sublist ..)

/-- The children of a SPLIT are made live and the parent, when asked, is retired. -/
def Part.split (a : SplitArgs) (i : Fin 2048) (parent : Container) (p : Part) : Part :=
  let q := (a.read.zip (p.childSlots a)).foldl
    (fun q x => q.makeLive x.2 (childOf (p.classDef parent.cls) parent x.1 q.now)) p
  if a.retireParent then q.freeSlot i parent else q

/-- What the split leaves of a part. -/
structure Part.Splits (a : SplitArgs) (i : Fin 2048) (parent : Container) (p q : Part) : Prop where
  own : ∀ x ∈ a.read.zip (p.childSlots a), q.slot x.2 = some (childOf (p.classDef parent.cls) parent x.1 p.now)
  remains : q.slot i = if a.retireParent then none else some parent
  others : ∀ j, j ≠ i → j ∉ p.childSlots a → q.slot j = p.slot j
  members : (q.zone parent.zone).members = (if a.retireParent then (p.zone parent.zone).members.filter (· != i)
    else (p.zone parent.zone).members) ++ p.childSlots a
  zones : ∀ y, y ≠ parent.zone → q.zone y = p.zone y
  useCount : (q.cls parent.cls).useCount = (p.cls parent.cls).useCount + a.count - a.retireParent.toNat
  classes : ∀ n, n ≠ parent.cls → q.cls n = p.cls n
  jnc : q.jnc = p.jnc
  inHand : q.exi.inHand = p.exi.inHand
  outside : p.sameOutside q

theorem Part.splits_split {a : SplitArgs} {i : Fin 2048} {parent : Container} {p : Part} (live : p.slot i = some parent)
    (ids : a.read.length = a.count) (slots : (p.childSlots a).length = a.count) :
    p.Splits a i parent (p.split a i parent) := by
  have seconds : (a.read.zip (p.childSlots a)).map (·.2) = p.childSlots a := List.map_snd_zip (by omega)
  have length : (a.read.zip (p.childSlots a)).length = a.count := by simp [ids, slots]
  have apart : i ∉ p.childSlots a := fun listed => by
    rw [Part.childSlots_free listed] at live
    cases live
  obtain ⟨q, hq⟩ : ∃ q, q = (a.read.zip (p.childSlots a)).foldl
    (fun q x => q.makeLive x.2 (childOf (p.classDef parent.cls) parent x.1 q.now)) p := ⟨_, rfl⟩
  have bears := Part.bears_makeChildren (p.classDef parent.cls) parent (p := p)
      (by rw [seconds]; exact p.childSlots_nodup a)
  have parentStands := bears.others i (by rw [seconds]; exact apart)
  have others := bears.others
  have members := bears.members
  have useCount := bears.useCount
  rw [seconds] at others members
  rw [length] at useCount
  rw [← hq] at bears parentStands others members useCount
  unfold Part.split
  dsimp only
  rw [← hq]
  cases asked : a.retireParent with
  | false =>
    refine ⟨bears.own, ?_, fun j _ out => others j out, ?_, bears.zones, ?_, bears.classes, bears.jnc, bears.inHand,
      bears.outside⟩
    · rw [asked]
      exact parentStands.trans live
    · rw [asked]
      exact members
    · rw [asked]
      exact useCount
  | true =>
    have frees := Part.frees_freeSlot i parent q
    obtain ⟨-, -, left⟩ := (q.zone parent.zone).left_spec i parent
    refine ⟨fun x listed => ?_, ?_, fun j other out => ?_, ?_, fun y other => ?_, ?_,
      fun n other => ?_, frees.jnc.trans bears.jnc, frees.inHand.trans bears.inHand,
      bears.outside.trans frees.sameOutside⟩
    · have slot : x.2 ∈ p.childSlots a := (List.of_mem_zip listed).2
      have differs : i ≠ x.2 := fun same => apart (by rw [same]; exact slot)
      exact ((frees.slot x.2).trans (if_neg differs)).trans (bears.own x listed)
    · rw [asked]
      exact (frees.slot i).trans (if_pos rfl)
    · exact ((frees.slot j).trans (if_neg other.symm)).trans (others j out)
    · rw [asked]
      have joined := congrArg Zone.members ((frees.zone parent.zone).trans (if_pos rfl))
      refine joined.trans (left.trans ?_)
      rw [members, List.filter_append]
      congr 1
      exact List.filter_eq_self.2 fun j listed => bne_iff_ne.2 fun same => apart (same ▸ listed)
    · exact ((frees.zone y).trans (if_neg other.symm)).trans (bears.zones y other)
    · rw [asked]
      refine (congrArg ClassRecord.useCount ((frees.cls parent.cls).trans (if_pos rfl))).trans ?_
      exact congrArg (· - 1) useCount
    · exact ((frees.cls n).trans (if_neg other.symm)).trans (bears.classes n other)

/-! ### The entries of a SPLIT -/

/-- The images of the children, and the parent's image or retire entry, offered in order (R31). -/
def Part.offerSplit (a : SplitArgs) (i : Fin 2048) (parent : Container) (slots : List (Fin 2048)) (p : Part) : Part :=
  (p.offerImages slots).offerDocket (if a.retireParent then .retire i parent.id else .image i)

/-- The entries that a SPLIT stages. -/
def Part.splitEntries (a : SplitArgs) (i : Fin 2048) (parent : Container) (slots : List (Fin 2048)) (p : Part) :
    List Payload :=
  slots.filterMap p.imageAt ++ (if a.retireParent then [.retireEntry i parent.id] else (p.imageAt i).toList)

theorem Part.clears_offerSplit (a : SplitArgs) (i : Fin 2048) (parent : Container) (slots : List (Fin 2048)) {p : Part}
    (open_ : p.jnc.closing = none) : p.Clears (slots ++ [i]) (p.offerSplit a i parent slots) := by
  have images := Part.clears_offerImages slots open_
  have still := images.closing.trans open_
  refine images.trans ?_
  unfold Part.offerSplit
  split
  · obtain ⟨j, offered, closing, -⟩ := Part.offerDocket_plain (o := .retire i parent.id) still
      (by simp [Part.offerPayloads, Payload.isImage])
    rw [offered]
    exact .of_jnc [i] (closing.trans still.symm)
  · exact Part.clears_offerImage i still

theorem Part.offerSplit_room {a : SplitArgs} {i : Fin 2048} {parent : Container} {slots : List (Fin 2048)} {p : Part}
    (room : p.hasRoom 5) (few : slots.length ≤ 4) : ∃ j, p.offerSplit a i parent slots = { p with jnc := j } ∧
      j.queue = p.jnc.queue ++ p.stagedNow (p.splitEntries a i parent slots) := by
  obtain ⟨j, images, queue, -, left⟩ := Part.offerImages_room room (by omega : slots.length ≤ 5)
  obtain ⟨o, entries, ho, payloads⟩ : ∃ o entries, o = (if a.retireParent then Offer.retire i parent.id else .image i) ∧
      entries = (if a.retireParent then [.retireEntry i parent.id] else (p.imageAt i).toList) := ⟨_, _, rfl, rfl⟩
  have offers : Part.offerPayloads { p with jnc := j } o = entries := by
    rw [ho, payloads]
    cases a.retireParent with
    | false => exact Part.offerPayloads_image ..
    | true => rfl
  have one : entries.length ≤ 1 := by
    rw [payloads]
    cases a.retireParent
    · cases p.imageAt i <;> simp
    · simp
  obtain ⟨j', last, queue', -⟩ := Part.offerDocket_room (o := o) left (by rw [offers]; omega)
  refine ⟨j', ?_, ?_⟩
  · unfold Part.offerSplit
    rw [images, ← ho]
    exact last
  · rw [queue', queue, offers, List.append_assoc, Part.splitEntries, ← payloads]
    simp only [Part.stagedNow, List.map_append]
    rfl

theorem Part.splitInto_eq (a : SplitArgs) (i : Fin 2048) (parent : Container) (p : Part) : p.splitInto a i parent =
    ((p.split a i parent).offerSplit a i parent (p.childSlots a)).finishDocket
      { result := .ok, first := a.count, second := a.retireParent.toNat, value := splitValue (p.childSlots a) } := rfl

/-- R29 to R31: a SPLIT that passes its checks, from the part that its settle leaves. -/
theorem Part.splitDocket_settles {a : SplitArgs} {i : Fin 2048} {c : Container} {p : Part} (good : a.good)
    (found : p.findId a.parent = some i) (live : p.slot i = some c) (still : (p.zone c.zone).change = none)
    (passes : p.checkSplit a i = .ok c) :
    let parent := (p.deriveRecord true (settleRecord (p.classDef c.cls) p.now c).1).1
    ∃ r, p.Commits i c parent r ∧ p.splitDocket a = r.splitInto a i parent := by
  intro parent
  obtain ⟨r, settles, commits⟩ := Part.settleSlot_commits live still p.now
  refine ⟨r, commits, ?_⟩
  rw [Part.splitDocket, Part.splitParent_eq good, found]
  simp only [Part.reached_still live still, passes, settles]
  rw [commits.own]
  rfl

theorem Part.stagedNow_congr {p q : Part} (same : q.tbu = p.tbu) (pls : List Payload) :
    q.stagedNow pls = p.stagedNow pls := by
  unfold Part.stagedNow Part.now
  rw [same]

theorem Part.Commits.freeSlots {i : Fin 2048} {old c : Container} {p q : Part} (h : p.Commits i old c q)
    (live : p.slot i = some old) : q.freeSlots = p.freeSlots := by
  unfold Part.freeSlots
  congr 1
  funext j
  rw [h.slot]
  split
  · next same => rw [← same, live]; rfl
  · rfl

/-- Settles O30. -/
theorem splitMakesChildren : Obligations.SplitMakesChildren := by
  intro s d a i c on hands p ids slots refused parent limit e
  have answers {q : Part} (h : p.splitDocket a = q) : exec .split s = .next (s.withPart q) := by
    rw [exec_split on hands]
    exact next_congr h
  refine ⟨fun bad => answers (Part.splitDocket_badArg hands.1 bad), fun some_ few nonzero distinct => ?_⟩
  have good : a.good := ⟨some_, few, nonzero, distinct⟩
  refine ⟨fun missing => answers (Part.splitDocket_unknown hands.1 good ?_),
    fun named unique live holds still => ?_⟩
  · by_cases zero : a.parent = 0
    · rw [Part.findId, if_pos zero]
    · exact Part.findId_none zero (missing.resolve_left zero)
  · have found : p.findId a.parent = some i := Part.findId_of_holds unique named live holds
    have fails {r : ResultCode} (h : p.checkSplit a i = .error r) : refused r :=
      answers (Part.splitDocket_refused hands.1 good found live still h)
    have checks := Part.checkSplit_eq (a := a) live
    have opens (opened : c.custody = .opened) : (c.custody == .opened) = true := beq_iff_eq.2 opened
    have freshIds (fresh : ∀ id ∈ ids, ∀ j, ¬p.holdsId j id) : (a.read.all fun id => (p.findId id).isNone) = true := by
      rw [List.all_eq_true]
      exact fun id listed => (Part.findId_isNone fun zero => nonzero (zero ▸ listed)).2 (fresh id listed)
    refine ⟨fun notOpen => fails ?_, fun opened held => fails ?_,
      fun opened fresh => ⟨fun full => fails ?_, fun enough four open_ => ?_⟩⟩
    · rw [checks, beq_eq_false_iff_ne.2 notOpen]
      rfl
    · obtain ⟨id, listed, j, holds⟩ := held
      have taken : (a.read.all fun id => (p.findId id).isNone) = false := by
        rw [List.all_eq_false]
        exact ⟨id, listed, fun none_ =>
          (Part.findId_isNone fun zero => nonzero (zero ▸ listed)).1 none_ j holds⟩
      rw [checks, opens opened, taken]
      rfl
    · rw [checks, opens opened, freshIds fresh, decide_eq_false (Nat.not_le.2 full)]
      rfl
    · have passes : p.checkSplit a i = .ok c := by
        rw [checks, opens opened, freshIds fresh, decide_eq_true enough]
        rfl
      obtain ⟨r, commits, runs⟩ := Part.splitDocket_settles good found live still passes
      have childSlots : r.childSlots a = slots := congrArg (List.take a.count) (commits.freeSlots live)
      have idsLength : a.read.length = a.count := by
        rw [SplitArgs.read, List.length_take]
        omega
      have slotsLength : (r.childSlots a).length = a.count := by
        rw [childSlots, List.length_take]
        exact Nat.min_eq_left enough
      have splits := Part.splits_split commits.own idsLength slotsLength
      have identity : parent.id = c.id ∧ parent.cls = c.cls ∧ parent.zone = c.zone := by
        show (p.deriveRecord true _).1.id = _ ∧ (p.deriveRecord true _).1.cls = _ ∧ (p.deriveRecord true _).1.zone = _
        rw [Part.deriveRecord_eq]
        exact settleRecord_ids ..
      obtain ⟨sameId, sameCls, sameZone⟩ := identity
      have class_ : r.classDef parent.cls = p.classDef c.cls := by rw [Part.classDef_congr commits.classes, sameCls]
      have splitOpen : (r.split a i parent).jnc.closing = none := by
        rw [splits.jnc, commits.jnc]
        exact open_
      have clears := Part.clears_offerSplit a i parent (r.childSlots a) splitOpen
      have room := Part.offerSplit_room (a := a) (i := i) (parent := parent) (slots := r.childSlots a)
          (p := r.split a i parent)
      obtain ⟨q, hq⟩ : ∃ q, q = (r.split a i parent).offerSplit a i parent (r.childSlots a) := ⟨_, rfl⟩
      rw [← hq] at clears room
      have hand : q.exi.inHand = some d := by
        rw [clears.eq]
        exact splits.inHand.trans (commits.inHand.trans hands.1)
      have zones (y : Fin 64) : q.zone y = (r.split a i parent).zone y := by
        rw [clears.eq]
        rfl
      have classes (n : Fin 16) : q.cls n = (r.split a i parent).cls n := by
        rw [clears.eq]
        rfl
      have runsInto : r.splitInto a i parent = { q with exi := { q.exi with inHand := some { d with stage := .finished {
          result := .ok, first := a.count, second := a.retireParent.toNat, value := splitValue slots } } } } := by
        rw [Part.splitInto_eq, ← hq, childSlots]
        exact Part.finishDocket_spec hand _
      have child := splits.own
      have members := splits.members
      have useCount := splits.useCount
      have others := splits.others
      rw [childSlots, class_, commits.now] at child
      rw [childSlots, sameZone] at members
      rw [childSlots] at others clears room
      rw [sameCls] at useCount
      have settledMembers : (r.zone c.zone).members = (p.zone c.zone).members := by rw [commits.zone_eq]
      have settledCls (n : Fin 16) : r.cls n = p.cls n := by
        unfold Part.cls
        rw [commits.classes]
      rw [settledMembers] at members
      rw [settledCls] at useCount
      refine ⟨_, answers (runs.trans runsInto), ?_, fun x listed => ?_, fun asked => ?_, fun asked => ?_,
        fun j other out => ?_, ?_, fun y other => ?_, ?_, fun n other => ?_, fun takes => ?_, rfl⟩
      · have outside : (r.split a i parent).sameOutside q := by
          rw [clears.eq]
          exact ⟨rfl, rfl, rfl⟩
        exact (commits.sameOutside.trans splits.outside).trans outside
      · obtain ⟨b, clean, own⟩ := clears.own _ _ (child x listed)
        obtain ⟨custody, mode⟩ := childOf_custody (p.classDef c.cls) parent x.1 p.now
        obtain ⟨ch, made⟩ : ∃ ch, ch = childOf (p.classDef c.cls) parent x.1 p.now := ⟨_, rfl⟩
        obtain ⟨id, from_, exposure, cls, zone, settled, enrolled, entry, move, progress, run, cause, dirty, bakes,
            baked,
          warned⟩ := childOf_history _ _ _ _ made
        rw [← made] at custody mode clean own
        obtain rfl : b = false := Bool.eq_false_iff.2 fun set => Bool.false_ne_true (dirty.symm.trans (clean set))
        exact ⟨_, own, id, from_.trans (by rw [sameId, holds]), exposure, cls.trans sameCls, zone.trans sameZone,
          settled,
          enrolled, entry, move, progress, run, cause, rfl, bakes, baked, warned, custody, mode⟩
      · refine clears.free i (splits.remains.trans ?_)
        rw [if_pos asked]
      · obtain ⟨b, -, own⟩ := clears.own i parent (splits.remains.trans (by rw [asked]; rfl))
        exact ⟨_, own, rfl⟩
      · refine (clears.others j ?_).trans ((others j other out).trans (commits.others j other))
        rw [List.mem_append, List.mem_singleton, not_or]
        exact ⟨out, other⟩
      · exact (congrArg Zone.members (zones c.zone)).trans members
      · refine ((zones y).trans (splits.zones y (by rw [sameZone]; exact other))).trans ?_
        rw [commits.zone, if_neg (by rw [sameZone]; exact other.symm)]
      · exact (congrArg ClassRecord.useCount (classes c.cls)).trans useCount
      · exact ((classes n).trans (splits.classes n (by rw [sameCls]; exact other))).trans (settledCls n)
      · have jnc := splits.jnc.trans commits.jnc
        obtain ⟨j, plain, queue⟩ := room ((Part.journalTakes_congr jnc).2 takes)
            (by rw [← childSlots, slotsLength]; exact few)
        show q.jnc.queue = p.jnc.queue ++ p.stagedNow (slots.filterMap q.imageAt ++
          if a.retireParent = true then [.retireEntry i a.parent] else (q.imageAt i).toList)
        have images : q.imageAt = (r.split a i parent).imageAt := by
          rw [plain]
          rfl
        rw [images, ← holds, ← sameId, plain]
        refine queue.trans ?_
        rw [jnc, Part.stagedNow_congr (splits.outside.2.2.trans commits.sameOutside.2.2)]
        rfl

end Sys2Proof.Machine

/-! ## Movements (O34, O36, O37) -/

namespace Sys2Proof.Machine

/-! ### The list and its entries -/

theorem Part.openList_eq {l : ListRecord} {d : InHand} {p : Part} (list : p.ctu.list = some l)
    (inHand : p.exi.inHand = some d) (working : d.stage = .working) (more : l.next < l.count)
    (power : p.tbu.powerFail = false) (open_ : p.jnc.closing = none) : p.openList = some l := by
  simp only [Part.openList, list, inHand, working, more, power, open_, and_self, if_true]

/-- The part once an entry of the list has been given its outcome. -/
def Part.noteOutcome (l : ListRecord) (o : MoveOutcome) (p : Part) : Part :=
  (p.hostWrite (l.outcomeAddr l.next) [BitVec.ofNat 8 o.code]).onList fun l => l.note o true

/-- R104: an entry that the list goes on from. -/
theorem Part.moveEntry_goesOn {l : ListRecord} {e : MoveEntry} {o : MoveOutcome} {p q : Part} (opened : p.openList =
    some l)
    (read : decodeMoveEntry (p.hostRead (l.entryAddr l.next) 16) = e) (handled : p.handleEntry e = (q, o))
    (more : (q.noteOutcome l o).listDone = false) : p.moveEntry false = q.noteOutcome l o := by
  simp only [Part.moveEntry, opened, read, handled, Bool.false_eq_true, if_false]
  exact if_neg (by rw [← Part.noteOutcome, more]; decide)

/-- R115: an entry that ends the list. -/
theorem Part.moveEntry_ends {l : ListRecord} {e : MoveEntry} {o : MoveOutcome} {p q : Part} (opened : p.openList =
    some l)
    (read : decodeMoveEntry (p.hostRead (l.entryAddr l.next) 16) = e) (handled : p.handleEntry e = (q, o))
    (last : (q.noteOutcome l o).listDone = true) : p.moveEntry false = (q.noteOutcome l o).endList false := by
  simp only [Part.moveEntry, opened, read, handled, Bool.false_eq_true, if_false]
  exact if_pos (by rw [← Part.noteOutcome, last])

theorem Part.noteOutcome_eq {l m : ListRecord} (o : MoveOutcome) {p : Part} (list : p.ctu.list = some m) :
    p.noteOutcome l o = { p with
      host := p.host.write hostBlank (l.outcomeAddr l.next).toNat [BitVec.ofNat 8 o.code]
      ctu := { p.ctu with list := some (m.note o true) } } := by
  simp only [Part.noteOutcome, Part.hostWrite, Part.onList, list, Option.map_some]

theorem ListRecord.note_idle {o : MoveOutcome} (l : ListRecord) (applied : o ≠ .applied) (clamped : o ≠ .clamped) :
    l.note o true = { l with next := l.next + 1, handled := l.handled + 1 } := by
  simp only [ListRecord.note, applied, clamped, or_self, if_false, Bool.toNat_true]

theorem Part.listDone_eq {l : ListRecord} {p : Part} (list : p.ctu.list = some l) :
    p.listDone = decide (l.count ≤ l.next) := by
  simp only [Part.listDone, list]

theorem exec_moveEntry {s : State} {stores : Stores} (on : s.part.tbu.mainPower = true) :
    exec (.moveEntry stores) s = .next (s.withPart ((s.part.hostStores stores).moveEntry false)) :=
  exec_of_powered (f := fun p => (p.hostStores stores).moveEntry false) rfl on rfl

/-! ### Entries without effect -/

theorem Part.targetZone_eq {n : Nat} {z : Fin 64} {p : Part} (number : z.val = n)
    (used : (p.zone z).config.kind ≠ .unused) :
    p.targetZone n = some z := by
  rw [Part.targetZone, finOf?_eq_some.2 number, Option.filter_some, if_pos (bne_iff_ne.2 used)]

theorem Part.targetZone_none {n : Nat} {p : Part} (unused : ∀ z : Fin 64, z.val = n →
    (p.zone z).config.kind = .unused) :
    p.targetZone n = none := by
  unfold Part.targetZone
  cases number : finOf? 64 n with
  | none => rfl
  | some z => simp [unused z (finOf?_eq_some.1 number)]

/-- The time at which a movement of `c` into `z` is applied (R105). -/
def Part.appliedAt (p : Part) (e : MoveEntry) (c : Container) (z : Fin 64) : Nat :=
  appliedTime e.time p.now p.znu.settings.backdate c.settled (p.zone c.zone).conditionTime (p.zone z).conditionTime

theorem Part.handleEntry_unknown {e : MoveEntry} {p : Part} (missing : e.id = 0 ∨ ∀ j, ¬p.holdsId j e.id) :
    p.handleEntry e = (p, .unknownId) := by
  simp only [Part.handleEntry, Part.lookup_none missing]

theorem Part.handleEntry_badZone {e : MoveEntry} {i : Fin 2048} {c : Container} {p : Part}
    (found : p.lookup e.id = some (i, c)) (unused : ∀ z : Fin 64, z.val = e.zone → (p.zone z).config.kind = .unused) :
    p.handleEntry e = (p, .badZone) := by
  simp only [Part.handleEntry, found, Part.targetZone_none unused]

/-- Steps 3 to 8 of R104, for an entry whose container and zone are found. -/
theorem Part.handleEntry_eq {e : MoveEntry} {i : Fin 2048} {c : Container} {z : Fin 64} {p : Part}
    (found : p.lookup e.id = some (i, c)) (number : z.val = e.zone) (used : (p.zone z).config.kind ≠ .unused) :
    p.handleEntry e = if e.resealFlag ∧ (e.unsealFlag ∨ (p.zone z).config.kind = .line) then (p, .badFlags)
      else if isRepeat c z (p.appliedAt e c z) p.znu.settings.repeatWindow then (p, .repeated)
      else p.moveTo i z e (p.appliedAt e c z) := by
  simp only [Part.handleEntry, found, Part.targetZone_eq number used]
  rfl

/-- Settles O36. -/
theorem moveEntryWithoutEffectWritesOutcome : Obligations.MoveEntryWithoutEffectWritesOutcome := by
  intro s stores l d on p e goesOn list inHand working more power open_
  have opened := Part.openList_eq list inHand working (by omega) power open_
  have outcome (o : MoveOutcome) (handled : p.handleEntry e = (p, o)) (applied : o ≠ .applied)
      (clamped : o ≠ .clamped) :
      goesOn o.code := by
    have noted := Part.noteOutcome_eq (l := l) o list
    have notDone : (p.noteOutcome l o).listDone = false := by
      rw [noted, Part.listDone_eq rfl]
      exact decide_eq_false (Nat.not_le.2 more)
    refine (exec_moveEntry on).trans (next_congr ((Part.moveEntry_goesOn opened rfl handled notDone).trans ?_))
    rw [noted, l.note_idle applied clamped]
  refine ⟨fun missing => outcome .unknownId (Part.handleEntry_unknown missing) nofun nofun,
    fun i c unique named live holds => ?_⟩
  have found : p.lookup e.id = some (i, c) := Part.lookup_some named unique live holds
  refine ⟨fun unused => outcome .badZone (Part.handleEntry_badZone found unused) nofun nofun,
    fun z number used => ⟨fun reseal other => outcome .badFlags ?_ nofun nofun,
      fun plain at_ moved early window => outcome .repeated ?_ nofun nofun⟩⟩
  · rw [Part.handleEntry_eq found number used, if_pos ⟨reseal, other⟩]
  · have again : isRepeat c z (p.appliedAt e c z) p.znu.settings.repeatWindow = true := by
      simp only [isRepeat, moved, beq_self_eq_true, Bool.true_and, decide_eq_true_eq]
      change p.appliedAt e c z < _ at early
      omega
    rw [Part.handleEntry_eq found number used, if_neg (by simp [plain]), if_pos again]

/-! ### The start and the end of a list -/

/-- Outside a resync the images of slots change the journal's own record alone. -/
theorem Part.offerImages_ok (is : List (Fin 2048)) {p : Part} (ok : p.jnc.journal = .ok)
    (open_ : p.jnc.closing = none) :
    ∃ j, p.offerImages is = { p with jnc := j } := by
  have one (i : Fin 2048) {p : Part} (ok : p.jnc.journal = .ok) (open_ : p.jnc.closing = none) :
      ∃ j, p.offerDocket (.image i) = { p with jnc := j } ∧ j.journal = .ok ∧ j.closing = none := by
    unfold Part.offerDocket
    split
    · exact ⟨_, rfl, ok, open_⟩
    · dsimp only
      split
      · rw [Part.enqueue_eq (.inl (by simp [ok]))]
        obtain ⟨q, hq⟩ : ∃ q : Part, q = { p with jnc := { p.jnc with
          queue := p.jnc.queue ++ p.stamped .docket (p.offerPayloads (.image i))
          sinceMark := sinceMarkAfter (p.offerPayloads (.image i)) p.jnc.sinceMark } } := ⟨_, rfl⟩
        rw [← hq]
        have qclosing : q.jnc.closing = none := by rw [hq]; exact open_
        obtain ⟨j, pumped, -⟩ := Part.pump_open qclosing
        obtain ⟨-, -, -, journal, closes, -⟩ := Part.pump_jnc qclosing
        rw [pumped] at journal closes ⊢
        rw [hq] at journal ⊢
        exact ⟨j, rfl, journal.trans ok, closes⟩
      · exact ⟨_, rfl, ok, open_⟩
  induction is generalizing p with
  | nil => exact ⟨p.jnc, rfl⟩
  | cons i is ih =>
    obtain ⟨j, first, ok', open'⟩ := one i ok open_
    obtain ⟨j', rest⟩ := ih (p := { p with jnc := j }) ok' open'
    exact ⟨j', by rw [Part.offerImages_cons, first]; exact rest⟩

/-- R114 to R116: the images of the touched list are offered, and the docket is answered. -/
theorem Part.endList_eq {l : ListRecord} {d : InHand} {p : Part} (list : p.ctu.list = some l)
    (inHand : p.exi.inHand = some d) (open_ : p.jnc.closing = none) : p.endList false =
      { p.offerImages l.touched with exi := { p.exi with inHand := some { d with stage := .finished {
        result := if l.applied < l.count then .partialDone else .ok
        first := l.applied, second := l.clamped, value := l.handled } } } } := by
  have offered : p.offerTouched = p.offerImages l.touched := by simp only [Part.offerTouched, list]; rfl
  have clears := Part.clears_offerImages l.touched open_
  have hand : (p.offerImages l.touched).exi = p.exi := by rw [clears.eq]
  simp only [Part.endList, list, offered, Bool.false_eq_true, if_false]
  rw [Part.finishDocket_spec (by rw [hand]; exact inHand), hand]

theorem Part.moveListDocket_good {a : MoveListArgs} {d : InHand} {p : Part} (inHand : p.exi.inHand = some d)
    (good : (addrOk a.addr 16 && decide (1 ≤ a.count) && decide (a.count ≤ 256)) = true) : p.moveListDocket a = { p with
      ctu := { p.ctu with list := some { addr := a.addr, count := a.count, next := 0, handled := 0, applied := 0
                                         clamped := 0, touched := [] } }
      exi := { p.exi with inHand := some { d with stage := .working } } } := by
  simp only [Part.moveListDocket, good, if_true, Part.workDocket, inHand]
  rfl

theorem Part.moveListDocket_bad {a : MoveListArgs} {d : InHand} {p : Part} (inHand : p.exi.inHand = some d)
    (bad : (addrOk a.addr 16 && decide (1 ≤ a.count) && decide (a.count ≤ 256)) = false) :
    p.moveListDocket a = p.refusedWith d .badArg := by
  simp only [Part.moveListDocket, bad]
  exact Part.refuseDocket_spec inHand _

/-- Settles O34. -/
theorem moveListStartsAndFinishes : Obligations.MoveListStartsAndFinishes := by
  constructor
  · intro s d a on hands good
    have checked : (addrOk a.addr 16 && decide (1 ≤ a.count) && decide (a.count ≤ 256)) = true ↔ good := by
      rw [Bool.and_eq_true, Bool.and_eq_true, decide_eq_true_eq, decide_eq_true_eq, addrOk_iff, and_assoc, and_assoc]
    rw [exec_moveList on hands]
    exact ⟨fun ok => next_congr (Part.moveListDocket_good hands.1 (checked.2 ok)),
      fun bad => next_congr (Part.moveListDocket_bad hands.1 (Bool.eq_false_iff.2 (mt checked.1 bad)))⟩
  · intro s stores l d on p e list inHand working last power open_ missing
    have opened := Part.openList_eq list inHand working (by omega) power open_
    have noted := Part.noteOutcome_eq (l := l) .unknownId list
    rw [l.note_idle (o := .unknownId) nofun nofun] at noted
    obtain ⟨r, hr⟩ : ∃ r, r = p.noteOutcome l .unknownId := ⟨_, rfl⟩
    rw [← hr] at noted
    obtain ⟨m, hm⟩ : ∃ m : ListRecord, m = { l with next := l.next + 1, handled := l.handled + 1 } := ⟨_, rfl⟩
    have listed : r.ctu.list = some m := by rw [noted, hm]
    have done : r.listDone = true := by
      rw [Part.listDone_eq listed, hm]
      exact decide_eq_true (by dsimp only; omega)
    have ends := Part.moveEntry_ends opened rfl (Part.handleEntry_unknown missing) (by rw [← hr]; exact done)
    have open' : r.jnc.closing = none := by rw [noted]; exact open_
    rw [← hr, Part.endList_eq listed (d := d) (by rw [noted]; exact inHand) open'] at ends
    have clears := Part.clears_offerImages m.touched open'
    have settings : (r.offerImages m.touched).znu = p.znu ∧ (r.offerImages m.touched).prc = p.prc ∧
        (r.offerImages m.touched).dou = p.dou ∧ (r.offerImages m.touched).dlu = p.dlu ∧
        (r.offerImages m.touched).tbu = p.tbu ∧ (r.offerImages m.touched).flash = p.flash ∧
        (r.offerImages m.touched).host = p.host.write hostBlank (l.outcomeAddr l.next).toNat [3] := by
      rw [clears.eq, noted]
      exact ⟨rfl, rfl, rfl, rfl, rfl, rfl, rfl⟩
    obtain ⟨znu, prc, dou, dlu, tbu, flash, host⟩ := settings
    refine ⟨_, (exec_moveEntry on).trans (next_congr ends), ?_, host, tbu, flash, znu, fun ok => ?_, prc, dou, dlu,
      fun takes few => ?_⟩
    · rw [hm]
      rfl
    · obtain ⟨j, plain⟩ := Part.offerImages_ok m.touched (p := r) (by rw [noted]; exact ok) open'
      show (r.offerImages m.touched).ctu.slots = _
      rw [plain, noted]
    · obtain ⟨j, plain, queue, -⟩ := Part.offerImages_room (is := m.touched) (p := r)
        (Part.hasRoom_of_takes ((Part.journalTakes_congr (by rw [noted])).2 takes)) (by rw [hm]; exact few)
      show (r.offerImages m.touched).jnc.queue = _
      rw [plain, queue, noted, hm]
      rfl

end Sys2Proof.Machine

/-! ## Movements that apply (O37) -/

namespace Sys2Proof.Machine

/-! ### The transfer from zone to zone -/

/-- The part `q` is `p` with slot `i` moved from the members of `old` to the tail of those of `new`, and the counts
of the
two zones. -/
structure Part.Transfers (i : Fin 2048) (old new : Fin 64) (p q : Part) : Prop where
  eq : q = { p with exi := { p.exi with zoneMarks := q.exi.zoneMarks }, znu := { p.znu with zones := q.znu.zones }
                    dou := q.dou }
  config : ∀ y, (q.zone y).config = (p.zone y).config
  zones : ∀ y, y ≠ new → y ≠ old → q.zone y = p.zone y
  joined : (q.zone new).members =
    (if new = old then (p.zone new).members.filter (· != i) else (p.zone new).members) ++ [i]
  left : new ≠ old → (q.zone old).members = (p.zone old).members.filter (· != i)

theorem Part.zone_set (p : Part) (z y : Fin 64) (r : Zone) (e : Exi) (o : Dou) :
    Part.zone { p with exi := e, znu := { p.znu with zones := p.znu.zones.set z r }, dou := o } y =
      if z = y then r else p.zone y := Part.zone_putZone z y r p

theorem Part.transfers_transfer (i : Fin 2048) (old new : Container) (p : Part) :
    p.Transfers i old.zone new.zone (p.transfer i old new) := by
  unfold Part.transfer
  split
  · next same =>
    obtain ⟨marks, dou, moved⟩ := p.setZone_moveCounts_eq new.zone
      { p.zone new.zone with members := (p.zone new.zone).members.filter (· != i) ++ [i] } old.blocks old.countsWarned
      new.blocks new.countsWarned
    dsimp only
    rw [moved]
    refine ⟨rfl, fun y => ?_, fun y other _ => ?_, ?_, fun differs => absurd same.symm differs⟩
    · rw [Part.zone_set]
      split
      · next at_ =>
        rw [Zone.recounted_eq, at_]
      · rfl
    · rw [Part.zone_set, if_neg other.symm]
    · rw [Part.zone_set, if_pos rfl, Zone.recounted_eq, if_pos same.symm]
  · next differs =>
    obtain ⟨marks, dou, leaves⟩ := p.setZone_moveCounts_eq old.zone
      { p.zone old.zone with members := (p.zone old.zone).members.filter (· != i) } old.blocks old.countsWarned false false
    have left : p.leaveZone i old = _ := leaves
    obtain ⟨q, hq⟩ : ∃ q, q = p.leaveZone i old := ⟨_, rfl⟩
    obtain ⟨marks', dou', joins⟩ := q.setZone_moveCounts_eq new.zone
      { q.zone new.zone with members := (q.zone new.zone).members ++ [i] } false false new.blocks new.countsWarned
    have joined : q.joinZone i new = _ := joins
    have zone (y : Fin 64) : q.zone y = if old.zone = y then (p.zone old.zone).left i old else p.zone y := by
      rw [hq, left]
      exact Part.zone_set ..
    rw [← hq, joined]
    refine ⟨?_, fun y => ?_, fun y notNew notOld => ?_, ?_, fun _ => ?_⟩
    · rw [hq, left]
    · have stands : (q.zone y).config = (p.zone y).config := by
        rw [zone]
        split
        · next at_ =>
          rw [Zone.left, Zone.recounted_eq, at_]
        · rfl
      rw [Part.zone_set]
      split
      · next at_ =>
        rw [Zone.recounted_eq, at_]
        exact stands
      · exact stands
    · rw [Part.zone_set, if_neg notNew.symm, zone, if_neg notOld.symm]
    · rw [Part.zone_set, if_pos rfl, Zone.recounted_eq, if_neg (Ne.symm differs), zone, if_neg differs]
    · rw [Part.zone_set, if_neg (Ne.symm differs), zone, if_pos rfl]
      exact ((p.zone old.zone).left_spec i old).2.2

/-! ### Applying a movement -/

/-- The record with which a container enters the zone `z`, its bake abandoned and the flags applied (R109 to R112). -/
def Container.entering (k : ClassDef) (kind : ZoneKind) (z : Fin 64) (unsealFlag resealFlag : Bool) (t : Nat)
    (c : Container) : Container :=
  ((c.abandonBake k).applyFlags unsealFlag resealFlag kind).enter z t

/-- The part `q` is `p` with the container of slot `i`, whose record was `c`, moved into the zone `z`. -/
structure Part.Moves (i : Fin 2048) (z : Fin 64) (c final : Container) (p q : Part) : Prop where
  eq : q = { p with
    exi := { p.exi with headerMark := q.exi.headerMark, zoneMarks := q.exi.zoneMarks, slotMarks := q.exi.slotMarks
                        rise := q.exi.rise, cause := q.exi.cause, messages := q.exi.messages }
    ctu := (p.setSlot i (some final)).ctu
    znu := { p.znu with zones := q.znu.zones }, dou := q.dou, dlu := q.dlu }
  posted : i ∈ q.exi.slotMarks
  config : ∀ y, (q.zone y).config = (p.zone y).config
  zones : ∀ y, y ≠ z → y ≠ c.zone → q.zone y = p.zone y
  joined : (q.zone z).members =
    (if z = c.zone then (p.zone z).members.filter (· != i) else (p.zone z).members) ++ [i]
  left : z ≠ c.zone → (q.zone c.zone).members = (p.zone c.zone).members.filter (· != i)

theorem Part.moves_applyMove (i : Fin 2048) (z : Fin 64) (unsealFlag resealFlag : Bool) (t : Nat) (c : Container)
    (p : Part) :
    let k := p.classDef c.cls
    let kind := (p.zone z).config.kind
    ∃ r final, final = (Part.deriveRecord false ((c.entering k kind z unsealFlag resealFlag t).startBake k kind) r).1 ∧
      p.Moves i z c final (p.applyMove i z unsealFlag resealFlag t c) := by
  intro k kind
  obtain ⟨entered, hentered⟩ : ∃ x, x = c.entering k kind z unsealFlag resealFlag t := ⟨_, rfl⟩
  have zone : entered.zone = z := by rw [hentered]; rfl
  have transfers := p.transfers_transfer i c entered
  obtain ⟨r, hr⟩ : ∃ r, r = p.transfer i c entered := ⟨_, rfl⟩
  rw [← hr, zone] at transfers
  obtain ⟨final, hfinal⟩ : ∃ x, x = (r.deriveRecord false (entered.startBake k kind)).1 := ⟨_, rfl⟩
  obtain ⟨d, placed, -⟩ := (r.setSlot i (some final)).placeDue_eq i final
  obtain ⟨marks, dou, moved⟩ := ((r.setSlot i (some final)).placeDue i final).moveCounts_eq z entered.blocks
    entered.countsWarned final.blocks final.countsWarned
  obtain ⟨q, hq⟩ : ∃ q, q = ((r.setSlot i (some final)).placeDue i final).moveCounts z entered.blocks entered.countsWarned
    final.blocks final.countsWarned := ⟨_, rfl⟩
  obtain ⟨rise, cause, messages, reported, -⟩ := q.reportLevel_eq c.level final.level
  have applied : p.applyMove i z unsealFlag resealFlag t c = (q.reportLevel c.level final.level).postSlot i := by
    rw [hq, hfinal, hr, hentered]
    rfl
  rw [← hq, placed] at moved
  refine ⟨r, final, by rw [hfinal, hentered], ?_⟩
  have zones (y : Fin 64) : ((q.reportLevel c.level final.level).postSlot i).zone y = q.zone y := by
    rw [reported]
    rfl
  have recounts (y : Fin 64) : q.zone y = if z = y then
      (r.zone z).recounted entered.blocks entered.countsWarned final.blocks final.countsWarned else r.zone y := by
    rw [moved]
    exact Part.zone_set ..
  rw [applied]
  refine ⟨?_, ?_, fun y => ?_, fun y notNew notOld => ?_, ?_, fun differs => ?_⟩
  · rw [reported, moved, transfers.eq]
    rfl
  · rw [reported]
    exact mem_insertFin.2 (.inl rfl)
  · rw [zones, recounts]
    split
    · next at_ =>
      rw [Zone.recounted_eq, at_]
      exact transfers.config y
    · exact transfers.config y
  · rw [zones, recounts, if_neg notNew.symm]
    exact transfers.zones y notNew notOld
  · rw [zones, recounts, if_pos rfl, Zone.recounted_eq]
    exact transfers.joined
  · rw [zones, recounts, if_neg differs]
    exact transfers.left differs

/-! ### The record of a container that moves -/

/-- R111, R126: the custody that leaving gives. -/
theorem Container.abandonBake_custody (k : ClassDef) (c : Container) : (c.abandonBake k).custody =
    if c.custody = .baking then (if k.limit ≤ c.exposure then .expired else .opened) else c.custody := by
  unfold Container.abandonBake limitRule
  split
  · by_cases limit : k.limit ≤ c.exposure
    · rw [if_pos ⟨.inr rfl, limit⟩, if_pos limit]
      rfl
    · rw [if_neg fun h => limit h.2, if_neg limit]
  · rfl

theorem Container.abandonBake_eq (k : ClassDef) (c : Container) : c.abandonBake k = { c with
    custody := (c.abandonBake k).custody, mode := (c.abandonBake k).mode, bakeProgress := (c.abandonBake k).bakeProgress
    bakeRunStart := (c.abandonBake k).bakeRunStart } := by
  unfold Container.abandonBake
  split
  · rw [limitRule_eq]
  · rfl

theorem Container.abandonBake_progress {k : ClassDef} {c : Container} (baking : c.custody = .baking) :
    (c.abandonBake k).bakeProgress = none := by
  rw [Container.abandonBake, if_pos baking, limitRule_eq]

/-- R109, R110: the custody that the flags and the zone give. -/
theorem Container.applyFlags_eq (u r : Bool) (kind : ZoneKind) (c : Container) : c.applyFlags u r kind = { c with
    custody := if r = true ∧ c.custody = .opened then .sealed
      else if (u = true ∨ kind = .line) ∧ c.custody = .sealed then .opened else c.custody } := by
  unfold Container.applyFlags
  split
  · rfl
  · split <;> rfl

theorem Container.startBake_eq (k : ClassDef) (kind : ZoneKind) (c : Container) : c.startBake k kind = { c with
    custody := (c.startBake k kind).custody, mode := (c.startBake k kind).mode
    bakeProgress := (c.startBake k kind).bakeProgress, quarantineCause := (c.startBake k kind).quarantineCause } := by
  unfold Container.startBake
  split
  · split <;> rfl
  · rfl

/-- R109 to R113, R119: the record of a container that moves, from the record it leaves with. -/
theorem movedRecord {k : ClassDef} {kind : ZoneKind} {z : Fin 64} {u r : Bool} {t : Nat} {c final : Container} {q : Part}
    (made : final = (q.deriveRecord false ((c.entering k kind z u r t).startBake k kind)).1) :
    let left := if c.custody = .baking then (if k.limit ≤ c.exposure then Custody.expired else .opened) else c.custody
    let flagged := if r = true ∧ left = .opened then Custody.sealed
      else if (u = true ∨ kind = .line) ∧ left = .sealed then .opened else left
    let bakes : Prop := kind = .oven ∧ (flagged = .opened ∨ flagged = .expired)
    (final.id = c.id ∧ final.cls = c.cls ∧ final.zone = z ∧ final.zoneEntry = t ∧ final.lastMove = some (z, t) ∧
      final.settled = c.settled ∧ final.exposure = c.exposure ∧ final.bakeCount = c.bakeCount ∧
      final.bakedThisStay = false) ∧
    (¬bakes → final.custody = flagged ∧ (c.custody = .baking → final.bakeProgress = none)) ∧
    (bakes → c.bakeCount < k.maxBakes → final.custody = .baking ∧ final.bakeProgress = some 0) ∧
    (bakes → k.maxBakes ≤ c.bakeCount → final.custody = .quarantined ∧ final.quarantineCause = some .bakeLimit) := by
  intro left flagged bakes
  obtain ⟨entered, hentered⟩ : ∃ x, x = c.entering k kind z u r t := ⟨_, rfl⟩
  have enters : entered = { c with
      custody := flagged, mode := entered.mode, bakeProgress := entered.bakeProgress, bakeRunStart :=
        entered.bakeRunStart
      zone := z, zoneEntry := t, lastMove := some (z, t), bakedThisStay := false } := by
    rw [hentered, Container.entering, Container.applyFlags_eq, Container.abandonBake_custody, Container.abandonBake_eq]
    rfl
  have custody : entered.custody = flagged := by rw [enters]
  have progress (baking : c.custody = .baking) : entered.bakeProgress = none := by
    rw [hentered, Container.entering, Container.applyFlags_eq]
    exact Container.abandonBake_progress baking
  rw [← hentered, Part.deriveRecord_eq] at made
  refine ⟨?_, fun still => ?_, fun starts few => ?_, fun starts many => ?_⟩
  · rw [made, Container.startBake_eq, enters]
    exact ⟨rfl, rfl, rfl, rfl, rfl, rfl, rfl, rfl, rfl⟩
  · have same : entered.startBake k kind = entered := by
      rw [Container.startBake, custody, if_neg still]
    rw [made, same]
    exact ⟨custody, progress⟩
  · have begins : entered.startBake k kind = { entered with custody := .baking, mode := .hold, bakeProgress := some 0 } := by
      rw [Container.startBake, custody, if_pos starts, if_pos (by rw [enters]; exact few)]
    rw [made, begins]
    exact ⟨rfl, rfl⟩
  · have refused : entered.startBake k kind = { entered with
        custody := .quarantined, quarantineCause := some .bakeLimit } := by
      rw [Container.startBake, custody, if_pos starts, if_neg (by rw [enters]; exact Nat.not_lt.2 many)]
    rw [made, refused]
    exact ⟨rfl, rfl⟩

/-! ### The handling of an entry that applies -/

/-- A settle where the container stands and then a movement are one movement. -/
theorem Part.Commits.moves {i : Fin 2048} {z : Fin 64} {c d final : Container} {p q r : Part} (h : p.Commits i c d q)
    (stays : d.zone = c.zone) (m : q.Moves i z d final r) : p.Moves i z c final r := by
  have members (y : Fin 64) : (q.zone y).members = (p.zone y).members := by rw [h.zone_eq]
  refine ⟨?_, m.posted, fun y => (m.config y).trans (h.sameConfig.1 y), fun y notNew notOld => ?_, ?_,
    fun differs => ?_⟩
  · refine m.eq.trans ?_
    rw [h.eq]
    simp [Part.setSlot]
  · rw [m.zones y notNew (by rw [stays]; exact notOld), h.zone, if_neg (by rw [stays]; exact notOld.symm)]
  · rw [m.joined, stays, members]
  · rw [← stays, m.left (by rw [stays]; exact differs), members]

/-- Steps 6 and 7 of R104: RESEAL of a container that is not OPEN then. -/
theorem Part.moveTo_refuses {i : Fin 2048} {z : Fin 64} {c : Container} {e : MoveEntry} {t : Nat} {p : Part}
    (live : p.slot i = some c) (still : (p.zone c.zone).change = none) :
    let derived := (p.deriveRecord true (settleRecord (p.classDef c.cls) t c).1).1
    refusesReseal (p.classDef c.cls) e derived = true →
    ∃ (q : Part) (img : Bool), p.moveTo i z e t = (if img = true then q.touch i else q, .badFlags) ∧
      p.Commits i c derived q := by
  intro derived refuses
  obtain ⟨q, settles, commits⟩ := Part.settleSlot_commits live still t
  have cls : derived.cls = c.cls := by
    show (p.deriveRecord true _).1.cls = _
    rw [Part.deriveRecord_eq, settleRecord_frame]
  refine ⟨q, (settleRecord (p.classDef c.cls) t c).2 ||
    (p.deriveRecord true (settleRecord (p.classDef c.cls) t c).1).2, ?_, commits⟩
  simp only [Part.moveTo, settles, commits.own]
  exact if_pos (by rw [Part.classDef_congr commits.classes, cls]; exact refuses)

/-- Steps 6 to 8 of R104: the container is settled, and moves. -/
theorem Part.moveTo_applies {i : Fin 2048} {z : Fin 64} {c : Container} {e : MoveEntry} {t : Nat} {p : Part}
    (live : p.slot i = some c) (still : (p.zone c.zone).change = none) :
    let k := p.classDef c.cls
    let kind := (p.zone z).config.kind
    let derived := (p.deriveRecord true (settleRecord k t c).1).1
    refusesReseal k e derived = false →
    ∃ q, ∃ r : Part, ∃ final, p.moveTo i z e t = (q.touch i, if wasClamped e.time p.now t then .clamped else .applied) ∧
      p.Moves i z c final q ∧
      final = (r.deriveRecord false ((derived.entering k kind z e.unsealFlag e.resealFlag t).startBake k kind)).1 := by
  intro k kind derived accepts
  obtain ⟨q, settles, commits⟩ := Part.settleSlot_commits live still t
  have ids : derived.cls = c.cls ∧ derived.zone = c.zone := by
    show (p.deriveRecord true _).1.cls = _ ∧ (p.deriveRecord true _).1.zone = _
    rw [Part.deriveRecord_eq, settleRecord_frame]
    exact ⟨rfl, rfl⟩
  have classed : q.classDef derived.cls = k := by rw [Part.classDef_congr commits.classes, ids.1]
  obtain ⟨r, final, made, moves⟩ := q.moves_applyMove i z e.unsealFlag e.resealFlag t derived
  rw [classed, commits.sameConfig.1 z] at made
  refine ⟨_, r, final, ?_, commits.moves ids.2 moves, made⟩
  simp only [Part.moveTo, settles, commits.own]
  rw [if_neg (by rw [classed, accepts]; decide), commits.now]

/-- The list once the slot `i` is on its touched list (R114). -/
def ListRecord.touching (i : Fin 2048) (l : ListRecord) : ListRecord :=
  { l with touched := if i ∈ l.touched then l.touched else l.touched ++ [i] }

theorem Part.touch_eq {l : ListRecord} {p : Part} (i : Fin 2048) (list : p.ctu.list = some l) :
    p.touch i = { p with ctu := { p.ctu with list := some (l.touching i) } } := by
  simp only [Part.touch, list, Option.map_some, List.contains_iff_mem]
  rfl

theorem ListRecord.note_applied (l : ListRecord) (b : Bool) :
    l.note (if b then .clamped else .applied) true = { l with
      next := l.next + 1, handled := l.handled + 1, applied := l.applied + 1
      clamped := if b then l.clamped + 1 else l.clamped } := by
  cases b <;> rfl

theorem Part.Moves.slot {i : Fin 2048} {z : Fin 64} {c final : Container} {p q : Part} (h : p.Moves i z c final q)
    (j : Fin 2048) : q.slot j = if i = j then some final else p.slot j := by
  rw [h.eq]
  exact Part.slot_setSlot ..

theorem Part.Moves.list {i : Fin 2048} {z : Fin 64} {c final : Container} {p q : Part} (h : p.Moves i z c final q) :
    q.ctu.list = p.ctu.list := by rw [h.eq]; rfl

/-- What stands of the part, whatever its handling left in the list and the host's memory. -/
theorem Part.Moves.frame {i : Fin 2048} {z : Fin 64} {c final : Container} {p q : Part} (h : p.Moves i z c final q) :
    q.jnc = p.jnc ∧ q.tbu = p.tbu ∧ q.flash = p.flash ∧ q.host = p.host ∧ q.exi.inHand = p.exi.inHand := by
  rw [h.eq]
  exact ⟨rfl, rfl, rfl, rfl, rfl⟩

theorem Part.Moves.sameConfig {i : Fin 2048} {z : Fin 64} {c final : Container} {p q : Part} (h :
    p.Moves i z c final q) :
    p.sameConfig q := by
  refine ⟨h.config, ?_⟩
  rw [h.eq]
  exact ⟨rfl, rfl, rfl, rfl⟩

theorem isRepeat_eq_false {c : Container} {z : Fin 64} {t window : Nat}
    (h : ∀ at_, c.lastMove = some (z, at_) → window ≤ t - at_) : isRepeat c z t window = false := by
  unfold isRepeat
  split
  · next y at_ moved =>
    by_cases here : y = z
    · have := h at_ (by rw [moved, here])
      simp [here]
      omega
    · simp [here]
  · rfl

/-- The clamps never let the applied time lie before the settle time (R105). -/
theorem Part.appliedAt_settled (p : Part) (e : MoveEntry) (c : Container)
    (z : Fin 64) : c.settled ≤ p.appliedAt e c z := by
  unfold Part.appliedAt appliedTime
  omega

/-- The record of a movement's settle, with what its derivation leaves of it. -/
theorem Part.deriveRecord_fields (keep : Bool) (c : Container) (p : Part) :
    let derived := (p.deriveRecord keep c).1
    derived.id = c.id ∧ derived.cls = c.cls ∧ derived.zone = c.zone ∧ derived.custody = c.custody ∧
      derived.exposure = c.exposure ∧ derived.settled = c.settled ∧ derived.lastMove = c.lastMove ∧
      derived.bakeCount = c.bakeCount := by
  intro derived
  have record : derived = _ := Part.deriveRecord_eq keep c p
  rw [record]
  exact ⟨rfl, rfl, rfl, rfl, rfl, rfl, rfl, rfl⟩

/-- Settles O37. -/
theorem moveEntryMovesItsContainer : Obligations.MoveEntryMovesItsContainer := by
  intro s stores l d i c z on p e t k kind c1 left flagged bakes unclamped touched list inHand working more power open_
    unique named live holds number used still fresh flags
  have opened := Part.openList_eq list inHand working more power open_
  have handles : p.handleEntry e = p.moveTo i z e t := by
    have plain : ¬(e.resealFlag = true ∧ (e.unsealFlag = true ∨ kind = .line)) := fun ⟨reseal, other⟩ =>
      other.elim (fun h => absurd h (by rw [(flags reseal).1]; decide)) (flags reseal).2
    have first : isRepeat c z (p.appliedAt e c z) p.znu.settings.repeatWindow = false := isRepeat_eq_false fresh
    rw [Part.handleEntry_eq (Part.lookup_some named unique live holds) number used, if_neg plain, first,
      if_neg (by decide)]
    rfl
  have settledAt : c1.settled = t := settleRecord_settled _ (p.appliedAt_settled e c z)
  obtain ⟨id, cls, zone⟩ := settleRecord_ids k t c
  have lastMove : c1.lastMove = c.lastMove := by
    show (settleRecord k t c).1.lastMove = _
    rw [settleRecord_frame]
  obtain ⟨derived, derives⟩ : ∃ x, x = (p.deriveRecord true c1).1 := ⟨_, rfl⟩
  obtain ⟨dId, dCls, dZone, dCustody, dExposure, dSettled, dLastMove, dBakes⟩ := p.deriveRecord_fields true c1
  rw [← derives] at dId dCls dZone dCustody dExposure dSettled dLastMove dBakes
  have leaves : (derived.abandonBake k).custody = left := by
    rw [Container.abandonBake_custody, dCustody, dExposure]
  have applies (opens : e.resealFlag = true → left = .opened) : ∃ (q r : Part) (final : Container),
      p.handleEntry e = (q.touch i, if wasClamped e.time p.now t then .clamped else .applied) ∧ p.Moves i z c final q ∧
      final = (r.deriveRecord false ((derived.entering k kind z e.unsealFlag e.resealFlag t).startBake k kind)).1 := by
    rw [handles, derives]
    refine Part.moveTo_applies live still ?_
    rw [← derives, refusesReseal, leaves]
    cases reseal : e.resealFlag
    · rfl
    · simp [opens reseal]
  have clamps : wasClamped e.time p.now t = decide ¬unclamped := by
    rw [decide_not]
    exact congrArg Bool.not (beq_eq_decide ..)
  have outcome : BitVec.ofNat 8 (MoveOutcome.code (if wasClamped e.time p.now t then .clamped else .applied)) =
      if unclamped then 0 else 1 := by
    rw [clamps]
    by_cases h : unclamped <;> simp [h, MoveOutcome.code]
  have counted : (if wasClamped e.time p.now t = true then l.clamped + 1 else l.clamped) =
      if unclamped then l.clamped else l.clamped + 1 := by
    rw [clamps]
    by_cases h : unclamped <;> simp [h]
  have record (opens : e.resealFlag = true → left = .opened) {r : Part} {final : Container}
      (made : final = (r.deriveRecord false
        ((derived.entering k kind z e.unsealFlag e.resealFlag t).startBake k kind)).1) :
      (final.id = c.id ∧ final.cls = c.cls ∧ final.zone = z ∧ final.zoneEntry = t ∧ final.lastMove = some (z, t) ∧
        final.settled = t ∧ final.exposure = c1.exposure ∧ final.bakeCount = c1.bakeCount ∧
        final.bakedThisStay = false) ∧
      (¬bakes → final.custody = flagged ∧ (c1.custody = .baking → final.bakeProgress = none)) ∧
      (bakes → c1.bakeCount < k.maxBakes → final.custody = .baking ∧ final.bakeProgress = some 0) ∧
      (bakes → k.maxBakes ≤ c1.bakeCount → final.custody = .quarantined ∧ final.quarantineCause = some .bakeLimit) := by
    have facts := movedRecord made
    rw [dId, dCls, dSettled, dExposure, dBakes, dCustody, id, cls, settledAt] at facts
    have same : (if e.resealFlag = true ∧ left = .opened then Custody.sealed
        else if (e.unsealFlag = true ∨ kind = .line) ∧ left = .sealed then .opened else left) = flagged :=
      if_congr ⟨fun h => h.1, fun h => ⟨h, opens h⟩⟩ rfl rfl
    dsimp only at facts
    rw [same] at facts
    exact facts
  refine ⟨fun goesOn reseal stuck => ?_, fun goesOn opens => ?_, fun last opens => ?_⟩
  · have refuses : refusesReseal k e (p.deriveRecord true c1).1 = true := by
      rw [← derives, refusesReseal, leaves, reseal]
      simpa using stuck
    obtain ⟨q, img, moved, commits⟩ := Part.moveTo_refuses live still refuses
    obtain ⟨m, moved', touched, hm⟩ : ∃ m, (if img = true then q.touch i else q) =
        { q with ctu := { q.ctu with list := some m } } ∧
        ∃ touched, m = { l with touched := touched } := by
      have listed : q.ctu.list = some l := commits.list.trans list
      by_cases touches : img = true
      · exact ⟨l.touching i, by rw [if_pos touches, Part.touch_eq i listed], _, rfl⟩
      · exact ⟨l, by rw [if_neg touches, ← listed], _, rfl⟩
    rw [moved'] at moved
    have noted := Part.noteOutcome_eq (l := l) (m := m) .badFlags (p :=
        { q with ctu := { q.ctu with list := some m } }) rfl
    rw [m.note_idle (o := .badFlags) nofun nofun, hm] at noted
    have goes := Part.moveEntry_goesOn opened rfl (handles.trans moved) (by
      rw [hm, noted, Part.listDone_eq rfl]
      exact decide_eq_false (Nat.not_le.2 goesOn))
    rw [hm, noted] at goes
    have host : q.host = p.host := commits.sameOutside.1
    refine ⟨_, derived, (exec_moveEntry on).trans (next_congr goes), ?_, fun j other => commits.others j other,
      commits.sameConfig, commits.jnc, ?_, ?_,
      dId.trans id, dCls.trans cls, dZone.trans zone, dCustody, dExposure, dSettled.trans settledAt,
        dLastMove.trans lastMove,
      fun y => ?_, ⟨touched, rfl⟩, ?_⟩
    · exact commits.own.trans (by rw [derives])
    · exact commits.sameOutside.2.2
    · exact commits.sameOutside.2.1
    · exact (congrArg Zone.members (commits.zone_eq y)).trans rfl
    · rw [← host]
      rfl
  · obtain ⟨q, r, final, handled, moves, made⟩ := applies opens
    obtain ⟨⟨id', cls', zone', entry, move, settled', exposure', count, stay⟩, rest, bake, limit⟩ := record opens made
    rw [Part.touch_eq i (moves.list.trans list)] at handled
    obtain ⟨jnc, tbu, flash, host, -⟩ := moves.frame
    have noted := Part.noteOutcome_eq (l := l) (m := l.touching i)
      (if wasClamped e.time p.now t then .clamped else .applied)
      (p := { q with ctu := { q.ctu with list := some (l.touching i) } }) rfl
    rw [ListRecord.note_applied, outcome, show (l.touching i).clamped = l.clamped from rfl, counted] at noted
    have goes := Part.moveEntry_goesOn opened rfl handled (by
      rw [noted, Part.listDone_eq rfl]
      exact decide_eq_false (Nat.not_le.2 goesOn))
    rw [noted] at goes
    refine ⟨_, final, (exec_moveEntry on).trans (next_congr goes), ?_, fun j other => ?_, moves.sameConfig, jnc, tbu,
      flash,
      id', cls', zone', entry, move, settled', exposure', count, stay, moves.posted, fun h => (rest h).1,
      fun h => (rest h).2, bake, limit, moves.joined, moves.left, moves.zones, ?_, ?_⟩
    · exact (moves.slot i).trans (if_pos rfl)
    · exact (moves.slot j).trans (if_neg other.symm)
    · rfl
    · rw [← host]
  · obtain ⟨q, r, final, handled, moves, made⟩ := applies opens
    obtain ⟨⟨id', cls', zone', entry, move, settled', exposure', -⟩, rest, -⟩ := record opens made
    rw [Part.touch_eq i (moves.list.trans list)] at handled
    obtain ⟨jnc, tbu, flash, host, hand⟩ := moves.frame
    have noted := Part.noteOutcome_eq (l := l) (m := l.touching i)
      (if wasClamped e.time p.now t then .clamped else .applied)
      (p := { q with ctu := { q.ctu with list := some (l.touching i) } }) rfl
    rw [ListRecord.note_applied, outcome, show (l.touching i).clamped = l.clamped from rfl, counted] at noted
    obtain ⟨m, hm⟩ : ∃ m : ListRecord, m = { l.touching i with
      next := l.next + 1, handled := l.handled + 1, applied := l.applied + 1
      clamped := if unclamped then l.clamped else l.clamped + 1 } := ⟨_, rfl⟩
    obtain ⟨w, hw⟩ : ∃ w, w = Part.noteOutcome l (if wasClamped e.time p.now t = true then .clamped else .applied)
      { q with ctu := { q.ctu with list := some (l.touching i) } } := ⟨_, rfl⟩
    rw [← hw] at noted
    have listed : w.ctu.list = some m := by rw [noted, hm]; rfl
    have ends := Part.moveEntry_ends opened rfl handled (by
      rw [← hw, Part.listDone_eq listed, hm]
      exact decide_eq_true last.ge)
    have open' : w.jnc.closing = none := by rw [noted, ← open_, ← jnc]
    have slots (j : Fin 2048) : w.slot j = q.slot j := by rw [noted]; rfl
    rw [← hw, Part.endList_eq listed (d := d) (by rw [noted]; exact hand.trans inHand) open'] at ends
    have clears := Part.clears_offerImages m.touched open'
    obtain ⟨b, -, own⟩ := clears.own i final ((slots i).trans ((moves.slot i).trans (if_pos rfl)))
    have settings : p.sameConfig (w.offerImages m.touched) ∧ (w.offerImages m.touched).tbu = p.tbu ∧
        (w.offerImages m.touched).flash = p.flash ∧ (w.offerImages m.touched).host =
          p.host.write hostBlank (l.outcomeAddr l.next).toNat [if unclamped then 0 else 1] := by
      rw [clears.eq, noted, ← host]
      exact ⟨moves.sameConfig, tbu, flash, rfl⟩
    obtain ⟨config, tbu', flash', host'⟩ := settings
    refine ⟨_, { final with dirty := b }, (exec_moveEntry on).trans (next_congr ends), own, config, tbu', flash', id',
      zone',
      entry, move, settled', exposure', fun h => (rest h).1, ?_, host', fun ok j other => ?_, fun takes few => ?_, ?_⟩
    · show i ∈ w.exi.slotMarks
      rw [noted]
      exact moves.posted
    · obtain ⟨j', plain⟩ := Part.offerImages_ok m.touched (p := w) (by rw [noted]; exact jnc ▸ ok) open'
      show (w.offerImages m.touched).slot j = _
      rw [plain]
      exact (slots j).trans ((moves.slot j).trans (if_neg other.symm))
    · have room := Part.hasRoom_of_takes (p := w) ((Part.journalTakes_congr (by rw [noted]; exact jnc)).2 takes)
      obtain ⟨j', plain, queue, -⟩ := Part.offerImages_room (is := m.touched) room (by rw [hm]; exact few)
      have stands : w.jnc = p.jnc ∧ w.tbu = p.tbu := by rw [noted]; exact ⟨jnc, tbu⟩
      have fields : m.touched = touched := by rw [hm]; rfl
      show (w.offerImages m.touched).jnc.queue = _ ++ p.stagedNow (touched.filterMap (w.offerImages m.touched).imageAt)
      rw [plain, queue, stands.1, Part.stagedNow_congr stands.2, fields]
      rfl
    · show some _ = some _
      rw [hm]
      rfl

end Sys2Proof.Machine

/-! ## SET_PROBE (O41) -/

namespace Sys2Proof.Machine

/-! ### Leaving a bus queue -/

/-- A bus that the probe `n` has left (R77 step 1). -/
def ProbeBus.unqueued (n : Fin 32) (r : ProbeBus) : ProbeBus :=
  if r.attempts n then { r with queue := r.queue.filter (· != n), poll := r.poll.map fun w => { w with discarded := true } }
  else if r.poll.any fun w => w.probe == n && !w.discarded then
    { r with queue := r.queue.filter (· != n), poll := none, phase := .idle }
  else { r with queue := r.queue.filter (· != n) }

theorem ProbeBus.unqueued_queue (n : Fin 32) (r : ProbeBus) : (r.unqueued n).queue = r.queue.filter (· != n) := by
  unfold ProbeBus.unqueued
  split
  · rfl
  · split <;> rfl

theorem Part.unqueueOn_eq (b : Bus) (n : Fin 32) (p : Part) : p.unqueueOn b n = p.setBus b ((p.bus b).unqueued n) := by
  unfold Part.unqueueOn ProbeBus.unqueued ProbeBus.attempts
  cases polls : (p.bus b).poll with
  | none => simp [polls]
  | some w =>
    by_cases own : w.probe = n ∧ w.discarded = false
    · cases under : (p.bus b).phase.underWay <;> simp [own, under, polls, Part.idleBus, Part.setBus_setBus]
    · have other : (w.probe == n && !w.discarded) = false := by simpa using own
      simp only [polls]
      rw [if_neg own]
      simp [other]

theorem ProbeBus.attempts_iff {n : Fin 32} {r : ProbeBus} : r.attempts n = true ↔
    ∃ w, r.poll = some w ∧ w.probe = n ∧ w.discarded = false ∧
      ((∃ ms, r.phase = .awaitFree ms) ∨ (∃ ms, r.phase = .converting ms) ∨ r.phase = .reading) := by
  have underWay (ph : BusPhase) : ph.underWay = true ↔
      (∃ ms, ph = .awaitFree ms) ∨ (∃ ms, ph = .converting ms) ∨ ph = .reading := by
    cases ph <;> simp [BusPhase.underWay]
  unfold ProbeBus.attempts
  cases r.poll with
  | none => simp
  | some w => simp [underWay, and_assoc]

/-! ### What releasing a group and serving a bus leave -/

theorem Part.releaseGroup_eq (g : Option (Fin 4)) (p : Part) :
    ∃ groups, p.releaseGroup g = { p with prc := { p.prc with groups := groups } } := by
  unfold Part.releaseGroup
  split
  · split
    · exact ⟨_, rfl⟩
    · exact ⟨p.prc.groups, rfl⟩
  · exact ⟨p.prc.groups, rfl⟩

theorem Part.releaseGroup_off {g : Fin 4} {p : Part} (cycled : (p.group g).cycled = true)
    (empty : p.groupQueued g = false) :
    p.releaseGroup (some g) = p.setGroup g { p.group g with on := false, ready := 0 } :=
  if_pos (by simp [cycled, empty])

theorem Part.beginPoll_eq (b : Bus) (n : Fin 32) (c : ProbeConfig) (p : Part) : ∃ poll phase groups,
    p.beginPoll b n c =
      Part.setBus b { p.bus b with poll := poll, phase := phase } { p with prc := { p.prc with groups := groups } } ∧
    ∀ g, c.group ≠ some g → groups[g] = p.group g := by
  unfold Part.beginPoll
  cases grouped : c.group with
  | none => exact ⟨_, _, p.prc.groups, rfl, fun _ _ => rfl⟩
  | some g =>
    dsimp only
    split
    · refine ⟨_, _, p.prc.groups.set g (p.group g).switchOn, by rw [Part.bus_setGroup]; rfl, fun h other => ?_⟩
      exact (Part.group_setGroup ..).trans (if_neg fun same => other (congrArg some same))
    · exact ⟨_, _, p.prc.groups, rfl, fun _ _ => rfl⟩

/-- R79: serving a bus leaves the queues, and each group of which no probe is queued. -/
theorem Part.serveBus_eq (b : Bus) (p : Part) : ∃ poll phase groups,
    p.serveBus b = Part.setBus b { p.bus b with poll := poll, phase := phase } { p with prc := { p.prc with groups := groups } } ∧
    ∀ g, p.groupQueued g = false → groups[g] = p.group g := by
  have idle : ∃ poll phase groups,
      p = Part.setBus b { p.bus b with poll := poll, phase := phase } { p with prc := { p.prc with groups := groups } } ∧
      ∀ g, p.groupQueued g = false → groups[g] = p.group g :=
    ⟨(p.bus b).poll, (p.bus b).phase, p.prc.groups, by cases b <;> rfl, fun _ _ => rfl⟩
  unfold Part.serveBus
  split
  · next n rest free head =>
    split
    · next c configured =>
      obtain ⟨poll, phase, groups, begins, keeps⟩ := p.beginPoll_eq b n c
      refine ⟨poll, phase, groups, begins, fun g unqueued => keeps g fun grouped => ?_⟩
      have listed : n ∈ p.prc.busA.queue ++ p.prc.busB.queue := by
        cases b
        · exact List.mem_append_left _ (by rw [show p.prc.busA.queue = n :: rest from head]; exact List.mem_cons_self)
        · exact List.mem_append_right _ (by rw [show p.prc.busB.queue = n :: rest from head]; exact List.mem_cons_self)
      have queued : p.groupQueued g = true := List.any_eq_true.2 ⟨n, listed, by simp [configured, grouped]⟩
      rw [queued] at unqueued
      cases unqueued
    · exact idle
  · exact idle

/-! ### A probe out of its queue -/

theorem Part.groupQueued_congr {p q : Part} {g : Fin 4} (a : q.prc.busA.queue = p.prc.busA.queue)
    (b : q.prc.busB.queue = p.prc.busB.queue)
    (configs : ∀ n, n ∈ p.prc.busA.queue ++ p.prc.busB.queue → (q.probe n).config = (p.probe n).config) :
    q.groupQueued g = p.groupQueued g := by
  unfold Part.groupQueued
  rw [a, b, Bool.eq_iff_iff, List.any_eq_true, List.any_eq_true]
  refine exists_congr fun n => and_congr_right fun listed => ?_
  rw [configs n listed]

/-- The part `q` is `p` with the probe `n`, of configuration `c`, out of the bus queues (R77 step 1). -/
structure Part.Unqueues (n : Fin 32) (c : ProbeConfig) (p q : Part) : Prop where
  eq : q = { p with prc := { p.prc with busA := q.prc.busA, busB := q.prc.busB, groups := q.prc.groups } }
  queue : ∀ b, (q.bus b).queue = (p.bus b).queue.filter (· != n)
  attempts : (p.bus c.bus).attempts n = true → q.prc.groups = p.prc.groups ∧ (q.bus c.bus).phase = (p.bus c.bus).phase ∧
    (q.bus c.bus).poll = (p.bus c.bus).poll.map fun w => { w with discarded := true }
  released : (p.bus c.bus).attempts n = false → ∀ g, c.group = some g → (p.group g).cycled = true →
    q.groupQueued g = false → (q.group g).on = false

theorem Part.unqueue_spec {n : Fin 32} {c : ProbeConfig} {p : Part} (queued : p.queued n = true)
    (configured : (p.probe n).config = some c) : p.Unqueues n c (p.unqueue n) := by
  obtain ⟨q, hq⟩ : ∃ q, q = (p.unqueueOn .busA n).unqueueOn .busB n := ⟨_, rfl⟩
  have left : q = { p with prc := { p.prc with busA := p.prc.busA.unqueued n, busB := p.prc.busB.unqueued n } } := by
    rw [hq, Part.unqueueOn_eq, Part.unqueueOn_eq]
    rfl
  have bus (b : Bus) : q.bus b = (p.bus b).unqueued n := by rw [left]; cases b <;> rfl
  have leaves : p.unqueue n =
      if (p.bus c.bus).attempts n then q else (q.releaseGroup c.group).serveBus c.bus := by
    rw [Part.unqueue, if_pos queued, configured, hq]
  cases attempts : (p.bus c.bus).attempts n with
  | true =>
    rw [leaves, if_pos attempts]
    refine ⟨by rw [left], fun b => by rw [bus, ProbeBus.unqueued_queue], fun _ => ?_,
      fun idle => absurd (attempts.symm.trans idle) (by decide)⟩
    rw [bus, ProbeBus.unqueued, if_pos attempts, left]
    exact ⟨rfl, rfl, rfl⟩
  | false =>
    obtain ⟨groups, releases⟩ := q.releaseGroup_eq c.group
    obtain ⟨r, hr⟩ : ∃ r, r = q.releaseGroup c.group := ⟨_, rfl⟩
    rw [← hr] at releases
    obtain ⟨poll, phase, groups', serves, keeps⟩ := r.serveBus_eq c.bus
    obtain ⟨w, hw⟩ : ∃ w, w = r.serveBus c.bus := ⟨_, rfl⟩
    have queues (b : Bus) : (w.bus b).queue = (q.bus b).queue := by
      rw [hw, serves, releases]
      cases b <;> cases c.bus <;> rfl
    rw [leaves, if_neg (by rw [attempts]; decide), ← hr, ← hw]
    refine ⟨?_, fun b => by rw [queues, bus, ProbeBus.unqueued_queue],
      fun under => absurd (attempts.symm.trans under) (by decide), fun _ g grouped cycled empty => ?_⟩
    · rw [hw, serves, releases, left]
      cases c.bus <;> rfl
    · have probes (m : Fin 32) : w.probe m = q.probe m := by
        rw [hw, serves, releases]
        cases c.bus <;> rfl
      have waits : q.groupQueued g = false :=
        (Part.groupQueued_congr (queues .busA) (queues .busB) fun m _ => congrArg Probe.config (probes m)).symm.trans empty
      have off : (r.group g).on = false := by
        rw [hr, grouped, Part.releaseGroup_off (by rw [left]; exact cycled) waits, Part.group_setGroup, if_pos rfl]
      have kept : w.group g = groups'[g] := by
        rw [hw, serves]
        cases c.bus <;> rfl
      rw [kept, keeps g (by rw [releases]; exact waits), off]

/-! ### The report of a probe that is lost -/

theorem Part.probeLost_accounted (n : Fin 32) (reach : Reach) {p : Part} (open_ : p.jnc.closing = none) :
    (p.setProbe n { p.probe n with staleReported := true }).accounted (p.probeLost n reach) := by
  cases said : (p.probe n).staleReported with
  | false => exact (Part.probeLost_spec open_ said).1
  | true =>
    have silent : p.probeLost n reach = p := if_pos said
    have told : { p.probe n with staleReported := true } = p.probe n := by rw [← said]
    have same : p.setProbe n { p.probe n with staleReported := true } = p := by
      rw [told]
      simp [Part.setProbe, Part.probe]
    rw [silent, same]
    exact p.accounted_refl

/-! ### The checks of SET_PROBE -/

theorem decodeBus_eq_some {n : Nat} {b : Bus} : decodeBus n = some b ↔ (n = 0 ∧ b = .busA) ∨ (n = 1 ∧ b = .busB) := by
  unfold decodeBus
  split
  · simp [eq_comm]
  · simp [eq_comm]
  · next notA notB => exact ⟨nofun, fun h => h.elim (fun x => (notA x.1).elim) fun x => (notB x.1).elim⟩

theorem optField_eq_some {m n : Nat} {x : Option (Fin m)} (few : m ≤ 255) : optField m n = some x ↔
    (n = 255 ∧ x = none) ∨ ∃ i : Fin m, i.val = n ∧ x = some i := by
  unfold optField
  split
  · next marks =>
    subst marks
    simp only [Option.some.injEq, true_and]
    exact ⟨fun h => .inl h.symm, fun h => h.elim Eq.symm fun ⟨i, at_, _⟩ => absurd at_ (by omega)⟩
  · next number =>
    simp only [Option.map_eq_some_iff, finOf?_eq_some, number, false_and, false_or]
    exact exists_congr fun i => and_congr_right fun _ => eq_comm

theorem ProbeArgs.config_eq_some {a : ProbeArgs} {c : ProbeConfig} : a.config = some c ↔
    ((a.bus = 0 ∧ c.bus = .busA) ∨ (a.bus = 1 ∧ c.bus = .busB)) ∧
      ((a.group = 255 ∧ c.group = none) ∨ ∃ g : Fin 4, g.val = a.group ∧ c.group = some g) ∧
      0x08 ≤ a.address ∧ a.address ≤ 0x77 ∧ c.address = a.address ∧ 2 ≤ a.interval ∧ a.interval ≤ 3600 ∧
      c.interval = a.interval ∧ 10 ≤ a.conversion ∧ a.conversion ≤ 2550 ∧ a.conversion % 10 = 0 ∧
      c.conversion = a.conversion := by
  rw [← decodeBus_eq_some, ← optField_eq_some (by decide)]
  simp only [ProbeArgs.config, Option.bind_eq_bind, Option.bind_eq_some_iff]
  constructor
  · rintro ⟨bus, onBus, group, inGroup, made⟩
    split at made
    · next ok =>
      obtain ⟨low, high, often, rare, short, long, tens⟩ := ok
      obtain rfl := Option.some.inj made
      exact ⟨onBus, inGroup, low, high, rfl, often, rare, rfl, short, long, tens, rfl⟩
    · cases made
  · rintro ⟨onBus, inGroup, low, high, address, often, rare, interval, short, long, tens, conversion⟩
    refine ⟨_, onBus, _, inGroup, (if_pos ⟨low, high, often, rare, short, long, tens⟩).trans ?_⟩
    rw [← address, ← interval, ← conversion]

/-- The answer of a SET_PROBE that is accepted. -/
def Part.probeAnswer (p : Part) (n : Fin 32) : Answer :=
  { result := .ok, first := (p.zonesOfProbe n).length, second := 0, value := 0 }

/-- The record of a probe that an enabling SET_PROBE leaves (R77). -/
def Probe.enabled (c : ProbeConfig) (t : Nat) (r : Probe) : Probe :=
  (if r.config.any fun d => d.bus == c.bus && d.address == c.address then r.retime c t else r.startOver c t).restartTimer

/-- R77: the probe's record is written and its image offered. -/
theorem Part.applyProbe_enables {n : Fin 32} {c : ProbeConfig} {p : Part} {d : InHand} (open_ : p.jnc.closing = none)
    (inHand : p.exi.inHand = some d) (alone : p.queued n = false) : ∃ j, p.applyProbe n (some c) =
      { p.setProbe n ((p.probe n).enabled c p.now) with
        jnc := j, exi := { p.exi with inHand := some { d with stage := .finished (p.probeAnswer n) } } } ∧
      (p.journalTakes → j.queue = p.jnc.queue ++ p.stagedNow [.probeImage n (some c)]) := by
  have stays : p.unqueue n = p := if_neg (by simp [alone])
  obtain ⟨j, applied, queue⟩ := Part.offerDocket_finish (o := .part (.probe n))
    (p := p.setProbe n ((p.probe n).enabled c p.now))
      (p.probeAnswer n) open_ inHand (Part.partPayloads_plain _ (.probe n))
    (by simp [Part.offerPayloads, Part.partPayloads])
  have image : (p.setProbe n ((p.probe n).enabled c p.now)).offerPayloads (.part (.probe n)) =
      [.probeImage n (some c)] := by
    simp only [Part.offerPayloads, Part.partPayloads, Part.probe_setProbe_self, Probe.enabled, Probe.restartTimer]
    split <;> rfl
  rw [image] at queue
  refine ⟨j, ?_, queue⟩
  unfold Part.applyProbe
  rw [stays]
  exact applied

/-- R77: the probe is OFF, the zones that bind it are told once, and its image is offered. -/
theorem Part.applyProbe_disables {n : Fin 32} {p u : Part} {d : InHand} (left : p.unqueue n = u)
    (open_ : u.jnc.closing = none) (inHand : u.exi.inHand = some d) : ∃ q, p.applyProbe n none = q ∧ u.sameOutside q ∧
      q.prc = { u.prc with probes := u.prc.probes.set n { Probe.off with late := (u.probe n).late } } ∧
      ((u.probe n).staleReported = false → ∀ z, (u.zone z).config.probe = some n → (q.zone z).stale = true) ∧
      ((u.probe n).staleReported = true → q.znu.zones = u.znu.zones ∧ q.ctu = u.ctu) ∧
        q.finishes d (u.probeAnswer n) := by
  obtain ⟨v, hv⟩ : ∃ v, v = u.setProbe n { Probe.off with
    late := (u.probe n).late, staleReported := (u.probe n).staleReported } := ⟨_, rfl⟩
  have own : v.probe n = { Probe.off with late := (u.probe n).late, staleReported := (u.probe n).staleReported } := by
    rw [hv, Part.probe_setProbe_self]
  have vOpen : v.jnc.closing = none := by rw [hv]; exact open_
  have lost := Part.probeLost_accounted n none vOpen
  have silent (said : (u.probe n).staleReported = true) : v.probeLost n none = v := if_pos (by rw [own]; exact said)
  have stale (unsaid : (u.probe n).staleReported = false) := (Part.probeLost_spec (n := n) (reach := none) vOpen
    (by rw [own]; exact unsaid)).2
  obtain ⟨w, hw⟩ : ∃ w, w = v.probeLost n none := ⟨_, rfl⟩
  rw [← hw] at lost silent stale
  have told : v.setProbe n { v.probe n with staleReported := true } =
      u.setProbe n { Probe.off with late := (u.probe n).late } := by
    rw [own, hv, Part.setProbe_setProbe]
    rfl
  rw [told] at lost
  have answer : w.probeAnswer n = u.probeAnswer n := by
    have zones : w.zonesOfProbe n = u.zonesOfProbe n := by
      simp only [Part.zonesOfProbe, lost.config]
      rfl
    rw [Part.probeAnswer, zones]
    rfl
  obtain ⟨j, applied, -⟩ := Part.offerDocket_finish (o := .part (.probe n)) (p := w) (u.probeAnswer n)
    (lost.closing open_) (lost.inHand.trans inHand) (Part.partPayloads_plain w (.probe n))
    (by simp [Part.offerPayloads, Part.partPayloads])
  have folds : p.applyProbe n none = (w.offerDocket (.part (.probe n))).finishDocket (u.probeAnswer n) := by
    rw [← answer, hw, hv, ← left]
    rfl
  refine ⟨_, folds.trans applied, lost.sameOutside, lost.prc, fun unsaid z bound => ?_, fun said => ?_, rfl⟩
  · exact stale unsaid z (by rw [hv]; exact bound)
  · rw [silent said, hv]
    exact ⟨rfl, rfl⟩

/-! ### SET_PROBE -/

theorem Part.checkProbe_eq {a : ProbeArgs} {n : Fin 32} {p : Part} (number : n.val = a.probe) : p.checkProbe a =
    if a.enable = 0 then .ok (n, none) else if a.enable = 1 then
      match a.config with
      | none => .error .badArg
      | some c => check (!p.addressTaken n c) .duplicate (.ok (n, some c))
    else .error .badArg := by
  simp only [Part.checkProbe, finOf?_eq_some.2 number] <;> rfl

theorem Part.busHeld_discarded {b : Bus} {w : Poll} {g : Fin 4} {reach : Reach} {p : Part} (polls : (p.bus b).poll =
    some w)
    (dropped : w.discarded = true) (grouped : w.group = some g) (empty : (p.bus b).queue = [])
    (under : (∃ ms, (p.bus b).phase = .awaitFree ms) ∨ (∃ ms, (p.bus b).phase = .converting ms) ∨ (p.bus b).phase =
      .reading)
    (cycled : (p.group g).cycled = true) (alone : p.groupQueued g = false) : p.busHeld b reach =
      (p.setBus b { p.bus b with poll := none, phase := .idle }).setGroup g { p.group g with on := false, ready := 0 } := by
  have fails : p.busHeld b reach = p.failAttempt b .busHeld reach := by
    unfold Part.busHeld
    obtain ⟨ms, phase⟩ | ⟨ms, phase⟩ | phase := under <;> rw [phase]
  have stillAlone : (p.idleBus b).groupQueued g = false := by
    rw [← alone]
    cases b <;> exact Part.groupQueued_congr rfl rfl fun _ _ => rfl
  have released : (p.idleBus b).releaseGroup (some g) =
      (p.idleBus b).setGroup g { p.group g with on := false, ready := 0 } := by
    rw [Part.releaseGroup_off (by rw [Part.idleBus, Part.group_setBus]; exact cycled) stillAlone, Part.idleBus,
      Part.group_setBus]
  have ends : p.failAttempt b .busHeld reach = ((p.idleBus b).releaseGroup w.group).serveBus b := by
    simp only [Part.failAttempt, polls, dropped, if_true, Part.endPoll]
  have idle (q : Part) (free : (q.bus b).queue = []) : q.serveBus b = q := by
    unfold Part.serveBus
    rw [free]
    split
    · next taken => cases taken
    · rfl
  rw [fails, ends, grouped, released]
  refine idle _ ?_
  rw [Part.bus_setGroup, Part.idleBus, Part.bus_setBus_self]
  exact empty

/-- Settles O41. -/
theorem setProbeStartsRetimesOrStops : Obligations.SetProbeStartsRetimesOrStops := by
  intro s d a n on hands p r answer
  have inHand : p.exi.inHand = some d := hands.1
  have refused (x : ResultCode) (fails : p.checkProbe a = .error x) :
      exec .setProbe s = .next (s.withPart (p.refusedWith d x)) := by
    rw [exec_setProbe on hands]
    refine next_congr ?_
    unfold Part.setProbeDocket
    rw [fails]
    exact Part.refuseDocket_spec inHand x
  have applied (c : Option ProbeConfig) (passes : p.checkProbe a = .ok (n, c)) :
      exec .setProbe s = .next (s.withPart (p.applyProbe n c)) := by
    rw [exec_setProbe on hands]
    refine next_congr ?_
    unfold Part.setProbeDocket
    rw [passes]
  refine ⟨fun outside => refused _ ?_, fun c => ProbeArgs.config_eq_some,
    fun number open_ => ⟨fun c off queued configured => ?_,
    fun b w g reach polls dropped grouped empty under cycled alone => ?_, fun alone => ⟨fun bad => ?_, fun off => ?_,
      fun c enables good taken => ?_, fun c enables good free => ?_⟩⟩⟩
  · unfold Part.checkProbe
    rw [finOf?_eq_none.2 outside]
  · have passes : p.checkProbe a = .ok (n, none) := by rw [Part.checkProbe_eq number, if_pos off]
    have left := Part.unqueue_spec queued configured
    obtain ⟨u, hu⟩ : ∃ u, u = p.unqueue n := ⟨_, rfl⟩
    rw [← hu] at left
    have same : u.jnc = p.jnc ∧ u.exi = p.exi ∧ u.znu = p.znu ∧ u.prc.probes = p.prc.probes ∧ p.sameOutside u := by
      rw [left.eq]
      exact ⟨rfl, rfl, rfl, rfl, rfl, rfl, rfl⟩
    obtain ⟨jnc, exi, znu, probes, outside⟩ := same
    have probe (m : Fin 32) : u.probe m = p.probe m := congrArg (·[m]) probes
    obtain ⟨q, disables, outside', prc, -, -, finishes⟩ := Part.applyProbe_disables hu.symm
      (by rw [jnc]; exact open_) (by rw [exi]; exact inHand)
    have bus (b : Bus) : q.bus b = u.bus b := by cases b <;> rw [Part.bus, prc] <;> rfl
    have group (g : Fin 4) : q.group g = u.group g := by rw [Part.group, prc]; rfl
    intro attempts
    have under : attempts ↔ (p.bus c.bus).attempts n = true := ProbeBus.attempts_iff.symm
    refine ⟨q, (applied none passes).trans (next_congr disables), outside.trans outside', ?_, ?_, fun m other => ?_, ?_,
      fun h => ?_, fun h g grouped cycled empty => ?_⟩
    · have answers : u.probeAnswer n = answer := by
        rw [Part.probeAnswer, Part.zonesOfProbe]
        simp only [Part.zone, znu]
        rfl
      exact answers ▸ finishes
    · rw [Part.probe, prc, probe]
      exact (Part.probe_setProbe_self n _ u).trans rfl
    · rw [Part.probe, prc]
      exact (Part.probe_setProbe_of_ne other.symm _ u).trans (probe m)
    · rw [bus, left.queue]
    · obtain ⟨groups, phase, poll⟩ := left.attempts (under.1 h)
      rw [bus, prc]
      exact ⟨groups, phase, poll⟩
    · rw [group]
      refine left.released (Bool.eq_false_iff.2 (mt under.2 h)) g grouped cycled ?_
      rw [← empty]
      refine (Part.groupQueued_congr (congrArg ProbeBus.queue (bus .busA)) (congrArg ProbeBus.queue (bus .busB))
        fun m listed => ?_).symm
      have other : m ≠ n := by
        have := List.mem_append.1 listed
        rw [show u.prc.busA.queue = _ from left.queue .busA, show u.prc.busB.queue = _ from left.queue .busB] at this
        simpa using this.elim (fun h => (List.mem_filter.1 h).2) fun h => (List.mem_filter.1 h).2
      rw [Part.probe, prc]
      exact congrArg Probe.config (Part.probe_setProbe_of_ne other.symm _ u)
  · exact exec_of_powered rfl on (Part.busHeld_discarded polls dropped grouped empty under cycled alone)
  · refine refused _ ?_
    rw [Part.checkProbe_eq number]
    obtain many | ⟨enables, bad⟩ := bad
    · rw [if_neg (by omega), if_neg (by omega)]
    · rw [if_neg (by omega), if_pos enables, bad]
  · have passes : p.checkProbe a = .ok (n, none) := by rw [Part.checkProbe_eq number, if_pos off]
    have stays : p.unqueue n = p := if_neg (by simp [alone])
    obtain ⟨q, disables, outside, prc, told, said, finishes⟩ := Part.applyProbe_disables stays open_ inHand
    refine ⟨q, (applied none passes).trans (next_congr disables), outside, ?_, fun m other => ?_, ?_, ?_, ?_, told,
      said,
      finishes⟩
    · rw [Part.probe, prc]
      exact (Part.probe_setProbe_self n _ p).trans rfl
    · rw [Part.probe, prc]
      exact Part.probe_setProbe_of_ne other.symm _ p
    all_goals rw [prc]
  · refine refused _ ?_
    rw [Part.checkProbe_eq number, if_neg (by omega), if_pos enables, good]
    simp [check, taken]
  · have passes : p.checkProbe a = .ok (n, some c) := by
      rw [Part.checkProbe_eq number, if_neg (by omega), if_pos enables, good]
      simp [check, free]
    obtain ⟨j, enabled, queue⟩ := Part.applyProbe_enables (c := c) open_ inHand alone
    refine ⟨_, (applied _ passes).trans (next_congr enabled), rfl, fun m other => ?_, fun moved => ?_,
      fun o was bus address => ?_, queue⟩
    · exact Part.probe_setProbe_of_ne other.symm _ p
    · have differs : (r.config.any fun o => o.bus == c.bus && o.address == c.address) = false := by
        cases was : r.config with
        | none => rfl
        | some o => simpa using fun bus => (moved o was).resolve_left (not_not_intro bus)
      refine (Part.probe_setProbe_self ..).trans ?_
      rw [Probe.enabled, differs]
      rfl
    · have same : (r.config.any fun o => o.bus == c.bus && o.address == c.address) = true := by
        rw [was]
        simp [bus, address]
      refine (Part.probe_setProbe_self ..).trans ?_
      rw [Probe.enabled, same]
      rfl

end Sys2Proof.Machine

/-! ## Staging (O55) -/

namespace Sys2Proof.Machine

/-! ### The arbiter leaves the queue -/

/-- What the arbiter leaves of the journal's record while staging is open. -/
theorem Part.pump_keeps {p : Part} (open_ : p.jnc.closing = none) : ∃ j, p.pump = { p with jnc := j } ∧
    j.queue = p.jnc.queue ∧ j.waiting = p.jnc.waiting ∧ j.sinceMark = p.jnc.sinceMark ∧ j.dropTime = p.jnc.dropTime ∧
    j.markStaged = p.jnc.markStaged ∧ j.endStaged = p.jnc.endStaged := by
  obtain ⟨j, pumped, served⟩ := Part.pump_open open_
  rw [Jnc.served] at served
  refine ⟨j, pumped, ?_⟩
  rw [served]
  exact ⟨rfl, rfl, rfl, rfl, rfl, rfl⟩

/-- One entry enters the queue at its tail, and the port is served. -/
theorem Part.stages {owner : StagedBy} {pl : Payload} {p : Part} (open_ : p.jnc.closing = none)
    (plain : p.clearsNone [pl])
    (f : Jnc → Jnc) (closing : ∀ j, (f j).closing = j.closing) (queue : ∀ j, (f j).queue = j.queue) :
    ∃ j, ((p.enqueue owner [pl]).onJnc f).pump = { p with jnc := j } ∧
      j.queue = p.jnc.queue ++ [{ payload := pl, time := p.now, owner := owner }] ∧
      (let j' := f { p.jnc with queue := p.jnc.queue ++ p.stamped owner [pl], sinceMark := sinceMarkAfter [pl] p.jnc.sinceMark }
       j.waiting = j'.waiting ∧ j.sinceMark = j'.sinceMark ∧ j.dropTime = j'.dropTime ∧ j.markStaged = j'.markStaged ∧
         j.endStaged = j'.endStaged) := by
  rw [Part.enqueue_eq plain]
  obtain ⟨j, pumped, queued, rest⟩ := Part.pump_keeps (p := Part.onJnc f { p with jnc := { p.jnc with
    queue := p.jnc.queue ++ p.stamped owner [pl], sinceMark := sinceMarkAfter [pl] p.jnc.sinceMark } })
    ((closing _).trans open_)
  exact ⟨j, pumped, queued.trans (queue _), rest⟩

/-- An image enters the queue, and its object's mark is cleared. -/
theorem Part.stages_clearing {owner : StagedBy} {pl : Payload} {p r : Part} (clears : p.clearMark pl = r)
    (jnc : r.jnc = p.jnc) (now : r.now = p.now) (open_ : p.jnc.closing = none) :
    ∃ j, (p.enqueue owner [pl]).pump = { r with jnc := j } ∧
      j.queue = p.jnc.queue ++ [{ payload := pl, time := p.now, owner := owner }] ∧ j.dropTime = p.jnc.dropTime := by
  have enters : p.enqueue owner [pl] = r.onJnc fun j =>
      { j with queue := j.queue ++ [{ payload := pl, time := r.now, owner := owner }]
               sinceMark := sinceMarkAfter [pl] j.sinceMark } := by
    rw [← clears]
    cases pl <;> rfl
  obtain ⟨j, pumped, queue, -, -, drop, -⟩ := Part.pump_keeps (p := p.enqueue owner [pl]) (by
    rw [enters, ← open_, ← jnc]
    rfl)
  rw [enters] at pumped queue drop
  rw [← jnc, ← now]
  exact ⟨j, (congrArg _ enters).trans pumped, queue, drop⟩

/-! ### An internal entry without a place -/

/-- Mark one slot journal-dirty. -/
def Part.slotDirty (p : Part) (i : Fin 2048) : Part := match p.slot i with
  | some c => p.setSlot i (some { c with dirty := true })
  | none => p

theorem Part.slotDirty_spec (i : Fin 2048) (p : Part) :
    ∃ slots, p.slotDirty i = { p with ctu := { p.ctu with slots := slots } } ∧
      ∀ j, (p.slotDirty i).slot j = if i = j then (p.slot j).map fun c => { c with dirty := true } else p.slot j := by
  unfold Part.slotDirty
  split
  · next c live =>
    refine ⟨_, rfl, fun j => ?_⟩
    rw [Part.slot_setSlot]
    split
    · next same => rw [← same, live]; rfl
    · rfl
  · next free =>
    refine ⟨p.ctu.slots, rfl, fun j => ?_⟩
    split
    · next same => rw [← same, free]; rfl
    · rfl

theorem Part.slotsDirty_spec (is : List (Fin 2048)) (p : Part) :
    ∃ slots, is.foldl Part.slotDirty p = { p with ctu := { p.ctu with slots := slots } } ∧
      ∀ j, (is.foldl Part.slotDirty p).slot j =
        if j ∈ is then (p.slot j).map fun c => { c with dirty := true } else p.slot j := by
  induction is generalizing p with
  | nil => exact ⟨p.ctu.slots, rfl, fun j => by simp⟩
  | cons i is ih =>
    obtain ⟨slots, first, own⟩ := p.slotDirty_spec i
    obtain ⟨slots', rest, owns⟩ := ih (p.slotDirty i)
    refine ⟨slots', ?_, fun j => ?_⟩
    · rw [List.foldl_cons, rest, first]
    · rw [List.foldl_cons, owns, own]
      by_cases here : i = j
      · subst here
        by_cases again : i ∈ is
        · simp only [again, List.mem_cons, true_or, if_true, Option.map_map]
          rfl
        · simp [again]
      · simp [here, Ne.symm here]

/-- The slots that the drop of an entry marks (R164). -/
def Part.marksSlot (p : Part) (pl : Payload) (i : Fin 2048) : Prop :=
  (∃ g, pl = .containerImage g ∧ g.slot = i) ∨ ∃ z g, pl = .zoneCondition z g ∧ i ∈ (p.zone z).members

/-- The zone that the drop of an entry marks (R164). -/
def Payload.marksZone (pl : Payload) (z : Fin 64) : Prop := (∃ g, pl = .zoneImage z g) ∨ ∃ g, pl = .zoneCondition z g

theorem Part.markDirty_spec (pl : Payload) (p : Part) :
    ∃ slots zones, p.markDirty pl = { p with ctu := { p.ctu with slots := slots }, znu := { p.znu with zones := zones } } ∧
      (∀ i, (p.marksSlot pl i → (p.markDirty pl).slot i = (p.slot i).map fun c => { c with dirty := true }) ∧
        (¬p.marksSlot pl i → (p.markDirty pl).slot i = p.slot i)) ∧
      ∀ z, (pl.marksZone z → (p.markDirty pl).zone z = { p.zone z with dirty := true }) ∧
        (¬pl.marksZone z → (p.markDirty pl).zone z = p.zone z) := by
  have zone (z y : Fin 64) : (p.putZone z { p.zone z with dirty := true }).zone y =
      if z = y then { p.zone y with dirty := true } else p.zone y := by
    rw [Part.zone_putZone]
    split
    · next same => rw [same]
    · rfl
  cases pl
  case containerImage g =>
    obtain ⟨slots, eq, own⟩ := p.slotDirty_spec g.slot
    have marks : p.markDirty (.containerImage g) = p.slotDirty g.slot := rfl
    rw [marks]
    have named (i : Fin 2048) : p.marksSlot (.containerImage g) i ↔ g.slot = i := by simp [Part.marksSlot]
    refine ⟨slots, p.znu.zones, eq, fun i => ?_, fun z => by simp [Payload.marksZone, eq, Part.zone]⟩
    rw [named, own]
    exact ⟨fun h => if_pos h, fun h => if_neg h⟩
  case zoneImage z g =>
    have named (y : Fin 64) : (Payload.zoneImage z g).marksZone y ↔ z = y := by simp [Payload.marksZone]
    refine ⟨p.ctu.slots, _, rfl, fun i => by simp [Part.marksSlot, Part.markDirty], fun y => ?_⟩
    rw [named]
    exact ⟨fun h => (zone z y).trans (if_pos h), fun h => (zone z y).trans (if_neg h)⟩
  case zoneCondition z g =>
    obtain ⟨slots, eq, own⟩ := (p.putZone z { p.zone z with dirty := true }).slotsDirty_spec (p.zone z).members
    have marks : p.markDirty (.zoneCondition z g) =
      (p.zone z).members.foldl Part.slotDirty (p.putZone z { p.zone z with dirty := true }) := rfl
    have slotNamed (i : Fin 2048) : p.marksSlot (.zoneCondition z g) i ↔ i ∈ (p.zone z).members := by
      simp [Part.marksSlot]
    have zoneNamed (y : Fin 64) : (Payload.zoneCondition z g).marksZone y ↔ z = y := by simp [Payload.marksZone]
    rw [marks]
    refine ⟨slots, _, eq, fun i => ?_, fun y => ?_⟩
    · rw [slotNamed, own]
      exact ⟨fun h => if_pos h, fun h => if_neg h⟩
    · rw [zoneNamed, eq]
      exact ⟨fun h => (zone z y).trans (if_pos h), fun h => (zone z y).trans (if_neg h)⟩
  all_goals exact ⟨p.ctu.slots, p.znu.zones, rfl, fun i => by simp [Part.marksSlot, Part.markDirty],
    fun z => by simp [Payload.marksZone, Part.markDirty]⟩

/-- R164: an entry without a place is dropped. -/
theorem Part.dropEntry_spec (pl : Payload) (p : Part) :
    let q := p.dropEntry pl
    q = { p with
      jnc := { p.jnc with journal := .resync, dropTime := some (p.jnc.dropTime.getD p.now), endStaged := false }
      exi := { p.exi with headerMark := p.exi.headerMark || p.jnc.journal != .resync }
      ctu := { p.ctu with slots := q.ctu.slots }, znu := { p.znu with zones := q.znu.zones } } ∧
    (∀ i, (p.marksSlot pl i → q.slot i = (p.slot i).map fun c => { c with dirty := true }) ∧
      (¬p.marksSlot pl i → q.slot i = p.slot i)) ∧
    ∀ z, (pl.marksZone z → q.zone z = { p.zone z with dirty := true }) ∧ (¬pl.marksZone z → q.zone z = p.zone z) := by
  obtain ⟨r, hr⟩ : ∃ r, r = p.onJnc fun j => { j with dropTime := some (j.dropTime.getD p.now), endStaged := false } :=
    ⟨_, rfl⟩
  obtain ⟨slots, zones, marked, slotMarks, zoneMarks⟩ := r.markDirty_spec pl
  have same : (∀ i, r.marksSlot pl i ↔ p.marksSlot pl i) ∧ (∀ i, r.slot i = p.slot i) ∧ ∀ z, r.zone z = p.zone z := by
    rw [hr]
    exact ⟨fun _ => .rfl, fun _ => rfl, fun _ => rfl⟩
  simp only [same] at slotMarks zoneMarks
  have drops : p.dropEntry pl = if (r.markDirty pl).jnc.journal = .resync then r.markDirty pl
      else ((r.markDirty pl).onJnc fun j => { j with journal := .resync }).postHeader := by
    rw [hr]
    rfl
  have journal : (r.markDirty pl).jnc.journal = p.jnc.journal := by rw [marked, hr]; rfl
  have kept : (p.dropEntry pl).ctu = (r.markDirty pl).ctu ∧ (p.dropEntry pl).znu = (r.markDirty pl).znu := by
    rw [drops]
    split <;> exact ⟨rfl, rfl⟩
  have slot (i : Fin 2048) : (p.dropEntry pl).slot i = (r.markDirty pl).slot i := by rw [Part.slot, kept.1]; rfl
  have zone (z : Fin 64) : (p.dropEntry pl).zone z = (r.markDirty pl).zone z := by rw [Part.zone, kept.2]; rfl
  intro q
  refine ⟨?_, fun i => by rw [slot]; exact slotMarks i, fun z => by rw [zone]; exact zoneMarks z⟩
  show p.dropEntry pl = _
  rw [kept.1, kept.2, drops, journal]
  split
  · next resync =>
    rw [marked, hr]
    simp [Part.onJnc, resync]
  · next other =>
    rw [marked, hr]
    simp [Part.onJnc, Part.postHeader, other]

/-- A TIME_MARK that is dropped marks nothing. -/
theorem Part.dropEntry_timeMark (o : Option Nat) (p : Part) : p.dropEntry (.timeMark o) = { p with
    jnc := { p.jnc with journal := .resync, dropTime := some (p.jnc.dropTime.getD p.now), endStaged := false }
    exi := { p.exi with headerMark := p.exi.headerMark || p.jnc.journal != .resync } } := by
  have drops : p.dropEntry (.timeMark o) =
      let r := p.onJnc fun j => { j with dropTime := some (j.dropTime.getD p.now), endStaged := false }
      if p.jnc.journal = .resync then r else (r.onJnc fun j => { j with journal := .resync }).postHeader := rfl
  rw [drops]
  dsimp only
  split
  · next resync => simp [Part.onJnc, resync]
  · next other => simp [Part.onJnc, Part.postHeader, other]

/-- An internal entry that finds no place is dropped. -/
theorem Part.offerInternal_drops (pl : Payload) {p : Part} (open_ : p.stagingOpen = true)
    (running : p.jnc.engine = .running)
    (full : 96 ≤ p.jnc.queue.length ∨ p.jnc.freeCount ≤ 4) : p.offerInternal pl = p.dropEntry pl := by
  have no : (decide (p.jnc.queue.length < Config.stagingPlaces) && !p.held) = false := by
    simp only [Part.held, Bool.and_eq_false_iff, decide_eq_false_iff_not, Bool.not_eq_false', decide_eq_true_eq]
    simp only [Config.stagingPlaces, Config.holdFree]
    omega
  simp [Part.offerInternal, open_, running, no]

theorem Part.offerInternal_stages (pl : Payload) {p : Part} (open_ : p.stagingOpen = true)
    (running : p.jnc.engine = .running) (room : p.jnc.queue.length < 96) (free : 4 < p.jnc.freeCount) :
    p.offerInternal pl = (p.enqueue .internal [pl]).pump := by
  have yes : (decide (p.jnc.queue.length < Config.stagingPlaces) && !p.held) = true := by
    simp only [Part.held, Bool.and_eq_true, decide_eq_true_eq, Bool.not_eq_true', decide_eq_false_iff_not]
    simp only [Config.stagingPlaces, Config.holdFree]
    omega
  simp [Part.offerInternal, open_, running, yes]

/-! ### The resync -/

theorem Part.resyncStage_stages {p : Part} (open_ : p.stagingOpen = true) (running : p.jnc.engine = .running)
    (resync : p.jnc.journal = .resync) (free : 4 < p.jnc.freeCount) (room : p.jnc.queue.length < 32) :
    p.resyncStage = p.resyncEntry.pump := by
  refine if_pos ?_
  simp only [Part.housekeeping, open_, running, resync, Part.held, Bool.and_eq_true, beq_self_eq_true,
    Bool.not_eq_true',
    decide_eq_false_iff_not, decide_eq_true_eq, true_and]
  simp only [Config.holdFree, Config.jncPlaces]
  omega

theorem firstFin_eq_none {n : Nat} {f : Fin n → Bool} (h : ∀ i, f i = false) : firstFin n f = none :=
  List.find?_eq_none.2 fun i _ => by simp [h i]

theorem Part.dirtyZone_some {z : Fin 64} {p : Part} (dirty : (p.zone z).dirty = true)
    (least : ∀ y, y < z → (p.zone y).dirty = false) : p.dirtyZone = some z := firstFin_eq_some dirty least

theorem Part.dirtyZone_none {p : Part} (clean : ∀ z, (p.zone z).dirty = false) : p.dirtyZone = none :=
    firstFin_eq_none clean

theorem Part.dirtySlot_some {i : Fin 2048} {c : Container} {p : Part} (live : p.slot i = some c)
    (dirty : c.dirty = true)
    (least : ∀ j d, j < i → p.slot j = some d → d.dirty = false) : p.dirtySlot = some i := by
  refine firstFin_eq_some (by simp only [live, dirty]) fun j before => ?_
  cases there : p.slot j with
  | none => rfl
  | some d => exact least j d before there

theorem Part.dirtySlot_none {p : Part} (clean : ∀ i c, p.slot i = some c → c.dirty = false) : p.dirtySlot = none := by
  refine firstFin_eq_none fun j => ?_
  cases there : p.slot j with
  | none => rfl
  | some d => exact clean j d there

/-! ### The commands -/

theorem exec_timeMarkInterval {s : State} (on : s.part.tbu.mainPower = true) : exec .timeMarkInterval s =
    .next (s.withPart (if s.part.jnc.engine == .running && decide (60 ≤ s.part.jnc.sinceMark) then
      s.part.offerInternal (.timeMark none) else s.part)) :=
  exec_of_powered rfl on rfl

/-- R163: the oldest entry that waits takes its place. -/
theorem Part.resumeWaiting_stages {o : Offer} {rest : List Offer} {pl : Payload} {p : Part} (open_ : p.stagingOpen =
    true)
    (waits : p.jnc.waiting = o :: rest) (becomes : p.offerPayloads o = [pl]) (places : p.docketEntries + 1 ≤ 64)
    (room : p.jnc.queue.length + 1 ≤ 96) (free : 4 < p.jnc.freeCount) : p.resumeWaiting =
      (Part.enqueue .docket [pl] (p.onJnc fun j => { j with waiting := rest })).pump := by
  have fits : p.docketRoom 1 = true := by
    simp only [Part.docketRoom, Part.held, Bool.and_eq_true, decide_eq_true_eq, Bool.not_eq_true',
      decide_eq_false_iff_not]
    simp only [Config.docketPlaces, Config.stagingPlaces, Config.holdFree]
    omega
  simp only [Part.resumeWaiting, waits, becomes, List.length_singleton, open_, fits, Bool.and_self, if_true]

theorem Part.resumeWaiting_waits {o : Offer} {rest : List Offer} {pl : Payload} {p : Part}
    (waits : p.jnc.waiting = o :: rest) (becomes : p.offerPayloads o = [pl])
    (full : 64 < p.docketEntries + 1 ∨ 96 < p.jnc.queue.length + 1 ∨ p.jnc.freeCount ≤ 4) : p.resumeWaiting = p := by
  have no : p.docketRoom 1 = false := by
    simp only [Part.docketRoom, Part.held, Bool.and_eq_false_iff, decide_eq_false_iff_not, Bool.not_eq_false',
      decide_eq_true_eq]
    simp only [Config.docketPlaces, Config.stagingPlaces, Config.holdFree]
    omega
  simp only [Part.resumeWaiting, waits, becomes, List.length_singleton, no, Bool.and_false, Bool.false_eq_true,
    if_false]

/-- Settles O55. -/
theorem entriesAreStagedInOrder : Obligations.EntriesAreStagedInOrder := by
  intro s on p open_ unformatted
  have opened (ok : p.jnc.journal ≠ .failed) : p.stagingOpen = true := by
    simp [Part.stagingOpen, ok, open_, Jnc.formatStages, unformatted]
  have resumed (o : Offer) (pl : Payload) (rest : List Offer) (ok : p.jnc.journal ≠ .failed) (plain : p.clearsNone [pl])
      (becomes : p.offerPayloads o = [pl]) (waits : p.jnc.waiting = o :: rest) (places : p.docketEntries + 1 ≤ 64)
      (room : p.jnc.queue.length + 1 ≤ 96) (free : 4 < p.jnc.freeCount) :
      ∃ q, exec .docketStagingResume s = .next (s.withPart q) ∧ q = { p with jnc := q.jnc } ∧ q.jnc.waiting = rest ∧
        q.jnc.queue = p.jnc.queue ++ [{ payload := pl, time := p.now, owner := .docket }] := by
    obtain ⟨j, staged, queue, waiting, -⟩ := Part.stages (owner := .docket) (pl := pl)
      (p := p.onJnc fun j => { j with waiting := rest }) open_ plain id (fun _ => rfl) (fun _ => rfl)
    exact ⟨_, exec_of_powered rfl on ((Part.resumeWaiting_stages (opened ok) waits becomes places room free).trans staged),
      rfl, waiting, queue⟩
  have entry (running : p.jnc.engine = .running) (resync : p.jnc.journal = .resync) (free : 4 < p.jnc.freeCount)
      (room : p.jnc.queue.length < 32) : p.resyncStage = p.resyncEntry.pump :=
    Part.resyncStage_stages (opened (by simp [resync])) running resync free room
  refine ⟨fun n id rest ok waits => ⟨fun places room free => ?_, fun full => ?_⟩,
    fun z i rest ok waits places room free => ?_, fun empty => ?_, fun running due ok room free => ?_, fun early => ?_,
    fun running ok full => ⟨fun due => ?_, fun pl => ?_⟩, fun running resync free room => ⟨fun t dropped => ?_,
      fun undropped marked => ⟨fun z dirty least => ?_, fun i c clean live dirty least still => ?_,
        fun clean none_ unended => ?_⟩⟩, fun idle => ?_⟩
  · exact resumed (.retire n id) (.retireEntry n id) rest ok (.inr (by simp [Payload.isImage])) rfl waits places room free
  · exact exec_of_powered_id (f := Part.resumeWaiting) rfl on
      (Part.resumeWaiting_waits (pl := .retireEntry n id) waits rfl full)
  · exact resumed (.zone z i) (.zoneImage z i) rest (by simp [ok]) (.inl (by simp [ok])) rfl waits places room free
  · refine exec_of_powered_id (f := Part.resumeWaiting) rfl on ?_
    simp only [Part.resumeWaiting, show s.part.jnc.waiting = [] from empty]
  · obtain ⟨j, staged, queue, -, since, -⟩ := Part.stages (owner := .internal) (pl := .timeMark none) (p := p) open_
      (.inr (by simp [Payload.isImage])) id (fun _ => rfl) (fun _ => rfl)
    refine ⟨{ p with jnc := j }, (exec_timeMarkInterval on).trans (next_congr ?_), rfl, since, queue⟩
    rw [if_pos (by simp [show s.part.jnc.engine = _ from running, show 60 ≤ s.part.jnc.sinceMark from due]),
      Part.offerInternal_stages _ (opened ok) running room free]
    exact staged
  · refine (exec_timeMarkInterval on).trans ?_
    rw [if_neg (by simp [show ¬60 ≤ s.part.jnc.sinceMark from Nat.not_le.2 early])]
    rfl
  · refine (exec_timeMarkInterval on).trans (next_congr ?_)
    rw [if_pos (by simp [show s.part.jnc.engine = _ from running, show 60 ≤ s.part.jnc.sinceMark from due]),
      Part.offerInternal_drops _ (opened ok) running full, Part.dropEntry_timeMark]
  · intro q marksSlot marksZone
    have drops : q = p.dropEntry pl := Part.offerInternal_drops pl (opened ok) running full
    rw [drops]
    exact Part.dropEntry_spec pl p
  · obtain ⟨j, staged, queue, -, -, drop, mark, -⟩ := Part.stages (owner := .resync) (pl := .dropMark t) (p := p) open_
      (.inr (by simp [Payload.isImage])) (fun j => { j with dropTime := none, markStaged := true, endStaged := false })
      (fun _ => rfl) (fun _ => rfl)
    refine ⟨{ p with jnc := j }, exec_of_powered rfl on ((entry running resync free room).trans ?_), rfl, drop, mark,
      queue⟩
    rw [← staged]
    simp only [Part.resyncEntry, dropped]
    rfl
  · have next : p.resyncEntry = p.enqueue .resync [.zoneImage z (p.zone z).image] := by
      simp only [Part.resyncEntry, undropped, Part.dirtyZone_some dirty least]
    have clears : p.clearMark (.zoneImage z (p.zone z).image) = p.putZone z { p.zone z with dirty := false } :=
      if_pos ⟨resync, marked⟩
    obtain ⟨j, staged, queue, -⟩ := Part.stages_clearing (owner := .resync) clears rfl rfl open_
    refine ⟨_, exec_of_powered rfl on ((entry running resync free room).trans ((congrArg _ next).trans staged)), rfl,
      queue⟩
  · intro k c1
    obtain ⟨r, settles, commits⟩ := Part.settleSlot_commits (T := p.now) live still
    obtain ⟨derived, hd⟩ : ∃ x, x = (p.deriveRecord true c1).1 := ⟨_, rfl⟩
    have record : derived = _ := hd.trans (Part.deriveRecord_eq true c1 p)
    have own : r.slot i = some derived := by rw [hd]; exact commits.own
    have next : p.resyncEntry = r.enqueue .resync [.containerImage (imageOf i derived)] := by
      simp only [Part.resyncEntry, undropped, Part.dirtyZone_none clean, Part.dirtySlot_some live dirty least, settles,
        Part.offerPayloads, own]
    have jnc := commits.jnc
    have clears : r.clearMark (.containerImage (imageOf i derived)) =
        r.setSlot i (some { derived with dirty := false }) := by
      have set : r.jnc.journal = .resync ∧ r.jnc.markStaged = true := by rw [jnc]; exact ⟨resync, marked⟩
      have image : (imageOf i derived).slot = i := rfl
      unfold Part.clearMark
      rw [if_pos set]
      simp only [image, own]
    obtain ⟨j, staged, queue, drop⟩ := Part.stages_clearing (owner :=
        .resync) clears rfl rfl ((congrArg Jnc.closing jnc).trans open_)
    obtain ⟨id, cls, zone⟩ := settleRecord_ids k p.now c
    refine ⟨_, { derived with dirty := false },
      exec_of_powered rfl on ((entry running resync free room).trans ((congrArg _ next).trans staged)), ?_,
        fun m other => ?_,
      commits.sameOutside, commits.sameConfig, commits.prc, by rw [hd], ?_, ?_, ?_, ?_, ?_, ?_, ?_, ?_, ?_⟩
    · exact (Part.slot_setSlot ..).trans (if_pos rfl)
    · exact ((Part.slot_setSlot ..).trans (if_neg other.symm)).trans (commits.others m other)
    · rw [record]
      exact id
    · rw [record]
      exact zone
    · rw [record]
    · rw [record]
    · rw [record]
    · rw [record, cls]
    · rw [record]
      exact settleRecord_settled_max ..
    · rw [drop, jnc]
      exact undropped
    · rw [queue, jnc, commits.now]
      rfl
  · have next : p.resyncEntry = (p.enqueue .resync [.resyncEnd]).onJnc fun j => { j with endStaged := true } := by
      simp only [Part.resyncEntry, undropped, Part.dirtyZone_none clean, Part.dirtySlot_none none_, unended]
      rfl
    obtain ⟨j, staged, queue, -, -, -, -, ended⟩ := Part.stages (owner := .resync) (pl := .resyncEnd) (p := p) open_
      (.inr (by simp [Payload.isImage])) (fun j => { j with endStaged := true }) (fun _ => rfl) (fun _ => rfl)
    refine ⟨{ p with jnc := j }, exec_of_powered rfl on ((entry running resync free room).trans ?_), rfl, ended, queue⟩
    rw [next]
    exact staged
  · refine exec_of_powered_id (f := Part.resyncStage) rfl on (if_neg ?_)
    simp only [Part.held, Bool.and_eq_true, decide_eq_true_eq, Bool.not_eq_true', decide_eq_false_iff_not, beq_iff_eq]
    simp only [Config.holdFree, Config.jncPlaces]
    rintro ⟨⟨⟨-, resync⟩, free⟩, room⟩
    obtain other | full | held := idle
    · exact other resync
    · exact absurd room (Nat.not_lt.2 full)
    · exact free held

end Sys2Proof.Machine

/-! ## The status board (O25, O26) -/

namespace Sys2Proof.Machine

/-! ### Several writes of a memory -/

/-- A memory after some writes, each an address with its bytes, in their order. -/
def Memory.writes (blank : Byte) (ws : List (Nat × List Byte)) (m : Memory) : Memory :=
  ws.foldl (fun m w => m.write blank w.1 w.2) m

theorem Memory.read_writes_outside {blank : Byte} {ws : List (Nat × List Byte)} {x : Nat}
    (outside : ∀ w ∈ ws, outsideRun w.1 w.2.length x) (m : Memory) : (m.writes blank ws).read blank x =
      m.read blank x := by
  induction ws generalizing m with
  | nil => rfl
  | cons w ws ih =>
    exact (ih (fun v listed => outside v (List.mem_cons_of_mem _ listed)) _).trans
      (Memory.read_write_outside (outside w List.mem_cons_self) blank m)

/-- Bytes stand that each write either leaves or writes anew. -/
theorem Memory.readBlock_writes_stands {blank : Byte} {ws : List (Nat × List Byte)} {a : Nat} {bs : List Byte} {m : Memory}
    (apart : ∀ w ∈ ws, w = (a, bs) ∨ a + bs.length ≤ w.1 ∨ w.1 + w.2.length ≤ a)
    (there : m.readBlock blank a bs.length = bs) : (m.writes blank ws).readBlock blank a bs.length = bs := by
  induction ws generalizing m with
  | nil => exact there
  | cons w ws ih =>
    refine ih (fun v listed => apart v (List.mem_cons_of_mem _ listed)) ?_
    obtain rfl | out := apart w List.mem_cons_self
    · exact Memory.readBlock_write ..
    · exact (Memory.readBlock_write_outside _ _ _ _ _ _ out).trans there

theorem Memory.readBlock_writes {blank : Byte} {ws : List (Nat × List Byte)} {a : Nat} {bs : List Byte}
    (apart : ∀ w ∈ ws, w = (a, bs) ∨ a + bs.length ≤ w.1 ∨ w.1 + w.2.length ≤ a) (listed : (a, bs) ∈ ws) (m : Memory) :
    (m.writes blank ws).readBlock blank a bs.length = bs := by
  induction ws generalizing m with
  | nil => cases listed
  | cons w ws ih =>
    have rest : ∀ v ∈ ws, v = (a, bs) ∨ a + bs.length ≤ v.1 ∨ v.1 + v.2.length ≤ a :=
      fun v listed => apart v (List.mem_cons_of_mem _ listed)
    obtain rfl | later := List.mem_cons.1 listed
    · exact Memory.readBlock_writes_stands (ws := ws) (m := m.write blank a bs) rest (Memory.readBlock_write ..)
    · exact ih rest later _

/-! ### The writes of a group -/

/-- One write of a group, with its address. -/
def Part.groupRun (p : Part) (intake : IntakeState) (base : Word32) (w : GroupWrite) : Nat × List Byte :=
  ((p.areaAddr (p.groupBytes intake base w).1).toNat, (p.groupBytes intake base w).2)

/-- A write of a group shows nothing of the host's memory, so each write is that of the part before the group. -/
theorem Part.writeGroupItems_eq (intake : IntakeState) (base : Word32) (items : List GroupWrite) (p : Part) :
    p.writeGroupItems intake base items =
      { p with host := p.host.writes hostBlank (items.map (p.groupRun intake base)) } := by
  unfold Part.writeGroupItems
  induction items generalizing p with
  | nil => rfl
  | cons w ws ih =>
    have stands (h : Memory) : Part.groupRun { p with host := h } intake base = p.groupRun intake base := by
      funext v
      cases v <;> rfl
    refine (ih _).trans ?_
    show { p with host := _ } = { p with host := _ }
    exact congrArg (fun f => ({ p with host := Memory.writes hostBlank (ws.map f) _ } : Part)) (stands _)

theorem padTo_length {n : Nat} {bs : List Byte} (short : bs.length ≤ n) : (padTo n bs).length = n := by
  rw [padTo, List.length_append, List.length_replicate]
  omega

theorem Part.headerBytes_length (p : Part) (intake : IntakeState) : (p.headerBytes intake).length = 248 :=
  padTo_length (by simp only [List.length_append, leBytes_length]; omega)

theorem Part.zoneSummary_length (p : Part) (z : Fin 64) : (p.zoneSummary z).length = 16 := by
  simp [Part.zoneSummary]

theorem Summary.bytes_length (s : Summary) : s.bytes.length = 16 := by
  simp [Summary.bytes]

/-- Where a write of a group lies, and how long it is (R144, 11.3). -/
def GroupWrite.span : GroupWrite → Nat × Nat
  | .generation _ => (0, 4)
  | .zone z => (256 + 16 * z.val, 16)
  | .slot i => (4096 + 16 * i.val, 16)
  | .header => (8, 248)

theorem Part.groupBytes_span (p : Part) (intake : IntakeState) (base : Word32) (w : GroupWrite) :
    (p.groupBytes intake base w).1 = w.span.1 ∧ (p.groupBytes intake base w).2.length = w.span.2 := by
  cases w with
  | generation odd => cases odd <;> exact ⟨rfl, leBytes_length ..⟩
  | zone z => exact ⟨rfl, p.zoneSummary_length z⟩
  | slot i => exact ⟨rfl, Summary.bytes_length _⟩
  | header => exact ⟨rfl, p.headerBytes_length intake⟩

/-- An area that does not wrap (R144). -/
theorem Part.areaAddr_toNat {p : Part} (fits : p.exbase.toNat + 65536 ≤ 2 ^ 64) {off : Nat} (inside : off < 65536) :
    (p.areaAddr off).toNat = p.exbase.toNat + off := by
  rw [Part.areaAddr, BitVec.toNat_add, BitVec.toNat_ofNat]
  omega

/-- Two different writes of a group that are not both the generation do not overlap. -/
theorem GroupWrite.apart {v w : GroupWrite} (differ : v ≠ w) (entry : ∀ odd, v ≠ .generation odd) :
    v.span.1 + v.span.2 ≤ w.span.1 ∨ w.span.1 + w.span.2 ≤ v.span.1 := by
  have slots (i j : Fin 2048) (h : i ≠ j) : i.val ≠ j.val := fun same => h (Fin.ext same)
  have zones (y z : Fin 64) (h : y ≠ z) : y.val ≠ z.val := fun same => h (Fin.ext same)
  cases v with
  | generation odd => exact absurd rfl (entry odd)
  | zone y =>
    cases w with
    | zone z =>
      have := zones y z fun same => differ (congrArg _ same)
      simp only [GroupWrite.span]
      omega
    | generation | slot | header =>
      simp only [GroupWrite.span]
      omega
  | slot i =>
    cases w with
    | slot j =>
      have := slots i j fun same => differ (congrArg _ same)
      simp only [GroupWrite.span]
      omega
    | generation | zone | header =>
      simp only [GroupWrite.span]
      omega
  | header =>
    cases w with
    | header => exact absurd rfl differ
    | generation | zone | slot =>
      simp only [GroupWrite.span]
      omega

theorem GroupWrite.span_inside (w : GroupWrite) : w.span.1 < 65536 := by
  cases w <;> simp only [GroupWrite.span] <;> omega

/-- Each entry among the writes of a group reads back. -/
theorem Part.readBlock_group {p : Part} {intake : IntakeState} {base : Word32} {items : List GroupWrite} {v : GroupWrite}
    (fits : p.exbase.toNat + 65536 ≤ 2 ^ 64) (listed : v ∈ items) (entry : ∀ odd, v ≠ .generation odd) (m : Memory) :
    (m.writes hostBlank (items.map (p.groupRun intake base))).readBlock hostBlank (p.areaAddr v.span.1).toNat v.span.2 =
      (p.groupBytes intake base v).2 := by
  have at_ (w : GroupWrite) : (p.groupRun intake base w).1 = p.exbase.toNat + w.span.1 := by
    rw [Part.groupRun, (p.groupBytes_span intake base w).1]
    exact p.areaAddr_toNat fits w.span_inside
  have long (w : GroupWrite) : (p.groupRun intake base w).2.length = w.span.2 := (p.groupBytes_span intake base w).2
  have reads := Memory.readBlock_writes (blank := hostBlank) (ws := items.map (p.groupRun intake base))
    (a := (p.groupRun intake base v).1) (bs := (p.groupRun intake base v).2) (fun x hx => ?_)
      (List.mem_map.2 ⟨v, listed, rfl⟩) m
  · rw [long, Part.groupRun, (p.groupBytes_span intake base v).1] at reads
    exact reads
  · obtain ⟨w, -, rfl⟩ := List.mem_map.1 hx
    by_cases same : w = v
    · exact .inl (by rw [same])
    · right
      rw [at_, at_, long, long]
      have := GroupWrite.apart (Ne.symm same) entry
      omega

/-! ### A whole group -/

/-- The line is bound to one of these zones. -/
def DoorLine.boundIn (zs : List (Fin 64)) (l : DoorLine) : Bool :=
  match l.zone with
  | some z => zs.contains z
  | none => false

/-- A line once the writes of these zones are complete (R92). -/
def DoorLine.opened (zs : List (Fin 64)) (l : DoorLine) : DoorLine :=
  { l with pendingOpen := l.pendingOpen && !l.boundIn zs }

theorem DoorLine.opened_of_not {zs : List (Fin 64)} {l : DoorLine} (h : (l.pendingOpen && l.boundIn zs) = false) :
    l.opened zs = l := by
  have same : (l.pendingOpen && !l.boundIn zs) = l.pendingOpen := by
    cases pending : l.pendingOpen <;> simp_all
  rw [DoorLine.opened, same]

/-- What the completed zone writes do to one line. -/
theorem Part.clearOpened_line (zs : List (Fin 64)) (n : Fin 16) (p : Part) :
    (match (p.line n).zone with
      | some z => if (p.line n).pendingOpen && zs.contains z then p.setLine n { p.line n with pendingOpen := false } else p
      | none => p) = p.setLine n ((p.line n).opened zs) := by
  have stays (h : ((p.line n).pendingOpen && (p.line n).boundIn zs) = false) : p.setLine n ((p.line n).opened zs) =
      p := by
    rw [DoorLine.opened_of_not h]
    simp [Part.setLine, Part.line]
  split
  · next z bound =>
    have told : (p.line n).boundIn zs = zs.contains z := by simp only [DoorLine.boundIn, bound]
    split
    · next clears =>
      obtain ⟨pending, listed⟩ := Bool.and_eq_true_iff.1 clears
      rw [DoorLine.opened, told, pending, listed]
      rfl
    · next keeps => exact (stays (by rw [told]; exact Bool.eq_false_iff.2 keeps)).symm
  · next free => exact (stays (by simp [DoorLine.boundIn, free])).symm

theorem Part.clearOpened_spec (zs : List (Fin 64)) (p : Part) :
    ∃ lines, p.clearOpened zs = { p with dou := { p.dou with lines := lines } } ∧
      ∀ n, lines[n] = (p.line n).opened zs := by
  have each (ns : List (Fin 16)) (distinct : ns.Nodup) (p : Part) :
      ∃ lines, ns.foldl (fun p n => p.setLine n ((p.line n).opened zs)) p =
        { p with dou := { p.dou with lines := lines } } ∧
        ∀ n, lines[n] = if n ∈ ns then (p.line n).opened zs else p.line n := by
    induction ns generalizing p with
    | nil => exact ⟨p.dou.lines, rfl, fun n => rfl⟩
    | cons m ns ih =>
      rw [List.nodup_cons] at distinct
      obtain ⟨lines, eq, own⟩ := ih distinct.2 (p.setLine m ((p.line m).opened zs))
      refine ⟨lines, eq, fun n => ?_⟩
      rw [own, Part.line_setLine]
      by_cases here : m = n
      · subst here
        simp [distinct.1]
      · simp [here, Ne.symm here]
  obtain ⟨lines, eq, own⟩ := each (List.finRange 16) (List.nodup_finRange 16) p
  refine ⟨lines, ?_, fun n => by rw [own, if_pos (List.mem_finRange n)]⟩
  rw [← eq]
  unfold Part.clearOpened
  congr 1
  funext p n
  exact Part.clearOpened_line zs n p

/-- What raising a cause leaves depends on the causes, the enables and the messages alone. -/
theorem Part.raise_congr {p q : Part} (c : IrqCause) (cause : q.exi.cause = p.exi.cause)
    (mask : q.exi.mask = p.exi.mask)
    (messages : q.exi.messages = p.exi.messages) : (q.raise c).exi.cause = (p.raise c).exi.cause ∧
      (q.raise c).exi.messages = (p.raise c).exi.messages := by
  unfold Part.raise
  rw [cause]
  split
  · exact ⟨cause, messages⟩
  · dsimp only
    rw [mask]
    split
    · exact ⟨rfl, congrArg (· ++ [c]) messages⟩
    · exact ⟨rfl, messages⟩

/-- The part `q` is `p` with a whole group written, whose header shows `intake` (R153). -/
structure Part.WritesBoard (intake : IntakeState) (p q : Part) : Prop where
  eq : q = { p with host := q.host, dou := { p.dou with lines := q.dou.lines }
                    exi := { p.exi with generation := p.exi.generation + 2, headerMark := false, zoneMarks := []
                                        slotMarks := [], rise := false, cause := q.exi.cause, messages :=
                                          q.exi.messages } }
  host : q.host = p.host.writes hostBlank (p.exi.groupWrites.map (p.groupRun intake p.exi.generation))
  lines : ∀ n, q.line n = (p.line n).opened p.exi.zoneMarks
  rise : p.exi.rise = true → q.exi.cause = (p.raise .alert).exi.cause ∧ q.exi.messages = (p.raise .alert).exi.messages
  still : p.exi.rise = false → q.exi.cause = p.exi.cause ∧ q.exi.messages = p.exi.messages

theorem Part.writesBoard_writeBoard (intake : IntakeState) (p : Part) : p.WritesBoard intake (p.writeBoard intake) := by
  obtain ⟨r, hr⟩ : ∃ r, r = p.writeGroupItems intake p.exi.generation p.exi.groupWrites := ⟨_, rfl⟩
  obtain ⟨lines, opens, own⟩ := r.clearOpened_spec p.exi.zoneMarks
  rw [Part.writeGroupItems_eq] at hr
  obtain ⟨w, hw⟩ : ∃ w : Part, w = { p with
    host := p.host.writes hostBlank (p.exi.groupWrites.map (p.groupRun intake p.exi.generation))
    dou := { p.dou with lines := lines }
    exi := { p.exi with generation := p.exi.generation + 2, headerMark := false, zoneMarks := []
                        slotMarks := [], rise := false } } := ⟨_, rfl⟩
  have writes : p.writeBoard intake = if p.exi.rise then w.raise .alert else w := by
    unfold Part.writeBoard
    dsimp only
    rw [Part.writeGroupItems_eq, ← hr, opens, hw, hr]
  rw [hr] at own
  have base : w.exi.cause = p.exi.cause ∧ w.exi.mask = p.exi.mask ∧ w.exi.messages = p.exi.messages := by
    rw [hw]
    exact ⟨rfl, rfl, rfl⟩
  obtain ⟨cause, mask, messages⟩ := base
  cases rises : p.exi.rise with
  | true =>
    rw [rises, if_pos rfl] at writes
    rw [writes]
    obtain ⟨cause', messages'⟩ := Part.raise_congr .alert cause mask messages
    refine ⟨?_, ?_, fun n => ?_, fun _ => ⟨cause', messages'⟩, fun h => absurd (rises.symm.trans h) (by decide)⟩
    all_goals rw [Part.raise_eq]
    · rw [hw]
    · rw [hw]
    · refine Eq.trans ?_ (own n)
      rw [hw]
      rfl
  | false =>
    rw [rises, if_neg (by decide)] at writes
    rw [writes]
    refine ⟨by rw [hw], by rw [hw], fun n => ?_, fun h => absurd (rises.symm.trans h) (by decide),
      fun _ => ⟨cause, messages⟩⟩
    refine Eq.trans ?_ (own n)
    rw [hw]
    rfl

/-- The entries that a group has written, and the generation after it. -/
theorem Part.WritesBoard.reads {intake : IntakeState} {p q : Part} (h : p.WritesBoard intake q)
    (fits : p.exbase.toNat + 65536 ≤ 2 ^ 64) :
    q.hostRead (p.areaAddr 0) 4 = leBytes 4 (p.exi.generation + 2).toNat ∧
    (∀ z ∈ p.exi.zoneMarks, q.hostRead (p.areaAddr (256 + 16 * z.val)) 16 = p.zoneSummary z) ∧
    (∀ i ∈ p.exi.slotMarks, q.hostRead (p.areaAddr (4096 + 16 * i.val)) 16 =
      (containerSummary p.classDef (p.slot i)).bytes) ∧
    (p.exi.headerMark = true → q.hostRead (p.areaAddr 8) 248 = p.headerBytes intake) := by
  unfold Part.hostRead
  rw [h.host]
  refine ⟨?_, fun z marked => ?_, fun i marked => ?_, fun marked => ?_⟩
  · have last : p.exi.groupWrites.map (p.groupRun intake p.exi.generation) =
        ((GroupWrite.generation true :: (p.exi.zoneMarks.map .zone ++ p.exi.slotMarks.map .slot ++
          (if p.exi.headerMark then [.header] else []))).map (p.groupRun intake p.exi.generation)) ++
          [((p.areaAddr 0).toNat, leBytes 4 (p.exi.generation + 2).toNat)] := by
      simp only [Exi.groupWrites, List.map_cons, List.map_append, List.cons_append, List.map_nil]
      rfl
    rw [last, Memory.writes, List.foldl_append]
    exact (congrArg (Memory.readBlock hostBlank _ _) (leBytes_length ..).symm).trans (Memory.readBlock_write ..)
  · exact Part.readBlock_group (v := .zone z) fits (by simp [Exi.groupWrites, marked]) nofun _
  · exact Part.readBlock_group (v := .slot i) fits (by simp [Exi.groupWrites, marked]) nofun _
  · exact Part.readBlock_group (v := .header) fits (by simp [Exi.groupWrites, marked]) nofun _

theorem Part.WritesBoard.outside {intake : IntakeState} {p q : Part} (h : p.WritesBoard intake q) {x : Nat}
    (out : p.outsideGroup intake x) : q.host.read hostBlank x = p.host.read hostBlank x := by
  rw [h.host]
  refine Memory.read_writes_outside (fun r listed => ?_) _
  obtain ⟨w, called, rfl⟩ := List.mem_map.1 listed
  exact out w called

/-- Settles O25. -/
theorem boardGroupWritesEveryMark : Obligations.BoardGroupWritesEveryMark := by
  intro s on intake marked p
  have writes := p.writesBoard_writeBoard .on
  exact ⟨p.writeBoard .on, exec_of_powered rfl on (if_pos ⟨intake, marked⟩), writes.eq, writes.lines, writes.rise,
    writes.still,
    fun x => writes.outside, writes.reads⟩

/-! ### The end of a turn-off -/

/-- The byte of the header that shows the intake. -/
theorem Part.headerBytes_intake (p : Part) (intake : IntakeState) : (p.headerBytes intake)[2]'(by
    rw [p.headerBytes_length]; decide) = BitVec.ofNat 8 intake.code := by
  simp [Part.headerBytes, padTo, leBytes]

/-- Settles O26. -/
theorem turnOffAndEngineTimeWrites : Obligations.TurnOffAndEngineTimeWrites := by
  intro s on intake p
  refine ⟨fun turnOff free => ?_, fun waits => ?_, fun t due => ?_, fun idle => ?_⟩
  · have writes := p.postHeader.writesBoard_writeBoard .off
    obtain ⟨w, hw⟩ : ∃ w, w = p.postHeader.writeBoard .off := ⟨_, rfl⟩
    rw [← hw] at writes
    refine ⟨{ w with exi := { w.exi with
        intake := .off, turnOff := false, faultAfter := false, sweeping := false, extraPass := false
        sweepTimer := none, timeWrite := none } },
      exec_of_powered rfl on ((if_pos ⟨intake, turnOff, free⟩).trans (by rw [hw])), ?_, writes.lines, fun rises => ?_,
      writes.still, fun x => writes.outside, fun fits => ?_⟩
    · have eq := writes.eq
      generalize w.host = h, w.dou.lines = lines, w.exi.cause = cause, w.exi.messages = messages at eq ⊢
      rw [eq]
      rfl
    · obtain ⟨cause, messages⟩ := Part.raise_congr (p := p) (q := p.postHeader) .alert rfl rfl rfl
      exact ⟨(writes.rise rises).1.trans cause, (writes.rise rises).2.trans messages⟩
    · obtain ⟨generation, zones, slots, header⟩ := writes.reads fits
      refine ⟨?_, header rfl, generation, zones, slots⟩
      have at_ : (p.areaAddr 10).toNat = (p.areaAddr 8).toNat + 2 := by
        rw [Part.areaAddr_toNat fits (by decide), Part.areaAddr_toNat fits (by decide)]
      have shown : Memory.read hostBlank w.host (p.areaAddr 10).toNat = BitVec.ofNat 8 IntakeState.off.code := by
        rw [at_, ← p.headerBytes_intake .off, ← Memory.readBlock_getElem _ _ _ 248 2 (by rw [Memory.readBlock_length]; decide)]
        simp only [show Memory.readBlock hostBlank w.host (p.areaAddr 8).toNat 248 = p.headerBytes .off from header rfl]
      exact congrArg (fun b => [b]) shown
  · refine exec_of_powered_id rfl on (if_neg fun ⟨_, turnOff, free⟩ => ?_)
    obtain pending | held := waits
    · exact absurd (turnOff.symm.trans pending) (by decide)
    · exact held free
  · refine exec_of_powered (f := Part.writeTime) rfl on ?_
    simp only [Part.writeTime, show s.part.exi.timeWrite = some t from due, show s.part.exi.intake = .on from intake,
      if_true]
    rfl
  · refine exec_of_powered_id (f := Part.writeTime) rfl on ?_
    simp only [Part.writeTime, show s.part.exi.timeWrite = none from idle]

end Sys2Proof.Machine

/-! ## Taking a docket (O19) -/

namespace Sys2Proof.Machine

theorem exec_nudge {s : State} {v : Word32} {stores : Stores} (on : s.part.tbu.mainPower = true) :
    exec (.nudge v stores) s = .next (s.withPart (s.part.hostStores stores).sweepRequest) :=
  exec_of_powered (f := fun p => (p.hostStores stores).sweepRequest) rfl on rfl

theorem exec_sweepTimerExpiry {s : State} {stores : Stores} (on : s.part.tbu.mainPower = true) :
    exec (.sweepTimerExpiry stores) s = .next (s.withPart (s.part.hostStores stores).sweepExpiry) :=
  exec_of_powered (f := fun p => (p.hostStores stores).sweepExpiry) rfl on rfl

/-! ### How a docket starts -/

theorem judge_eq (q : Request) (e : EngineState) : judge q e = if q = .badKind then .finished (plainAnswer .badKind)
    else if q.allowed e then .handed else .finished (plainAnswer .notNow) := by
  cases q
  case badKind => rfl
  all_goals rfl

theorem Request.allowed_iff (q : Request) (e : EngineState) : q.allowed e = true ↔ e = .running ∨
    (e = .blank ∧ ((∃ t, q = .setTime t) ∨ q = .format)) ∨
      (e = .awaitTime ∧ ((∃ t, q = .setTime t) ∨ ∃ a, q = .query a)) := by
  cases e
  case running => simp [Request.allowed]
  case restoring => simp [Request.allowed]
  case blank => cases q <;> simp [Request.allowed]
  case awaitTime => cases q <;> simp [Request.allowed]

/-- The docket that a sweep takes from the slot at the cursor (R147). -/
def Part.taken (p : Part) (bs : List Byte) : InHand :=
  { slot := p.exi.cursor, notify := requestNotify bs, request := decodeRequest bs
    stage := if decodeRequest bs = .badKind then .finished (plainAnswer .badKind)
             else if (decodeRequest bs).allowed p.jnc.engine then .handed
             else .finished (plainAnswer .notNow)
    givenUp := false, triggers := [], awaitRunning := false, durable := false }

theorem Part.takeDocket_eq (bs : List Byte) (p : Part) : p.takeDocket bs = { p with
    host := p.host.write hostBlank (p.slotAddr p.exi.cursor).toNat [2]
    exi := { p.exi with inHand := some (p.taken bs) } } := by
  rw [Part.taken, ← judge_eq]
  rfl

theorem ownerPosted_iff {bs : List Byte} : ownerPosted bs = true ↔ fieldAt bs 0 1 = 1 := by
  simp [ownerPosted]

/-! ### A sweep -/

/-- A sweep reads a POSTED docket at the cursor. -/
theorem Part.sweep_takes {p : Part} (free : p.exi.inHand = none) (posted : fieldAt p.readSlot 0 1 = 1) :
    p.sweep = p.takeDocket p.readSlot := by
  simp only [Part.sweep, free, Part.sweepRead, ownerPosted_iff.2 posted, Option.isSome_none, Bool.false_eq_true,
    if_false,
    if_true]

/-- A sweep reads any other owner at the cursor, and ends, its extra pass too. -/
theorem Part.sweep_ends {p : Part} (free : p.exi.inHand = none) (other : fieldAt p.readSlot 0 1 ≠ 1) :
    p.sweep = p.idleSweep := by
  have ends (q : Part) (same : q.readSlot = p.readSlot) (f : Part → Part) : q.sweepRead f = f q := by
    rw [Part.sweepRead, same]
    exact if_neg (mt ownerPosted_iff.1 other)
  rw [Part.sweep, free]
  refine (if_neg (by decide)).trans ((ends p rfl _).trans ?_)
  split
  · exact ends { p with exi := { p.exi with extraPass := false } } rfl _
  · rfl

theorem Part.sweepRequest_begins {p : Part} (intake : p.exi.intake = .on) (idle : p.exi.sweeping = false)
    (left : p.jnc.engine ≠ .restoring) (stays : p.exi.turnOff = false) (power : p.tbu.powerFail = false)
    (open_ : p.jnc.closing = none) : p.sweepRequest = Part.sweep { p with exi := { p.exi with sweeping := true } } := by
  have taking : p.noTaking = false := by simp [Part.noTaking, stays, power, open_]
  rw [Part.sweepRequest, if_pos intake, if_neg (by simp [idle, left]), Part.beginSweep, taking]
  rfl

theorem Part.sweepRequest_extra {p : Part} (intake : p.exi.intake = .on)
    (busy : p.exi.sweeping = true ∨ p.jnc.engine = .restoring) :
    p.sweepRequest = { p with exi := { p.exi with extraPass := true } } := by
  rw [Part.sweepRequest, if_pos intake, if_pos busy]

theorem Part.sweepExpiry_on {p : Part} (intake : p.exi.intake = .on) (runs : p.exi.sweepTimer ≠ none) :
    p.sweepExpiry = Part.sweepRequest { p with exi := { p.exi with sweepTimer := some p.sweepPeriod } } :=
  if_pos ⟨intake, Option.isSome_iff_ne_none.2 runs⟩

/-- Settles O19. -/
theorem sweepTakesPostedDocket : Obligations.SweepTakesPostedDocket := by
  refine ⟨fun s v stores on => ?_, fun s v stores on => ?_, Request.allowed_iff, fun bs => ?_⟩
  · intro q bs request taken intake idle left free stays power open_
    obtain ⟨w, hw⟩ : ∃ w : Part, w = { q with exi := { q.exi with sweeping := true } } := ⟨_, rfl⟩
    obtain ⟨x, hx⟩ : ∃ x : Part, x = { w with exi := { w.exi with sweepTimer := some q.sweepPeriod } } := ⟨_, rfl⟩
    have nudges : q.sweepRequest = w.sweep := hw ▸ Part.sweepRequest_begins intake idle left stays power open_
    have expires (runs : q.exi.sweepTimer ≠ none) : q.sweepExpiry = x.sweep := by
      rw [Part.sweepExpiry_on intake runs, hx, hw]
      exact Part.sweepRequest_begins intake idle left stays power open_
    have same : w.readSlot = bs ∧ x.readSlot = bs ∧ w.exi.inHand = none ∧ x.exi.inHand = none := by
      rw [hx, hw]
      exact ⟨rfl, rfl, free, free⟩
    obtain ⟨reads, reads', free, free'⟩ := same
    refine ⟨fun posted => ⟨?_, fun runs => ?_⟩, fun other => ⟨?_, fun runs => ?_⟩⟩
    · refine (exec_nudge on).trans (next_congr (nudges.trans ((Part.sweep_takes free (by rw [reads]; exact posted)).trans ?_)))
      rw [Part.takeDocket_eq, reads, hw]
      rfl
    · refine (exec_sweepTimerExpiry on).trans (next_congr
        ((expires runs).trans ((Part.sweep_takes free' (by rw [reads']; exact posted)).trans ?_)))
      rw [Part.takeDocket_eq, reads', hx, hw]
      rfl
    · refine (exec_nudge on).trans (next_congr (nudges.trans ((Part.sweep_ends free (by rw [reads]; exact other)).trans ?_)))
      rw [Part.idleSweep, ← idle, hw]
    · refine (exec_sweepTimerExpiry on).trans (next_congr
        ((expires runs).trans ((Part.sweep_ends free' (by rw [reads']; exact other)).trans ?_)))
      rw [Part.idleSweep, ← idle, hx, hw]
  · intro q
    refine ⟨fun off => ⟨?_, ?_⟩, fun intake busy => ⟨?_, fun runs => ?_⟩⟩
    · exact (exec_nudge on).trans (next_congr (if_neg off))
    · exact (exec_sweepTimerExpiry on).trans (next_congr (if_neg fun h => off h.1))
    · exact (exec_nudge on).trans (next_congr (Part.sweepRequest_extra intake busy))
    · exact (exec_sweepTimerExpiry on).trans (next_congr ((Part.sweepExpiry_on intake runs).trans
        (Part.sweepRequest_extra intake busy)))
  · intro n id pattern is
    have reads (kind : Nat) (r : Request) (h : n 1 1 = kind → decodeRequest bs = r) : is kind r := h
    refine ⟨?_, ?_, ?_, ?_, ?_, ?_, ?_, ?_, ?_, ?_, ?_, ?_, ?_, ?_, ?_, ?_, ?_, ?_, fun outside => ?_⟩
    case refine_19 =>
      change fieldAt bs 1 1 = 0 ∨ 18 < fieldAt bs 1 1 at outside
      unfold decodeRequest
      split
      case h_19 => rfl
      all_goals omega
    all_goals
      intro kind
      change fieldAt bs 1 1 = _ at kind
      unfold decodeRequest
      rw [kind]
      rfl

end Sys2Proof.Machine

/-! ## Answering a docket (O20) -/

namespace Sys2Proof.Machine

theorem exec_answerDocket {s : State} {stores : Stores} (on : s.part.tbu.mainPower = true) :
    exec (.answerDocket stores) s = .next (s.withPart (s.part.hostStores stores).answerDocket) :=
  exec_of_powered (f := fun p => (p.hostStores stores).answerDocket) rfl on rfl

/-- The commits that a finished docket waits for are made, or the journal is FAILED (R149 steps 1 and 2). -/
def Part.settledDocket (p : Part) : Prop :=
  p.jnc.journal = .failed ∨ (p.jnc.waiting = [] ∧ ∀ e ∈ p.jnc.queue, e.owner ≠ .docket)

theorem Part.readyAnswer_eq {d : InHand} {a : Answer} {p : Part} (inHand : p.exi.inHand = some d)
    (finished : d.stage = .finished a) (held : d.triggers = []) (runs : d.awaitRunning = false)
      (settled : p.settledDocket) :
    p.readyAnswer = some (d, a) := by
  rw [Part.readyAnswer, if_pos (settled.imp_right (Part.docketCommitted_iff p).2)]
  exact Part.finishedDocket_eq_some.2 ⟨inHand, finished, held, .inl runs⟩

theorem Part.readyAnswer_waits {p : Part} (alive : p.jnc.journal ≠ .failed)
    (waits : p.jnc.waiting ≠ [] ∨ ∃ e ∈ p.jnc.queue, e.owner = .docket) : p.readyAnswer = none := by
  refine if_neg fun ready => ?_
  obtain failed | committed := ready
  · exact alive failed
  · obtain ⟨empty, others⟩ := (Part.docketCommitted_iff p).1 committed
    obtain full | ⟨e, queued, own⟩ := waits
    · exact full empty
    · exact others e queued own

/-- The part once the answer of the docket in hand has been written, before DOCKET is set (R149 steps 3 to 5). -/
def Part.answeredWith (p : Part) (d : InHand) (a : Answer) : Part := { p with
  host := (p.host.write hostBlank (p.slotAddr d.slot + 48).toNat
    (a.bytes (p.jnc.journal == .failed && !d.durable))).write hostBlank (p.slotAddr d.slot).toNat [3]
  ctu := { p.ctu with list := none }
  exi := { p.exi with inHand := none, cursor := (p.exi.cursor + 1) % p.docketCount, headerMark := true } }

theorem Part.answered_eq {d : InHand} {a : Answer} {p : Part} (ready : p.readyAnswer = some (d, a))
    (kept : d.givenUp = false)
    (power : p.tbu.powerFail = false) (open_ : p.jnc.closing = none) : p.answered =
      some (if d.notify then (p.answeredWith d a).raise .docket else p.answeredWith d a) := by
  simp only [Part.answered, ready, kept, power, open_, Option.isSome_none, Bool.false_eq_true, or_self, if_false]
  rfl

theorem Part.answered_givenUp {d : InHand} {a : Answer} {p : Part} (ready : p.readyAnswer = some (d, a))
    (dropped : d.givenUp = true) : p.answered = some p.dropDocket := by
  simp only [Part.answered, ready, dropped, if_true]

/-- After the answer the sweep goes on: no fault and no reset has waited for it. -/
theorem Part.answerDocket_goesOn {p q : Part} (answered : p.answered = some q) (sound : q.exi.faultAfter = false)
    (stays : q.jnc.resetWaits = false) : p.answerDocket = q.nextDocket := by
  simp [Part.answerDocket, answered, sound, Jnc.resetDue, stays]

theorem Part.answerDocket_waits {p : Part} (waits : p.readyAnswer = none) : p.answerDocket = p := by
  simp only [Part.answerDocket, Part.answered, waits]

/-- Settles O20. -/
theorem answerWaitsThenWrites : Obligations.AnswerWaitsThenWrites := by
  refine ⟨fun s stores d a on => ?_, fun s stores d a on => ?_, fun s stores on => ?_⟩
  · intro p inHand finished kept held runs settled power open_ stays taking sound host cursor next bs request
    have ready := Part.readyAnswer_eq inHand finished held runs settled
    have answered := Part.answered_eq ready kept power open_
    obtain ⟨w, hw⟩ : ∃ w, w = if d.notify then (p.answeredWith d a).raise .docket else p.answeredWith d a := ⟨_, rfl⟩
    rw [← hw] at answered
    have eq : w = { p.answeredWith d a with exi := { (p.answeredWith d a).exi with
        cause := w.exi.cause, messages := w.exi.messages } } := by
      rw [hw]
      split
      · exact Part.raise_eq ..
      · rfl
    have goes : p.answerDocket = w.nextDocket := by
      refine Part.answerDocket_goesOn answered ?_ ?_
      · rw [eq]; exact sound
      · rw [eq]; exact stays
    have reads : w.readSlot = bs := by rw [eq]; rfl
    have free : w.exi.inHand = none := by rw [eq]; rfl
    have sweeps : w.exi.sweeping = p.exi.sweeping := by rw [eq]; rfl
    have takes : w.noTaking = false := by
      rw [eq]
      simp [Part.noTaking, Part.answeredWith, taking, power, open_]
    have notified (h : d.notify = true) : w.exi.cause.getLsbD 0 = true := by
      rw [hw, if_pos h]
      exact Part.raise_sets .docket _
    have silent (h : d.notify = false) : w.exi.cause = p.exi.cause ∧ w.exi.messages = p.exi.messages := by
      rw [hw, if_neg (by simp [h])]
      exact ⟨rfl, rfl⟩
    refine ⟨w.nextDocket, (exec_answerDocket on).trans (next_congr goes), ?_⟩
    have stops (still : p.exi.sweeping = false) : w.nextDocket = w := if_neg (by rw [sweeps, still]; decide)
    have sweeping (under : p.exi.sweeping = true) : w.nextDocket = w.sweep := by
      rw [Part.nextDocket, sweeps, under, takes]
      rfl
    have takesNext (posted : fieldAt bs 0 1 = 1) : w.sweep = w.takeDocket bs :=
      reads ▸ Part.sweep_takes free (by rw [reads]; exact posted)
    have endsSweep (other : fieldAt bs 0 1 ≠ 1) : w.sweep = w.idleSweep :=
        Part.sweep_ends free (by rw [reads]; exact other)
    have same : w.nextDocket.exi.cause = w.exi.cause ∧ w.nextDocket.exi.messages = w.exi.messages := by
      cases under : p.exi.sweeping with
      | false => rw [stops under]; exact ⟨rfl, rfl⟩
      | true =>
        rw [sweeping under]
        by_cases posted : fieldAt bs 0 1 = 1
        · rw [takesNext posted]; exact ⟨rfl, rfl⟩
        · rw [endsSweep posted]; exact ⟨rfl, rfl⟩
    rw [same.1, same.2]
    refine ⟨notified, silent, fun still => ?_, fun under single other => ?_, fun under posted => ?_⟩
    · rw [stops still]
      exact eq
    · rw [sweeping under, endsSweep other, Part.idleSweep, ← single]
      generalize w.exi.cause = cause, w.exi.messages = messages at eq ⊢
      rw [eq]
      rfl
    · rw [sweeping under, takesNext posted, Part.takeDocket_eq]
      generalize w.exi.cause = cause, w.exi.messages = messages at eq ⊢
      rw [eq]
      rfl
  · intro p inHand finished dropped held runs settled idle sound stays
    have ready := Part.readyAnswer_eq inHand finished held runs settled
    refine (exec_answerDocket on).trans (next_congr ?_)
    rw [Part.answerDocket_goesOn (Part.answered_givenUp ready dropped) sound stays]
    exact if_neg (by simp [Part.dropDocket, Part.setInHand, show _ = false from idle])
  · intro p alive waits
    refine (exec_answerDocket on).trans (next_congr ?_)
    exact Part.answerDocket_waits (Part.readyAnswer_waits alive waits)

end Sys2Proof.Machine

/-! ## Entry to RUNNING (O28) -/

namespace Sys2Proof.Machine

/-! ### What waking the part leaves -/

/-- What the entry to RUNNING leaves while it starts the probes, the groups and the doors. -/
structure Part.Wakes (p q : Part) : Prop where
  outside : p.sameOutside q
  closing : q.jnc.closing = p.jnc.closing
  engine : q.jnc.engine = p.jnc.engine
  lines : q.dou.lines = p.dou.lines
  config : ∀ z, (q.zone z).config = (p.zone z).config
  exi : q.exi = { p.exi with headerMark := q.exi.headerMark, zoneMarks := q.exi.zoneMarks, slotMarks := q.exi.slotMarks
                             rise := q.exi.rise, cause := q.exi.cause, messages := q.exi.messages }
  posts : p.exi.PostsIn q.exi

theorem Part.Wakes.refl (p : Part) : p.Wakes p := ⟨⟨rfl, rfl, rfl⟩, rfl, rfl, rfl, fun _ => rfl, rfl, .refl _⟩

theorem Part.Wakes.trans {p q r : Part} (h : p.Wakes q) (k : q.Wakes r) : p.Wakes r := by
  refine ⟨Part.sameOutside.trans h.outside k.outside, k.closing.trans h.closing, k.engine.trans h.engine,
    k.lines.trans h.lines, fun z => (k.config z).trans (h.config z), ?_, h.posts.trans k.posts⟩
  rw [k.exi, h.exi]

theorem Part.wakes_of_accounted {p q : Part} (h : p.accounted q) (posts : p.exi.PostsIn q.exi) : p.Wakes q :=
  ⟨h.sameOutside, h.2.2.2.1, h.engine, h.lines, h.config, by rw [h.1], posts⟩

theorem Part.wakes_setProbe (n : Fin 32) (r : Probe) (p : Part) : p.Wakes (p.setProbe n r) :=
  ⟨⟨rfl, rfl, rfl⟩, rfl, rfl, rfl, fun _ => rfl, rfl, .refl _⟩

theorem Part.wakes_setGroup (g : Fin 4) (r : PowerGroup) (p : Part) : p.Wakes (p.setGroup g r) :=
  ⟨⟨rfl, rfl, rfl⟩, rfl, rfl, rfl, fun _ => rfl, rfl, .refl _⟩

theorem Part.wakes_setDoor (z : Fin 64) (r : DoorRecord) (p : Part) : p.Wakes (p.setDoor z r) :=
  ⟨⟨rfl, rfl, rfl⟩, rfl, rfl, rfl, fun _ => rfl, rfl, .refl _⟩

theorem Part.posts_reportStale {z : Fin 64} {t : Nat} {reach : Reach} {p : Part} (open_ : p.jnc.closing = none) :
    p.exi.PostsIn (p.reportStale z t reach).exi := by
  have told := p.accounted_setZone z { p.zone z with stale := true } rfl rfl
  have handed (c : Bool) (q : Part) : q.Reevaluates (if c then q.handRise else q) := by
    split
    · exact q.reevaluates_handRise
    · exact .refl q
  have rise := handed (!(p.zone z).stale) (p.setZone z { p.zone z with stale := true })
  exact (p.posts_setZone z _).trans (rise.trans
    (Part.reevaluates_trigger .reading z t false reach (rise.closing (told.closing open_)))).posts

theorem Part.wakes_reportStales (zs : List (Fin 64)) (reach : Reach) {p : Part} (open_ : p.jnc.closing = none) :
    p.Wakes (zs.foldl (fun p z => p.reportStale z p.now reach) p) := by
  induction zs generalizing p with
  | nil => exact .refl p
  | cons z zs ih =>
    have first := Part.wakes_of_accounted (Part.accounted_reportStale z p.now reach open_)
        (Part.posts_reportStale open_)
    exact first.trans (ih (first.closing.trans open_))

/-! ### The probes -/

/-- The record of a probe that starts at the entry to RUNNING (R75). -/
def Probe.started (t : Nat) (r : Probe) : Probe :=
  match r.config with
  | some c => { (r.startOver c t).restartTimer with staleReported := false }
  | none => r

theorem Probe.started_config (t : Nat) (r : Probe) : (r.started t).config = r.config := by
  unfold Probe.started
  split
  · next configured => exact configured.symm
  · rfl

theorem Probe.started_eq {c : ProbeConfig} {t : Nat} {r : Probe} (configured : r.config = some c) : r.started t =
    { r with
    state := .doubtful, held := none, lastCount := none, failures := 0, readingTime := none
    staleTime := t + 3 * c.interval, pollTimer := c.interval * 1000, lastFailure := none, late := 0
    staleReported := false } := by
  cases r
  cases configured
  rfl

/-- The first pass of `startProbes`: each configured probe starts over. -/
def Part.startConfigured (ns : List (Fin 32)) (p : Part) : Part :=
  ns.foldl (fun p n => p.setProbe n ((p.probe n).started p.now)) p

theorem Part.startConfigured_spec (ns : List (Fin 32)) (distinct : ns.Nodup) (p : Part) :
    p.Wakes (p.startConfigured ns) ∧ (p.startConfigured ns).prc.groups = p.prc.groups ∧
      ∀ n, (p.startConfigured ns).probe n = if n ∈ ns then (p.probe n).started p.now else p.probe n := by
  induction ns generalizing p with
  | nil => exact ⟨.refl p, rfl, fun n => rfl⟩
  | cons m ns ih =>
    rw [List.nodup_cons] at distinct
    obtain ⟨wakes, groups, own⟩ := ih distinct.2 (p.setProbe m ((p.probe m).started p.now))
    refine ⟨(p.wakes_setProbe m _).trans wakes, groups, fun n => (own n).trans ?_⟩
    have now : (p.setProbe m ((p.probe m).started p.now)).now = p.now := rfl
    rw [now]
    by_cases here : m = n
    · subst here
      rw [Part.probe_setProbe_self, if_neg distinct.1, if_pos List.mem_cons_self]
    · rw [Part.probe_setProbe_of_ne here]
      simp [Ne.symm here]

/-- The second pass of `startProbes`: the zones of each probe that is OFF are told. -/
def Part.reportOff (ns : List (Fin 32)) (p : Part) : Part :=
  ns.foldl (fun p n =>
    if (p.probe n).config.isNone then
      let p := p.setProbe n { p.probe n with staleReported := true }
      (p.zonesOfProbe n).foldl (fun p z => p.reportStale z p.now none) p
    else p) p

theorem Part.reportOff_spec (ns : List (Fin 32)) {p : Part} (open_ : p.jnc.closing = none) :
    p.Wakes (p.reportOff ns) ∧ (p.reportOff ns).prc.groups = p.prc.groups ∧
      ∀ n, (p.probe n).config ≠ none → (p.reportOff ns).probe n = p.probe n := by
  induction ns generalizing p with
  | nil => exact ⟨.refl p, rfl, fun _ _ => rfl⟩
  | cons m ns ih =>
    unfold Part.reportOff
    rw [List.foldl_cons]
    by_cases off : (p.probe m).config.isNone = true
    · obtain ⟨q, hq⟩ : ∃ q, q = p.setProbe m { p.probe m with staleReported := true } := ⟨_, rfl⟩
      have open' : q.jnc.closing = none := by rw [hq]; exact open_
      have accounted := Part.accounted_reportStales (q.zonesOfProbe m) none open'
      have tells := Part.wakes_reportStales (q.zonesOfProbe m) none open'
      obtain ⟨wakes, groups, keeps⟩ := ih (tells.closing.trans open')
      have first : p.Wakes q := hq ▸ p.wakes_setProbe m _
      rw [if_pos off]
      dsimp only
      rw [← hq]
      refine ⟨first.trans (tells.trans wakes), ?_, fun n configured => ?_⟩
      · refine groups.trans ?_
        rw [accounted.prc, hq]
        rfl
      · have other : m ≠ n := fun same => configured (by rw [← same]; exact Option.isNone_iff_eq_none.1 off)
        have same : q.probe n = p.probe n := by rw [hq, Part.probe_setProbe_of_ne other]
        refine (keeps n (by rw [accounted.probe, same]; exact configured)).trans ?_
        rw [accounted.probe, same]
    · rw [if_neg off]
      exact ih open_

theorem Part.startProbes_eq (p : Part) :
    p.startProbes = (p.startConfigured (List.finRange 32)).reportOff (List.finRange 32) := by
  have step (p : Part) (n : Fin 32) : (match (p.probe n).config with
      | some c => p.setProbe n { ((p.probe n).startOver c p.now).restartTimer with staleReported := false }
      | none => p) = p.setProbe n ((p.probe n).started p.now) := by
    unfold Probe.started
    split
    · rfl
    · simp [Part.setProbe, Part.probe]
  have passes : (fun (p : Part) n => match (p.probe n).config with
      | some c => p.setProbe n { ((p.probe n).startOver c p.now).restartTimer with staleReported := false }
      | none => p) = fun p n => p.setProbe n ((p.probe n).started p.now) := funext₂ step
  exact congrArg (fun f => ((List.finRange 32).foldl f p).reportOff (List.finRange 32)) passes

theorem Part.startProbes_spec {p : Part} (open_ : p.jnc.closing = none) : p.Wakes p.startProbes ∧
    p.startProbes.prc.groups = p.prc.groups ∧
      ∀ n, (p.probe n).config ≠ none → p.startProbes.probe n = (p.probe n).started p.now := by
  obtain ⟨starts, groups, own⟩ := p.startConfigured_spec (List.finRange 32) (List.nodup_finRange 32)
  obtain ⟨tells, groups', keeps⟩ := Part.reportOff_spec (List.finRange 32) (starts.closing.trans open_)
  rw [Part.startProbes_eq]
  refine ⟨starts.trans tells, groups'.trans groups, fun n configured => ?_⟩
  have started := own n
  rw [if_pos (List.mem_finRange n)] at started
  rw [keeps n (by rw [started, Probe.started_config]; exact configured), started]

/-! ### The groups -/

theorem Part.switchOnSteady_spec (p : Part) : p.Wakes p.switchOnSteady ∧ p.switchOnSteady.prc.probes = p.prc.probes ∧
    ∀ g, (p.group g).cycled = false → (p.switchOnSteady.group g).on = true := by
  have each (gs : List (Fin 4)) (p : Part) :
      let q := gs.foldl (fun p g =>
        let r := p.group g
        if r.cycled || r.on then p else p.setGroup g { r with on := true, ready := r.lead }) p
      p.Wakes q ∧ q.prc.probes = p.prc.probes ∧ ∀ g, (p.group g).cycled = false →
        (q.group g).cycled = false ∧ ((p.group g).on = true ∨ g ∈ gs → (q.group g).on = true) := by
    induction gs generalizing p with
    | nil => exact ⟨.refl p, rfl, fun g steady => ⟨steady, fun h => h.elim id nofun⟩⟩
    | cons h gs ih =>
      rw [List.foldl_cons]
      dsimp only
      by_cases stays : ((p.group h).cycled || (p.group h).on) = true
      · rw [if_pos stays]
        obtain ⟨wakes, probes, own⟩ := ih p
        refine ⟨wakes, probes, fun g steady => ⟨(own g steady).1, fun was => (own g steady).2 ?_⟩⟩
        obtain on | listed := was
        · exact .inl on
        · obtain rfl | later := List.mem_cons.1 listed
          · exact .inl (by simpa [steady] using stays)
          · exact .inr later
      · rw [if_neg stays]
        obtain ⟨wakes, probes, own⟩ := ih (p.setGroup h { p.group h with on := true, ready := (p.group h).lead })
        refine ⟨(p.wakes_setGroup h _).trans wakes, probes, fun g steady => ?_⟩
        have group := Part.group_setGroup h g { p.group h with on := true, ready := (p.group h).lead } p
        obtain ⟨cycled, on⟩ := own g (by
          rw [group]
          split
          · next same => rw [same]; exact steady
          · exact steady)
        refine ⟨cycled, fun was => on ?_⟩
        rw [group]
        obtain was | listed := was
        · exact .inl (by split <;> [rfl; exact was])
        · obtain rfl | later := List.mem_cons.1 listed
          · exact .inl (by rw [if_pos rfl])
          · exact .inr later
  obtain ⟨wakes, probes, own⟩ := each (List.finRange 4) p
  exact ⟨wakes, probes, fun g steady => (own g steady).2 (.inr (List.mem_finRange g))⟩

/-! ### The doors -/

/-- The door record of a zone as its lines give it (R95). -/
def Part.doorNow (p : Part) (z : Fin 64) : DoorRecord :=
  { isOpen := p.anyLineOpen z, since := if p.anyLineOpen z then some p.now else none, ajar := false }

theorem Part.Wakes.doorNow {p q : Part} (h : p.Wakes q) (z : Fin 64) : q.doorNow z = p.doorNow z := by
  have now : q.now = p.now := congrArg Tbu.counter h.outside.2.2
  rw [Part.doorNow, Part.doorNow, Part.anyLineOpen_congr h.lines, now]

theorem Part.startDoors_spec {p : Part} (open_ : p.jnc.closing = none) : p.Wakes p.startDoors ∧
    p.startDoors.prc = p.prc ∧ ∀ z, p.startDoors.door z = p.doorNow z := by
  have one (z : Fin 64) {p : Part} (open_ : p.jnc.closing = none) :
      let q := p.setDoor z (p.doorNow z)
      let r := if (List.finRange 16).any fun n => (q.line n).zone == some z then q.reportDoor z (p.anyLineOpen z) q.now none
        else q.setZone z { q.zone z with doorOpen := false }
      q.accounted r ∧ q.exi.PostsIn r.exi := by
    intro q r
    by_cases bound : ((List.finRange 16).any fun n => (q.line n).zone == some z) = true
    · have told : r = q.reportDoor z (p.anyLineOpen z) q.now none := if_pos bound
      rw [told]
      exact ⟨Part.accounted_reportDoor _ _ _ _ open_, Part.posts_reportDoor open_⟩
    · have told : r = q.setZone z { q.zone z with doorOpen := false } := if_neg bound
      rw [told]
      exact ⟨q.accounted_setZone _ _ rfl rfl, q.posts_setZone ..⟩
  have each (zs : List (Fin 64)) {p : Part} (open_ : p.jnc.closing = none) :
      let q := zs.foldl (fun p z =>
        let isOpen := p.anyLineOpen z
        let p := p.setDoor z { isOpen := isOpen, since := if isOpen then some p.now else none, ajar := false }
        if (List.finRange 16).any fun n => (p.line n).zone == some z then p.reportDoor z isOpen p.now none
        else p.setZone z { p.zone z with doorOpen := false }) p
      p.Wakes q ∧ q.prc = p.prc ∧ ∀ z, q.door z = if z ∈ zs then p.doorNow z else p.door z := by
    induction zs generalizing p with
    | nil => exact ⟨.refl p, rfl, fun _ => rfl⟩
    | cons y zs ih =>
      obtain ⟨accounted, posts⟩ := one y open_
      have wakes := (p.wakes_setDoor y (p.doorNow y)).trans (Part.wakes_of_accounted accounted posts)
      obtain ⟨rest, prc, doors⟩ := ih (wakes.closing.trans open_)
      refine ⟨wakes.trans rest, prc.trans accounted.prc, fun z => (doors z).trans ?_⟩
      rw [accounted.door, wakes.doorNow, Part.door_setDoor]
      by_cases here : y = z
      · simp [here]
      · simp [here, Ne.symm here]
  obtain ⟨wakes, prc, doors⟩ := each (List.finRange 64) open_
  exact ⟨wakes, prc, fun z => (doors z).trans (if_pos (List.mem_finRange z))⟩

/-! ### The entry -/

/-- The part `q` is `p` as it enters RUNNING. -/
structure Part.Enters (p q : Part) : Prop where
  outside : p.sameOutside q
  engine : q.jnc.engine = .running
  closing : q.jnc.closing = p.jnc.closing
  cause : q.exi.cause.getLsbD 2 = true
  exi : q.exi = { p.exi with headerMark := q.exi.headerMark, zoneMarks := q.exi.zoneMarks, slotMarks := q.exi.slotMarks
                             rise := q.exi.rise, cause := q.exi.cause, messages := q.exi.messages }
  probes : ∀ n, (p.probe n).config ≠ none → q.probe n = (p.probe n).started p.now
  groups : ∀ g, (p.group g).cycled = false → (q.group g).on = true
  doors : ∀ z, q.door z = p.doorNow z
  lines : ∀ n, q.line n = p.line n
  config : ∀ z, (q.zone z).config = (p.zone z).config

theorem Part.enters_nowRunning {p : Part} (open_ : p.jnc.closing = none) (waits : p.jnc.engine ≠ .running) :
    p.Enters p.nowRunning := by
  obtain ⟨w, hw⟩ : ∃ w, w = (p.onJnc fun j => { j with restore := none, sinceMark := 0 }).setEngine .running := ⟨_, rfl⟩
  have raised : w = (Part.postHeader { p with jnc := { p.jnc with
      restore := none, sinceMark := 0, engine := .running } }).raise .engine := hw.trans (if_neg waits)
  have cause : w.exi.cause.getLsbD 2 = true := by
    rw [raised]
    exact Part.raise_sets .engine _
  have frame : w = { p with
      jnc := { p.jnc with restore := none, sinceMark := 0, engine := .running }
      exi := { p.exi with headerMark := true, cause := w.exi.cause, messages := w.exi.messages } } := by
    rw [raised, Part.raise_eq]
    rfl
  have wOpen : w.jnc.closing = none := by rw [frame]; exact open_
  obtain ⟨probes, groups, started⟩ := Part.startProbes_spec wOpen
  obtain ⟨steady, kept, on⟩ := w.startProbes.switchOnSteady_spec
  obtain ⟨doors, prc, records⟩ := Part.startDoors_spec (p := w.startProbes.switchOnSteady)
    (steady.closing.trans (probes.closing.trans wOpen))
  have wakes := probes.trans (steady.trans doors)
  have enters : p.nowRunning = w.startProbes.switchOnSteady.startDoors := by rw [hw]; rfl
  rw [enters]
  refine ⟨?_, ?_, ?_, wakes.posts.cause .engine cause, ?_, fun n configured => ?_, fun g cycled => ?_, fun z => ?_,
    fun n => ?_,
    fun z => ?_⟩
  · exact Part.sameOutside.trans (by rw [frame]; exact ⟨rfl, rfl, rfl⟩) wakes.outside
  · rw [wakes.engine, frame]
  · rw [wakes.closing, frame]
  · refine wakes.exi.trans ?_
    rw [frame]
  · have stays : w.probe n = p.probe n ∧ w.now = p.now := by rw [frame]; exact ⟨rfl, rfl⟩
    have last : w.startProbes.switchOnSteady.startDoors.probe n = w.startProbes.probe n := by
      rw [Part.probe, prc, kept]
      rfl
    rw [last, started n (by rw [stays.1]; exact configured), stays.1, stays.2]
  · have stays : w.startProbes.group g = p.group g := by
      rw [Part.group, groups, frame]
      rfl
    have last : w.startProbes.switchOnSteady.startDoors.group g = w.startProbes.switchOnSteady.group g := by
      rw [Part.group, prc]
      rfl
    rw [last]
    exact on g (by rw [stays]; exact cycled)
  · rw [records, (probes.trans steady).doorNow, frame]
    rfl
  · rw [Part.line, wakes.lines, frame]
    rfl
  · rw [wakes.config, frame]
    rfl

/-! ### ENTER_RUNNING -/

theorem exec_enterRunning {s : State} {stores : Stores} (on : s.part.tbu.mainPower = true) :
    exec (.enterRunning stores) s = .next (s.withPart (s.part.hostStores stores).enterRunning) :=
  exec_of_powered (f := fun p => (p.hostStores stores).enterRunning) rfl on rfl

theorem Part.samplesTaken_iff {p : Part} : p.samplesTaken = true ↔ ∀ n, (p.line n).sample = none := by
  simp [Part.samplesTaken]

theorem Part.mayRun_iff {r : RestoreRecord} {p : Part} (engine : p.jnc.engine = .restoring ∨ p.jnc.engine = .awaitTime)
    (taken : ∀ n, (p.line n).sample = none) (restore : p.jnc.restore = some r) (reconciled : r.reconciled = true) :
    p.mayRun = true ↔ ((p.jnc.journal = .resync → p.jnc.dropTime = none) ∧
      ∀ e ∈ p.jnc.queue, ∀ t, e.payload ≠ .dropMark t) ∧ (p.exi.intake = .on → p.exi.marked = false) := by
  have waits : (p.jnc.engine == .restoring || p.jnc.engine == .awaitTime) = true := by simpa using engine
  have mark (e : Staged) : (match e.payload with
      | .dropMark _ => true
      | _ => false) = true ↔ ∃ t, e.payload = .dropMark t := by
    cases e.payload <;> simp
  simp only [Part.mayRun, waits, Part.samplesTaken_iff.2 taken, restore, reconciled, Bool.true_and, Bool.and_eq_true,
    Bool.not_eq_true', Bool.or_eq_true, bne_iff_ne, Ne, ← imp_iff_not_or]
  refine and_congr ?_ .rfl
  rw [Jnc.awaitsDropMark, Bool.or_eq_false_iff, Bool.and_eq_false_iff]
  refine and_congr ?_ ?_
  · cases p.jnc.dropTime <;> simp
  · rw [List.any_eq_false]
    refine forall₂_congr fun e _ => (not_congr (mark e)).trans not_exists

/-- Settles O28. -/
theorem enterRunningStartsProbesAndDoors : Obligations.EnterRunningStartsProbesAndDoors := by
  refine ⟨fun s stores r on => ?_, fun s stores on => ?_⟩
  · intro p engine taken restore reconciled open_ single committed written
    have mayRun := Part.mayRun_iff engine taken restore reconciled
    refine ⟨fun not => ?_, fun c w => ?_⟩
    · exact (exec_enterRunning on).trans (next_congr (if_neg fun runs => not (mayRun.1 runs)))
    · have waits : p.jnc.engine ≠ .running := by
        obtain h | h := engine <;> rw [h] <;> decide
      have enters := Part.enters_nowRunning open_ waits
      have stops : p.nowRunning.leaveRestoring = p.nowRunning := by
        have none_ : p.nowRunning.dueSweep = none := if_neg fun due => by
          have := due.2.2.1
          rw [enters.exi, single] at this
          cases this
        simp only [Part.leaveRestoring, none_]
      have runs : p.enterRunning = p.nowRunning := by
        rw [Part.enterRunning, if_pos (mayRun.2 ⟨c, w⟩), stops, ite_self]
      refine ⟨p.nowRunning, (exec_enterRunning on).trans (next_congr runs), enters.outside, enters.engine, enters.cause,
        fun n c configured => ?_, enters.groups, fun z => ?_, enters.lines, enters.config⟩
      · rw [enters.probes n (by rw [configured]; nofun), Probe.started_eq configured]
      · rw [enters.doors]
        exact ⟨rfl, rfl, rfl⟩
  · intro p bs engine mayRun open_ power intake stays free idle asked posted
    have enters := Part.enters_nowRunning open_ (by rw [engine]; decide)
    obtain ⟨n, hn⟩ : ∃ n, n = p.nowRunning := ⟨_, rfl⟩
    rw [← hn] at enters
    have exi := enters.exi
    obtain ⟨w, hw⟩ : ∃ w : Part, w = { n with exi := { n.exi with extraPass := false, sweeping := true } } := ⟨_, rfl⟩
    have due : n.dueSweep = some { n with exi := { n.exi with extraPass := false } } := by
      refine if_pos ⟨by rw [enters.engine]; decide, ?_, ?_, ?_⟩
      · rw [exi]; exact intake
      · rw [exi]; exact asked
      · rw [exi]; exact idle
    have taking : n.noTaking = false := by
      simp only [Part.noTaking, enters.closing, open_, enters.outside.2.2, power]
      rw [exi, stays]
      rfl
    have begins : n.leaveRestoring = w.sweep := by
      simp only [Part.leaveRestoring, due]
      rw [hw]
      exact if_neg (Bool.eq_false_iff.1 taking)
    have slot : w.slotAddr w.exi.cursor = p.slotAddr p.exi.cursor := by
      rw [hw]
      show n.slotAddr n.exi.cursor = _
      rw [Part.slotAddr, Part.areaAddr, Part.exbase, exi]
      rfl
    have reads : w.readSlot = bs := by
      rw [Part.readSlot, slot, Part.hostRead, hw]
      show Memory.readBlock hostBlank n.host _ _ = _
      rw [enters.outside.1]
      rfl
    have enters' : p.enterRunning = w.takeDocket bs := by
      rw [Part.enterRunning, if_pos mayRun, if_pos engine, ← hn, begins,
        Part.sweep_takes (by rw [hw, exi]; exact free) (by rw [reads]; exact posted), reads]
    refine ⟨_, (exec_enterRunning on).trans (next_congr enters'), ?_, ?_, ?_, ?_, ?_⟩
    · rw [Part.takeDocket_eq, hw]
      exact enters.engine
    · rw [Part.takeDocket_eq, hw]
    · rw [Part.takeDocket_eq, hw]
    · rw [Part.takeDocket_eq, slot, hw]
      exact congrArg (fun h => Memory.write hostBlank h _ _) enters.outside.1
    · have cursor : w.exi.cursor = p.exi.cursor := by rw [hw, exi]
      have runs : w.jnc.engine = .running := by rw [hw]; exact enters.engine
      rw [Part.takeDocket_eq, Part.taken, ← judge_eq, runs, cursor]

end Sys2Proof.Machine

/-! ## Failed accesses (O21) -/

namespace Sys2Proof.Machine

theorem exec_hostAccessFailure {s : State} {a : FailedAccess} {stores : Stores} (on : s.part.tbu.mainPower = true) :
    exec (.hostAccessFailure ⟨a, stores⟩) s = .next (s.withPart ((s.part.hostStores stores).hostAccessFails a)) :=
  exec_of_powered (f := fun p => (p.hostStores stores).hostAccessFails a) rfl on rfl

/-! ### What a failed access does -/

/-- The part `q` is `p` with `e` as its interface, ACCESS set and intake in ACCESS_FAULT (R156). -/
def Part.Faults (p q : Part) (e : Exi) : Prop := q.exi.cause.getLsbD 3 = true ∧ q = { p with
  host := q.host
  exi := { e with intake := .accessFault, turnOff := false, faultAfter := false, sweeping := false, extraPass := false
                  sweepTimer := none, timeWrite := none, cause := q.exi.cause, messages := q.exi.messages } }

/-- With no docket in hand, a failed access takes an intake that is ON to ACCESS_FAULT. -/
theorem Part.accessFailed_idle {p : Part} (intake : p.exi.intake = .on) (free : p.exi.inHand = none) :
    p.Faults p.accessFailed p.exi ∧ p.accessFailed.host = p.host ∧ p.exi.PostsIn p.accessFailed.exi := by
  have fails : p.accessFailed = (p.raise .access).enterAccessFault := by
    have keeps : (p.raise .access).exi.intake = .on ∧ (p.raise .access).exi.inHand = none := by
      rw [Part.raise_eq]
      exact ⟨intake, free⟩
    simp only [Part.accessFailed, keeps, if_true]
  have posts := (p.reevaluates_raise .access).posts
  rw [fails]
  refine ⟨⟨Part.raise_sets .access p, ?_⟩, ?_, ⟨posts.zones, posts.slots, posts.rise, posts.cause⟩⟩
  · rw [Part.enterAccessFault, Part.raise_eq]
  · rw [Part.enterAccessFault, Part.raise_eq]

/-- With a docket in hand, the fault waits for it. -/
theorem Part.accessFailed_held {d : InHand} {p : Part} (intake : p.exi.intake = .on) (held : p.exi.inHand = some d) :
    p.accessFailed.exi.cause.getLsbD 3 = true ∧ p.accessFailed = { p with exi := { p.exi with
      faultAfter := true, cause := p.accessFailed.exi.cause, messages := p.accessFailed.exi.messages } } := by
  have fails : p.accessFailed = { p.raise .access with exi := { (p.raise .access).exi with faultAfter := true } } := by
    have keeps : (p.raise .access).exi.intake = .on ∧ (p.raise .access).exi.inHand = some d := by
      rw [Part.raise_eq]
      exact ⟨intake, held⟩
    simp only [Part.accessFailed, keeps, if_true]
  rw [fails]
  refine ⟨Part.raise_sets .access p, ?_⟩
  rw [Part.raise_eq]

/-! ### A sweep's reads -/

theorem Part.maySweep_of {p : Part} (intake : p.exi.intake = .on) (free : p.exi.inHand = none)
    (taking : p.noTaking = false)
    (left : p.jnc.engine ≠ .restoring) : p.maySweep = true := by
  simp [Part.maySweep, intake, free, taking, left]

theorem Part.atSlotRead_asked {p : Part} (free : p.exi.inHand = none) (may : p.maySweep = true) :
    p.atSlotRead .asked = some p := by
  simp only [Part.atSlotRead, free, may, Option.isNone_none, if_true]

/-- A failed read of a slot, and a failed TAKEN write of a POSTED one. -/
theorem Part.sweepFails {origin : SweepOrigin} {p q : Part} (at_ : p.atSlotRead origin = some q) :
    p.hostAccessFails (.slotRead origin) = q.accessFailed ∧
      (fieldAt q.readSlot 0 1 = 1 → p.hostAccessFails (.takenWrite origin) = q.accessFailed) := by
  refine ⟨?_, fun posted => ?_⟩
  · simp only [Part.hostAccessFails, at_]
  · simp only [Part.hostAccessFails, at_, ownerPosted_iff.2 posted, if_true]

/-- A sweep asked for in RESTORING, as the engine has left that state. -/
theorem Part.dueSweep_eq {p : Part} (left : p.jnc.engine ≠ .restoring) (intake : p.exi.intake = .on)
    (asked : p.exi.extraPass = true) (idle : p.exi.sweeping = false) :
    p.dueSweep = some { p with exi := { p.exi with extraPass := false } } :=
  if_pos ⟨left, intake, asked, idle⟩

/-- The fault that such a sweep meets is that of the part as the engine left RESTORING. -/
theorem Part.accessFailed_due {p : Part} (intake : p.exi.intake = .on) (free : p.exi.inHand = none) :
    let q := Part.accessFailed { p with exi := { p.exi with extraPass := false } }
    p.Faults q p.exi ∧ q.host = p.host ∧ ∀ c : IrqCause, p.exi.cause.getLsbD c.bit = true →
      q.exi.cause.getLsbD c.bit = true := by
  intro q
  obtain ⟨⟨access, eq⟩, host, posts⟩ :=
    Part.accessFailed_idle (p := { p with exi := { p.exi with extraPass := false } }) intake free
  exact ⟨⟨access, eq⟩, host, posts.cause⟩

theorem Part.noTaking_eq_false {p : Part} (stays : p.exi.turnOff = false) (power : p.tbu.powerFail = false)
    (open_ : p.jnc.closing = none) : p.noTaking = false := by simp [Part.noTaking, stays, power, open_]

theorem Part.atSlotRead_restored {id : Byte} {p : Part} (restoring : p.jnc.engine = .restoring)
    (intact : p.jnc.restore = none) (begins : id ≠ 0x00#8 ∧ id ≠ 0xFF#8) (unformatted : p.flash.formatEntry = none)
    (intake : p.exi.intake = .on) (asked : p.exi.extraPass = true) (idle : p.exi.sweeping = false)
    (free : p.exi.inHand = none) (taking : p.noTaking = false) : ∃ w : Part,
      p.atSlotRead (.restored id) = some { w with exi := { w.exi with extraPass := false } } ∧
      w.exi.cause.getLsbD 2 = true ∧ w = { p with
        jnc := { p.jnc with engine := .blank }, flash := { p.flash with idByte := id }
        exi := { p.exi with headerMark := true, cause := w.exi.cause, messages := w.exi.messages } } := by
  obtain ⟨w, hw⟩ : ∃ w, w = Part.raise .engine (Part.postHeader { p with
    jnc := { p.jnc with engine := .blank }, flash := { p.flash with idByte := id } }) := ⟨_, rfl⟩
  have restored : p.restored id = w := by
    have identified : Flash.identified { p.flash with idByte := id } = true := by simp [Flash.identified, begins]
    have none_ : Flash.formatEntry { p.flash with idByte := id } = none := unformatted
    simp only [Part.restored, Part.restoreFlash, identified, none_, Bool.not_true, Bool.false_eq_true, if_false]
    rw [hw]
    exact if_neg (by rw [restoring]; decide)
  have frame : w = { p with
      jnc := { p.jnc with engine := .blank }, flash := { p.flash with idByte := id }
      exi := { p.exi with headerMark := true, cause := w.exi.cause, messages := w.exi.messages } } := by
    rw [hw, Part.raise_eq]
    rfl
  refine ⟨w, ?_, by rw [hw]; exact Part.raise_sets .engine _, frame⟩
  have due : w.dueSweep = some { w with exi := { w.exi with extraPass := false } } := by
    rw [frame]
    exact Part.dueSweep_eq nofun intake asked idle
  have may : p.mayRestore = true := by simp [Part.mayRestore, restoring, intact]
  simp only [Part.atSlotRead, may, restored, due, if_true, Option.filter_some]
  refine if_pos ?_
  rw [frame]
  show (p.exi.inHand.isNone && !p.noTaking) = true
  rw [free, taking]
  rfl

theorem Part.atSlotRead_entered {p : Part} (restoring : p.jnc.engine = .restoring) (runs : p.mayRun = true)
    (open_ : p.jnc.closing = none) (intake : p.exi.intake = .on) (asked : p.exi.extraPass = true)
    (idle : p.exi.sweeping = false) (free : p.exi.inHand = none) (taking : p.noTaking = false) :
    p.atSlotRead .entered = some { p.nowRunning with exi := { p.nowRunning.exi with extraPass := false } } := by
  have enters := Part.enters_nowRunning open_ (by rw [restoring]; decide)
  have at_ : p.atSlotRead .entered = p.nowRunning.dueSweep.filter fun q => q.exi.inHand.isNone && !q.noTaking := by
    simp only [Part.atSlotRead, runs, restoring, Bool.true_and, beq_self_eq_true, if_true]
  rw [at_]
  generalize p.nowRunning = n at enters
  have due : n.dueSweep = some { n with exi := { n.exi with extraPass := false } } := by
    refine Part.dueSweep_eq (by rw [enters.engine]; decide) ?_ ?_ ?_
    · rw [enters.exi]; exact intake
    · rw [enters.exi]; exact asked
    · rw [enters.exi]; exact idle
  have takes : n.noTaking = false := by
    rw [← taking, Part.noTaking, enters.closing, enters.outside.2.2, enters.exi]
    rfl
  have handless : n.exi.inHand = none := by rw [enters.exi]; exact free
  rw [due, Option.filter_some]
  refine if_pos ?_
  show (n.exi.inHand.isNone && !n.noTaking) = true
  rw [handless, takes]
  rfl

/-! ### A failed access for the docket in hand -/

/-- The docket is answered BUS_ERROR, and the fault waits for it. -/
theorem Part.busError_held {d : InHand} {p : Part} (intake : p.exi.intake = .on) (inHand : p.exi.inHand = some d) :
    let q := (p.refuseDocket .busError).accessFailed
    q.exi.cause.getLsbD 3 = true ∧ q = { p with exi := { p.exi with
      inHand := some { d with stage := .finished (plainAnswer .busError) }, faultAfter := true
      cause := q.exi.cause, messages := q.exi.messages } } := by
  intro q
  obtain ⟨w, hw⟩ : ∃ w, w = p.refusedWith d .busError := ⟨_, rfl⟩
  have fails : q = w.accessFailed := by
    rw [hw]
    exact congrArg Part.accessFailed (Part.refuseDocket_spec inHand .busError)
  obtain ⟨access, eq⟩ := Part.accessFailed_held (p := w) (d := { d with stage := .finished (plainAnswer .busError) })
    (by rw [hw]; exact intake) (by rw [hw]; rfl)
  rw [fails]
  refine ⟨access, ?_⟩
  generalize w.accessFailed = r at eq
  rw [eq, hw]
  rfl

/-- R38: a QUERY in RUNNING whose report fails: the settle stands. -/
theorem Part.queryDocket_fails {a : QueryArgs} {i : Fin 2048} {c : Container} {p : Part} {d : InHand}
    (good : addrOk a.reply 64 = true) (named : p.lookup a.id = some (i, c)) (live : p.slot i = some c)
    (still : (p.zone c.zone).change = none) (open_ : p.jnc.closing = none) (inHand : p.exi.inHand = some d)
    (running : p.jnc.engine = .running) (intake : p.exi.intake = .on) :
    let settled := (settleRecord (p.classDef c.cls) p.now c).1
    let derived := (p.deriveRecord true settled).1
    let q := p.queryDocket a true
    q.exi.cause.getLsbD 3 = true ∧ q.exi.inHand = some { d with stage := .finished (plainAnswer .busError) } ∧
      q.exi.faultAfter = true ∧ q.exi.intake = .on ∧ q.exi.timeWrite = p.exi.timeWrite ∧ p.sameOutside q ∧
      p.sameOtherSlots i q ∧ ∃ b, q.slot i = some { derived with dirty := b } := by
  intro settled derived q
  obtain ⟨r, settles, commits⟩ := Part.settleSlot_commits live still p.now
  have marks (b : Bool) : r.Marks i (if b then r.offerDocket (.image i) else r) := by
    split
    · exact Part.marks_offerDocket ((congrArg Jnc.closing commits.jnc).trans open_)
    · exact .refl ..
  obtain ⟨w, hw⟩ : ∃ w, w = if ((settleRecord (p.classDef c.cls) p.now c).2 || (p.deriveRecord true settled).2) =
      true then
    r.offerDocket (.image i) else r := ⟨_, rfl⟩
  have marked : r.Marks i w := hw ▸ marks _
  have reports : q = (w.refuseDocket .busError).accessFailed := by
    show p.queryDocket a true = _
    simp only [Part.queryDocket, good, named, running, settles, Bool.not_true, Bool.false_eq_true, if_false, if_true,
      Part.reportContainer]
    rw [hw]
  have exi : w.exi.intake = .on ∧ w.exi.timeWrite = p.exi.timeWrite := by
    rw [marked.eq, commits.eq]
    exact ⟨intake, rfl⟩
  obtain ⟨access, eq⟩ := Part.busError_held exi.1 (marked.inHand.trans (commits.inHand.trans inHand))
  rw [← reports] at access eq
  obtain ⟨b, own⟩ := marked.own _ commits.own
  have outside := commits.sameOutside.trans marked.sameOutside
  refine ⟨access, ?_, ?_, ?_, ?_, ?_, fun j other => ?_, b, ?_⟩
  all_goals rw [eq]
  · exact exi.1
  · exact exi.2
  · exact outside
  · exact (commits.others.trans marked.others) j other
  · exact own

/-! ### A movement list cut short -/

/-- R116: the images of the touched list are offered, and the docket is answered BUS_ERROR; the fault waits for it. -/
theorem Part.endList_busError {l : ListRecord} {d : InHand} {p : Part} (list : p.ctu.list = some l)
    (inHand : p.exi.inHand = some d) (open_ : p.jnc.closing = none) (intake : p.exi.intake = .on) :
    let q := (p.endList true).accessFailed
    (q.exi.cause.getLsbD 3 = true ∧ q.exi.inHand = some { d with stage := .finished {
        result := .busError, first := l.applied, second := l.clamped, value := l.handled } } ∧ q.exi.faultAfter = true ∧
      q.exi.intake = .on ∧ q.exi.timeWrite = p.exi.timeWrite) ∧
    (p.journalTakes → l.touched.length ≤ 5 → q.jnc.queue = p.jnc.queue ++ p.stagedNow (l.touched.filterMap q.imageAt)) ∧
    (p.jnc.journal = .ok → q.ctu.slots = p.ctu.slots) ∧ p.sameOutside q ∧ q.znu = p.znu ∧ q.prc = p.prc ∧
      q.dou = p.dou ∧
    q.dlu = p.dlu := by
  intro q
  have offered : p.offerTouched = p.offerImages l.touched := by simp only [Part.offerTouched, list]; rfl
  have clears := Part.clears_offerImages l.touched open_
  have hand : (p.offerImages l.touched).exi = p.exi := by rw [clears.eq]
  obtain ⟨w, hw⟩ : ∃ w, w = p.endList true := ⟨_, rfl⟩
  have ends : w = { p.offerImages l.touched with exi := { p.exi with inHand := some { d with stage := .finished {
      result := .busError, first := l.applied, second := l.clamped, value := l.handled } } } } := by
    rw [hw]
    simp only [Part.endList, list, offered, if_true]
    rw [Part.finishDocket_spec (by rw [hand]; exact inHand), hand]
  have fails : q = w.accessFailed := by rw [hw]
  obtain ⟨access, eq⟩ := Part.accessFailed_held (p := w) (d := { d with stage := .finished {
    result := .busError, first := l.applied, second := l.clamped, value := l.handled } }) (by rw [ends]; exact intake)
    (by rw [ends])
  rw [← fails] at access eq
  have frame : q.jnc = (p.offerImages l.touched).jnc ∧ q.ctu = (p.offerImages l.touched).ctu := by
    rw [eq, ends]
    exact ⟨rfl, rfl⟩
  obtain ⟨jnc, ctu⟩ := frame
  refine ⟨⟨access, ?_, ?_, ?_, ?_⟩, fun takes few => ?_, fun ok => ?_, ?_⟩
  · rw [eq, ends]
  · rw [eq]
  · rw [eq, ends]
    exact intake
  · rw [eq, ends]
  · obtain ⟨j, plain, queue, -⟩ := Part.offerImages_room (is := l.touched) (p := p) (Part.hasRoom_of_takes takes) few
    have same : q.imageAt = p.imageAt := by
      funext i
      rw [Part.imageAt, Part.slot, ctu, plain]
      rfl
    rw [jnc, same, plain]
    exact queue
  · obtain ⟨j, plain⟩ := Part.offerImages_ok l.touched ok open_
    rw [ctu, plain]
  · rw [eq, ends, clears.eq]
    exact ⟨⟨rfl, rfl, rfl⟩, rfl, rfl, rfl, rfl⟩

/-- Several writes of the host's memory, one after another. -/
theorem Part.hostWrites_eq {α : Type} (a : α → HostAddr) (b : α → List Byte) (ks : List α) (p : Part) :
    ks.foldl (fun p k => p.hostWrite (a k) (b k)) p =
      { p with host := p.host.writes hostBlank (ks.map fun k => ((a k).toNat, b k)) } := by
  induction ks generalizing p with
  | nil => rfl
  | cons k ks ih => exact ih _

/-- The same byte written at some addresses. -/
theorem Memory.read_writes_byte {blank b : Byte} {α : Type} (a : α → Nat) {ks : List α} {k : α} (listed : k ∈ ks)
    (m : Memory) : (m.writes blank (ks.map fun k => (a k, [b]))).read blank (a k) = b := by
  have block := Memory.readBlock_writes (blank := blank) (ws := ks.map fun k => (a k, [b])) (a := a k) (bs := [b])
    (fun w hw => ?_) (List.mem_map.2 ⟨k, listed, rfl⟩) m
  · exact List.singleton_inj.1 block
  · obtain ⟨j, -, rfl⟩ := List.mem_map.1 hw
    by_cases same : a j = a k
    · exact .inl (by rw [same])
    · exact .inr (by simp only [List.length_singleton]; omega)

/-- What the handling of an entry leaves. -/
structure Part.Handles (p q : Part) : Prop where
  outside : p.sameOutside q
  closing : p.jnc.closing = none → q.jnc.closing = none
  inHand : q.exi.inHand = p.exi.inHand
  intake : q.exi.intake = p.exi.intake
  timeWrite : q.exi.timeWrite = p.exi.timeWrite
  list : ∀ l, p.ctu.list = some l → ∃ touched, q.ctu.list = some { l with touched := touched }

theorem Part.Handles.refl (p : Part) : p.Handles p := ⟨⟨rfl, rfl, rfl⟩, id, rfl, rfl, rfl, fun l list => ⟨l.touched,
    list⟩⟩

theorem Part.Handles.trans {p q r : Part} (h : p.Handles q) (k : q.Handles r) : p.Handles r := by
  refine ⟨Part.sameOutside.trans h.outside k.outside, k.closing ∘ h.closing, k.inHand.trans h.inHand,
    k.intake.trans h.intake, k.timeWrite.trans h.timeWrite, fun l list => ?_⟩
  obtain ⟨t, list'⟩ := h.list l list
  obtain ⟨t', list''⟩ := k.list _ list'
  exact ⟨t', list''⟩

theorem Part.handles_of_accounted {p q : Part} (h : p.accounted q) : p.Handles q :=
  ⟨h.sameOutside, h.closing, h.inHand, by rw [h.1], by rw [h.1], fun l list => ⟨l.touched, by rw [h.1]; exact list⟩⟩

theorem Part.handles_touch (i : Fin 2048) (p : Part) : p.Handles (p.touch i) :=
  ⟨⟨rfl, rfl, rfl⟩, id, rfl, rfl, rfl, fun l list => ⟨_, by rw [Part.touch_eq i list]; rfl⟩⟩

theorem Part.Moves.handles {i : Fin 2048} {z : Fin 64} {c final : Container} {p q : Part} (h : p.Moves i z c final q) :
    p.Handles q := by
  obtain ⟨jnc, tbu, flash, host, inHand⟩ := h.frame
  refine ⟨⟨host, flash, tbu⟩, fun open_ => (congrArg Jnc.closing jnc).trans open_, inHand, ?_, ?_,
    fun l list => ⟨l.touched, ?_⟩⟩
  · rw [h.eq]
  · rw [h.eq]
  · exact h.list.trans list

theorem Part.handles_handleEntry (e : MoveEntry) {p : Part} (open_ : p.jnc.closing = none) :
    p.Handles (p.handleEntry e).1 := by
  have moves (i : Fin 2048) (z : Fin 64) (t : Nat) : p.Handles (p.moveTo i z e t).1 := by
    have settles := Part.handles_of_accounted (Part.accounted_settleSlot i t open_)
    unfold Part.moveTo
    dsimp only
    split
    · next c live =>
      split
      · split
        · exact settles.trans (Part.handles_touch i _)
        · exact settles
      · obtain ⟨r, final, -, moves⟩ := (p.settleSlot i t).1.moves_applyMove i z e.unsealFlag e.resealFlag t c
        exact settles.trans (moves.handles.trans (Part.handles_touch i _))
    · exact settles
  unfold Part.handleEntry
  split
  · exact .refl p
  · split
    · exact .refl p
    · split
      · exact .refl p
      · dsimp only
        split
        · exact .refl p
        · exact moves _ _ _

theorem Part.moveEntry_fails {l : ListRecord} {e : MoveEntry} {o : MoveOutcome} {p q : Part} (opened : p.openList =
    some l)
    (read : decodeMoveEntry (p.hostRead (l.entryAddr l.next) 16) = e) (handled : p.handleEntry e = (q, o)) :
    p.moveEntry true = ((q.onList fun l => l.note o false).endList true).accessFailed := by
  simp only [Part.moveEntry, opened, read, handled, if_true]

/-! ### A group cut short -/

/-- The interface as the group that a cut names finds it. -/
def Exi.atCut (e : Exi) (cut : GroupCut) : Exi := if cut.last then { e with headerMark := true } else e

/-- What a group cut short has written. -/
def Exi.made (e : Exi) (cut : GroupCut) : List GroupWrite := (e.atCut cut).writtenOf cut.done

/-- A group that can be under way. -/
def Exi.cuttable (e : Exi) (cut : GroupCut) : Prop := e.intake = .on ∧
  ((cut.last = false ∧ e.marked = true) ∨ (cut.last = true ∧ e.turnOff = true ∧ e.inHand = none))

/-- The host's memory with what a group cut short has written. -/
def Part.cutHost (p : Part) (cut : GroupCut) : Memory :=
  (p.writeGroupItems (if cut.last then .off else .on) p.exi.generation (p.exi.made cut)).host

theorem Part.cutGroup_eq {cut : GroupCut} {p : Part} (can : p.exi.cuttable cut) : p.cutGroup cut =
    some ({ p with host := p.cutHost cut, exi := { p.exi with generation := p.exi.generation + 2 } },
      p.exi.atCut cut, p.exi.made cut) := by
  have under : p.exi.groupUnderWay cut.last = some (p.exi.atCut cut) := by
    obtain ⟨on, ⟨plain, marked⟩ | ⟨last, turnOff, free⟩⟩ := can
    · simp [Exi.groupUnderWay, Exi.atCut, plain, on, marked]
    · simp [Exi.groupUnderWay, Exi.atCut, last, on, turnOff, free]
  have base : (p.exi.atCut cut).generation = p.exi.generation := by
    unfold Exi.atCut
    split <;> rfl
  simp only [Part.cutGroup, under, base]
  have writes := Part.writeGroupItems_eq (if cut.last then .off else .on) p.exi.generation (p.exi.made cut) p
  rw [← Exi.made, Part.cutHost, writes]

/-- The marks that a failed group sets again (R156). -/
def Exi.remarked (e : Exi) (cut : GroupCut) : Exi := { e with
  generation := e.generation + 2, rise := false
  headerMark := (e.headerMark || cut.last) && !(e.made cut).contains .header
  zoneMarks := e.zoneMarks.filter fun z => !(e.made cut).contains (.zone z)
  slotMarks := e.slotMarks.filter fun i => !(e.made cut).contains (.slot i) }

theorem Part.groupFails_eq {cut : GroupCut} {p : Part} (can : p.exi.cuttable cut) : p.groupFails cut =
    let q := Part.accessFailed { p with host := p.cutHost cut, exi := p.exi.remarked cut }
    if p.exi.rise then q.raise .alert else q := by
  have marks : (p.exi.atCut cut).headerMark = (p.exi.headerMark || cut.last) ∧ (p.exi.atCut cut).zoneMarks =
      p.exi.zoneMarks ∧
      (p.exi.atCut cut).slotMarks = p.exi.slotMarks ∧ (p.exi.atCut cut).rise = p.exi.rise := by
    unfold Exi.atCut
    cases cut.last <;> simp
  obtain ⟨header, zones, slots, rise⟩ := marks
  simp only [Part.groupFails, Part.cutGroup_eq can, header, zones, slots, rise]
  rfl

/-- ALERT set for a rise that the group carried. -/
theorem Part.alertIf_spec (c : Bool) (p : Part) :
    let q := if c then p.raise .alert else p
    q = { p with exi := { p.exi with cause := q.exi.cause, messages := q.exi.messages } } ∧
      (c = true → q.exi.cause.getLsbD 1 = true) ∧ (p.exi.cause.getLsbD 3 = true → q.exi.cause.getLsbD 3 = true) := by
  cases c with
  | false => exact ⟨rfl, nofun, id⟩
  | true => exact ⟨Part.raise_eq .alert p, fun _ => Part.raise_sets .alert p, Part.raise_keeps .alert .access p⟩

theorem Part.groupFails_held {cut : GroupCut} {d : InHand} {p : Part} (can : p.exi.cuttable cut)
    (held : p.exi.inHand = some d) : let q := p.groupFails cut
    q.exi.cause.getLsbD 3 = true ∧ (p.exi.rise = true → q.exi.cause.getLsbD 1 = true) ∧ q = { p with
      host := p.cutHost cut
      exi := { p.exi.remarked cut with faultAfter := true, cause := q.exi.cause, messages := q.exi.messages } } := by
  rw [Part.groupFails_eq can]
  obtain ⟨access, eq⟩ := Part.accessFailed_held
    (p := { p with host := p.cutHost cut, exi := p.exi.remarked cut }) (d := d) can.1 held
  generalize Part.accessFailed { p with host := p.cutHost cut, exi := p.exi.remarked cut } = w at access eq ⊢
  obtain ⟨frame, alert, keeps⟩ := Part.alertIf_spec p.exi.rise w
  refine ⟨keeps access, alert, ?_⟩
  dsimp only
  generalize (if p.exi.rise = true then w.raise .alert else w) = x at frame ⊢
  rw [frame, eq]

theorem Part.groupFails_idle {cut : GroupCut} {p : Part} (can : p.exi.cuttable cut) (free : p.exi.inHand = none) :
    let q := p.groupFails cut
    q.host = p.cutHost cut ∧ (p.exi.rise = true → q.exi.cause.getLsbD 1 = true) ∧ p.Faults q (p.exi.remarked cut) := by
  rw [Part.groupFails_eq can]
  obtain ⟨⟨access, eq⟩, host, -⟩ := Part.accessFailed_idle
    (p := { p with host := p.cutHost cut, exi := p.exi.remarked cut }) can.1 free
  generalize Part.accessFailed { p with host := p.cutHost cut, exi := p.exi.remarked cut } = w at access eq host ⊢
  obtain ⟨frame, alert, keeps⟩ := Part.alertIf_spec p.exi.rise w
  refine ⟨?_, alert, keeps access, ?_⟩
  all_goals
    dsimp only
    generalize (if p.exi.rise = true then w.raise .alert else w) = x at frame ⊢
  · rw [frame]
    exact host
  · rw [frame, eq]

/-! ### A failed answer and a bus reset -/

theorem Part.answerFails_eq {d : InHand} {a : Answer} {p : Part} (b : Bool) (ready : p.readyAnswer = some (d, a))
    (kept : d.givenUp = false) (power : p.tbu.powerFail = false) (open_ : p.jnc.closing = none)
    (stays : p.jnc.resetWaits = false) (intake : p.exi.intake = .on) :
    let host := if b then p.host.write hostBlank (p.slotAddr d.slot + 48).toNat
      (a.bytes (p.jnc.journal == .failed && !d.durable)) else p.host
    Part.Faults { p with ctu := { p.ctu with list := none } } (p.answerFails b) { p.exi with inHand := none } ∧
      (p.answerFails b).host = host := by
  intro host
  obtain ⟨w, hw⟩ : ∃ w : Part, w = { p with
    host := host, ctu := { p.ctu with list := none }, exi := { p.exi with inHand := none } } := ⟨_, rfl⟩
  have dropped : (if b then p.writeAnswerFields d a else p).dropDocket = w := by
    rw [hw]
    cases b <;> rfl
  have fails : p.answerFails b = w.accessFailed.resetAfterFormat := by
    simp only [Part.answerFails, ready, kept, power, open_, Option.isSome_none, Bool.false_eq_true, or_self, if_false,
      dropped]
  obtain ⟨⟨access, eq⟩, same, -⟩ := Part.accessFailed_idle (p := w) (by rw [hw]; exact intake) (by rw [hw])
  have ends : w.accessFailed.resetAfterFormat = w.accessFailed := by
    refine if_neg ?_
    have waits : w.accessFailed.jnc.resetWaits = false := by
      rw [eq, hw]
      exact stays
    simp [Jnc.resetDue, waits]
  rw [fails, ends]
  refine ⟨⟨access, ?_⟩, ?_⟩
  · generalize w.accessFailed = x at eq ⊢
    rw [eq, hw]
  · rw [same, hw]

/-! ### HOST_ACCESS_FAILURE and BUS_RESET -/

theorem Part.handedRequest_working {d : InHand} {p : Part} (inHand : p.exi.inHand = some d)
    (working : d.stage = .working) :
    p.handedRequest = none := by
  simp [Part.handedRequest, inHand, working]

/-- A failed read of a movement entry: NOT_DONE goes into it and the later ones, and the list is cut short. -/
theorem Part.entryReadFails_eq {l : ListRecord} {p : Part} (n : Nat) (opened : p.openList = some l) :
    p.entryReadFails n =
    (Part.endList true { p with host := p.host.writes hostBlank <|
      (List.range' l.next (min n (l.count - l.next))).map fun k => ((l.outcomeAddr k).toNat, [6]) }).accessFailed := by
  have writes := Part.hostWrites_eq l.outcomeAddr (fun _ => [BitVec.ofNat 8 MoveOutcome.notDone.code])
    (List.range' l.next (min n (l.count - l.next))) p
  simp only [Part.entryReadFails, opened]
  rw [writes]
  rfl

/-- R116: what a failed read of a movement entry leaves. -/
theorem Part.entryReadFails_spec {l : ListRecord} {d : InHand} {p : Part} (n : Nat) (list : p.ctu.list = some l)
    (inHand : p.exi.inHand = some d) (opened : p.openList = some l) (open_ : p.jnc.closing = none)
    (intake : p.exi.intake = .on) : let q := p.entryReadFails n
    (q.exi.cause.getLsbD 3 = true ∧ q.exi.inHand = some { d with stage := .finished {
        result := .busError, first := l.applied, second := l.clamped, value := l.handled } } ∧ q.exi.faultAfter = true ∧
      q.exi.intake = .on ∧ q.exi.timeWrite = p.exi.timeWrite) ∧
    (p.journalTakes → l.touched.length ≤ 5 → q.jnc.queue = p.jnc.queue ++ p.stagedNow (l.touched.filterMap q.imageAt)) ∧
    (p.jnc.journal = .ok → q.ctu.slots = p.ctu.slots) ∧ q.flash = p.flash ∧ q.tbu = p.tbu ∧ q.znu = p.znu ∧
    q.prc = p.prc ∧ q.dou = p.dou ∧ q.dlu = p.dlu ∧
    (∀ k, l.next ≤ k → k < l.next + min n (l.count - l.next) → q.host.read hostBlank (l.outcomeAddr k).toNat = 6) ∧
    ∀ x, (∀ k, l.next ≤ k → k < l.next + min n (l.count - l.next) → x ≠ (l.outcomeAddr k).toNat) →
      q.host.read hostBlank x = p.host.read hostBlank x := by
  rw [Part.entryReadFails_eq n opened]
  obtain ⟨waits, staged, stands, outside, znu, prc, dou, dlu⟩ := Part.endList_busError (l := l) (d := d)
    (p := { p with host := p.host.writes hostBlank <|
      (List.range' l.next (min n (l.count - l.next))).map fun k => ((l.outcomeAddr k).toNat, [6]) })
    list inHand open_ intake
  refine ⟨waits, staged, stands, outside.2.1, outside.2.2, znu, prc, dou, dlu, fun k low high => ?_, fun x apart => ?_⟩
  · rw [outside.1]
    exact Memory.read_writes_byte (fun k => (l.outcomeAddr k).toNat) (List.mem_range'_1.2 ⟨low, high⟩) _
  · rw [outside.1]
    refine Memory.read_writes_outside (fun w written => ?_) _
    obtain ⟨k, listed, rfl⟩ := List.mem_map.1 written
    obtain ⟨low, high⟩ := List.mem_range'_1.1 listed
    have := apart k low high
    simp only [outsideRun, List.length_singleton]
    omega

/-- R116: a failed outcome write, against the entry whose outcome is written. -/
theorem Part.moveEntry_cut {l l' : ListRecord} {d : InHand} {p : Part} (list : p.ctu.list = some l)
    (inHand : p.exi.inHand = some d) (opened : p.openList = some l) (next : l.next + 1 < l.count)
    (open_ : p.jnc.closing = none) (intake : p.exi.intake = .on) (listed : (p.moveEntry false).ctu.list = some l') :
    let r := p.moveEntry false
    let q := p.moveEntry true
    (q.exi.cause.getLsbD 3 = true ∧ q.exi.inHand = some { d with stage := .finished {
        result := .busError, first := l'.applied, second := l'.clamped, value := l.handled } } ∧
          q.exi.faultAfter = true ∧
      q.exi.intake = .on ∧ q.exi.timeWrite = p.exi.timeWrite) ∧
    (r.journalTakes → l'.touched.length ≤ 5 →
      q.jnc.queue = r.jnc.queue ++ r.stagedNow (l'.touched.filterMap q.imageAt)) ∧
    (r.jnc.journal = .ok → q.ctu.slots = r.ctu.slots) ∧ q.znu = r.znu ∧ q.dlu = r.dlu ∧ p.sameOutside q := by
  obtain ⟨e, he⟩ : ∃ e, e = decodeMoveEntry (p.hostRead (l.entryAddr l.next) 16) := ⟨_, rfl⟩
  obtain ⟨h, o, handled⟩ : ∃ h o, p.handleEntry e = (h, o) := ⟨_, _, rfl⟩
  have handles := Part.handles_handleEntry e open_
  rw [handled] at handles
  obtain ⟨touched, list'⟩ := handles.list l list
  have noted := Part.noteOutcome_eq (l := l) o list'
  have goes := Part.moveEntry_goesOn opened he.symm handled (by
    rw [noted, Part.listDone_eq rfl]
    exact decide_eq_false (Nat.not_le.2 next))
  rw [noted] at goes
  rw [goes] at listed ⊢
  obtain rfl := Option.some.inj listed
  have list'' : (h.onList fun l => l.note o false).ctu.list =
      some (ListRecord.note { l with touched := touched } o false) := by
    show Option.map (fun l => l.note o false) h.ctu.list = _
    rw [list']
    rfl
  obtain ⟨⟨access, finished, after, on, time⟩, staged, stands, outside, znu, -, -, dlu⟩ := Part.endList_busError list''
    (handles.inHand.trans inHand) (handles.closing open_) (handles.intake.trans intake)
  rw [Part.moveEntry_fails opened he.symm handled]
  exact ⟨⟨access, finished, after, on, time.trans handles.timeWrite⟩, staged, stands, znu, dlu,
    Part.sameOutside.trans handles.outside outside⟩

theorem Part.busReset_cut {cut : GroupCut} {p : Part} (can : p.exi.cuttable cut) : p.busReset (some cut) = { p with
    host := p.cutHost cut
    exi := { Exi.reset with generation := p.exi.generation + 2, messages := p.exi.messages
                            inHand := p.exi.inHand.map fun d => { d with givenUp := true } } } := by
  simp only [Part.busReset, Option.bind_some, Part.cutGroup_eq can]

/-- A failed read for the docket in hand, or a failed write of its report: it is answered BUS_ERROR. -/
theorem Part.busErrors_held {d : InHand} {p q : Part} (intake : p.exi.intake = .on) (inHand : p.exi.inHand = some d)
    (fails : q = (p.refuseDocket .busError).accessFailed) :
    (q.exi.cause.getLsbD 3 = true ∧ q = { p with exi := { p.exi with
      inHand := some { d with stage := .finished (plainAnswer .busError) }, faultAfter := true
      cause := q.exi.cause, messages := q.exi.messages, timeWrite := q.exi.timeWrite } }) ∧
      q.exi.timeWrite = p.exi.timeWrite := by
  obtain ⟨access, eq⟩ := Part.busError_held intake inHand
  rw [fails]
  generalize (p.refuseDocket .busError).accessFailed = x at access eq
  rw [eq]
  exact ⟨⟨access, rfl⟩, rfl⟩

/-- A failed engine time write with a docket in hand. -/
theorem Part.timeWriteFails_held {d : InHand} {p : Part} (intake : p.exi.intake = .on)
    (inHand : p.exi.inHand = some d) :
    let q := Part.accessFailed { p with exi := { p.exi with timeWrite := none } }
    (q.exi.cause.getLsbD 3 = true ∧ q = { p with exi := { p.exi with
      inHand := some d, faultAfter := true, cause := q.exi.cause, messages := q.exi.messages
      timeWrite := q.exi.timeWrite } }) ∧ q.exi.timeWrite = none := by
  obtain ⟨access, eq⟩ := Part.accessFailed_held (p := { p with exi := { p.exi with timeWrite := none } }) intake inHand
  dsimp only
  generalize Part.accessFailed { p with exi := { p.exi with timeWrite := none } } = x at access eq
  rw [eq]
  refine ⟨⟨access, ?_⟩, rfl⟩
  rw [← inHand]

/-- A sweep asked for in RESTORING fails as RESTORE ends in BLANK. -/
theorem Part.restoredSweep_fails {id : Byte} {p : Part} (restoring : p.jnc.engine = .restoring)
    (intact : p.jnc.restore = none) (begins : id ≠ 0x00#8 ∧ id ≠ 0xFF#8) (unformatted : p.flash.formatEntry = none)
    (intake : p.exi.intake = .on) (asked : p.exi.extraPass = true) (idle : p.exi.sweeping = false)
    (free : p.exi.inHand = none) (taking : p.noTaking = false) : ∃ q : Part,
      p.hostAccessFails (.slotRead (.restored id)) = q ∧
      (fieldAt (p.hostRead (p.slotAddr p.exi.cursor) 64) 0 1 = 1 →
        p.hostAccessFails (.takenWrite (.restored id)) = q) ∧
      Part.Faults { p with jnc := { p.jnc with engine := .blank }, flash := { p.flash with idByte := id } } q
        { p.exi with headerMark := true } ∧ q.host = p.host ∧ q.exi.cause.getLsbD 2 = true := by
  obtain ⟨w, at_, engine, frame⟩ :=
    Part.atSlotRead_restored restoring intact begins unformatted intake asked idle free taking
  obtain ⟨read, taken⟩ := Part.sweepFails at_
  obtain ⟨⟨access, eq⟩, host, keeps⟩ := Part.accessFailed_due (p := w) (by rw [frame]; exact intake)
    (by rw [frame]; exact free)
  have reads : Part.readSlot { w with exi := { w.exi with extraPass := false } } =
      p.hostRead (p.slotAddr p.exi.cursor) 64 := by
    rw [frame]
    rfl
  refine ⟨_, read, fun h => taken (by rw [reads]; exact h), ⟨access, ?_⟩, ?_, keeps .engine engine⟩
  · generalize Part.accessFailed { w with exi := { w.exi with extraPass := false } } = x at eq ⊢
    rw [eq, frame]
  · rw [host, frame]

/-- A sweep asked for in RESTORING fails as ENTER_RUNNING ends in RUNNING. -/
theorem Part.enteredSweep_fails {p : Part} (restoring : p.jnc.engine = .restoring) (runs : p.mayRun = true)
    (open_ : p.jnc.closing = none) (intake : p.exi.intake = .on) (asked : p.exi.extraPass = true)
    (idle : p.exi.sweeping = false) (free : p.exi.inHand = none) (taking : p.noTaking = false) : ∃ q : Part,
      p.hostAccessFails (.slotRead .entered) = q ∧
      (fieldAt (p.hostRead (p.slotAddr p.exi.cursor) 64) 0 1 = 1 → p.hostAccessFails (.takenWrite .entered) = q) ∧
      Part.Faults p.nowRunning q p.nowRunning.exi ∧ q.host = p.host ∧ q.jnc.engine = .running ∧
      q.exi.cause.getLsbD 2 = true := by
  have at_ := Part.atSlotRead_entered restoring runs open_ intake asked idle free taking
  have enters := Part.enters_nowRunning open_ (by rw [restoring]; decide)
  obtain ⟨read, taken⟩ := Part.sweepFails at_
  generalize p.nowRunning = n at enters read taken ⊢
  obtain ⟨faults, host, keeps⟩ := Part.accessFailed_due (p := n) (by rw [enters.exi]; exact intake)
    (by rw [enters.exi]; exact free)
  have reads : Part.readSlot { n with exi := { n.exi with extraPass := false } } =
      p.hostRead (p.slotAddr p.exi.cursor) 64 := by
    have slot : n.slotAddr n.exi.cursor = p.slotAddr p.exi.cursor := by
      rw [Part.slotAddr, Part.areaAddr, Part.exbase, enters.exi]
      rfl
    show Memory.readBlock hostBlank n.host (n.slotAddr n.exi.cursor).toNat 64 = _
    rw [slot, enters.outside.1]
    rfl
  refine ⟨_, read, fun h => taken (by rw [reads]; exact h), faults, host.trans enters.outside.1, ?_,
    keeps .engine enters.cause⟩
  rw [faults.2]
  exact enters.engine

/-- R149: a failed read of a SET_CONDITIONS block, and a failed report of a QUERY_PROBE. -/
theorem Part.docketReadFails_conditions {d : InHand} {addr : HostAddr} {p : Part} (n : Nat)
    (hands : p.hands d (.setConditions addr)) (good : addrOk addr 64 = true) :
    p.hostAccessFails (.docketRead n) = (p.refuseDocket .busError).accessFailed := by
  simp only [Part.hostAccessFails, Part.docketReadFails, Part.handedRequest_of_hands hands, Part.setConditionsDocket,
    good,
    Bool.not_true, Bool.false_eq_true, if_false, if_true]

theorem Part.docketWriteFails_probe {d : InHand} {a : QueryProbeArgs} {p : Part} (hands : p.hands d (.queryProbe a))
    (number : a.probe < 32) (good : addrOk a.reply 32 = true) :
    p.hostAccessFails .docketWrite = (p.refuseDocket .busError).accessFailed := by
  simp only [Part.hostAccessFails, Part.docketWriteFails, Part.handedRequest_of_hands hands, Part.queryProbeDocket,
    finOf?_eq_some.2 (show (⟨a.probe, number⟩ : Fin 32).val = a.probe from rfl), good, Bool.not_true,
      Bool.false_eq_true,
    if_false, if_true]

theorem Part.docketWriteFails_query {d : InHand} {a : QueryArgs} {p : Part} (hands : p.hands d (.query a)) :
    p.hostAccessFails .docketWrite = p.queryDocket a true := by
  simp only [Part.hostAccessFails, Part.docketWriteFails, Part.handedRequest_of_hands hands]

theorem Part.queryDocket_fails_asleep {a : QueryArgs} {i : Fin 2048} {c : Container} {p : Part}
    (good : addrOk a.reply 64 = true) (named : p.lookup a.id = some (i, c)) (asleep : p.jnc.engine ≠ .running) :
    p.queryDocket a true = (p.refuseDocket .busError).accessFailed := by
  simp only [Part.queryDocket, good, named, if_neg asleep, Part.reportContainer, Bool.not_true, Bool.false_eq_true,
    if_false,
    if_true]

/-- A failed answer, before its fields or between them and ANSWERED. -/
theorem Part.answersFail {d : InHand} {a : Answer} {p : Part} (inHand : p.exi.inHand = some d)
    (finished : d.stage = .finished a) (kept : d.givenUp = false) (free : d.triggers = [])
      (runs : d.awaitRunning = false)
    (settled : p.jnc.journal = .failed ∨ (p.jnc.waiting = [] ∧ ∀ e ∈ p.jnc.queue, e.owner ≠ .docket))
    (power : p.tbu.powerFail = false) (open_ : p.jnc.closing = none) (stays : p.jnc.resetWaits = false)
    (intake : p.exi.intake = .on) :
    let done : Part := { p with ctu := { p.ctu with list := none } }
    (done.Faults (p.hostAccessFails .answerFields) { p.exi with inHand := none } ∧
      (p.hostAccessFails .answerFields).host = p.host) ∧
    (done.Faults (p.hostAccessFails .answerOwner) { p.exi with inHand := none } ∧
      (p.hostAccessFails .answerOwner).host = p.host.write hostBlank (p.slotAddr d.slot + 48).toNat
        (a.bytes (p.jnc.journal == .failed && !d.durable))) := by
  have ready := Part.readyAnswer_eq inHand finished free runs settled
  exact ⟨Part.answerFails_eq false ready kept power open_ stays intake,
    Part.answerFails_eq true ready kept power open_ stays intake⟩

/-- R116: a failed access for the docket whose list is being handled. -/
theorem Part.listAccessFails {d : InHand} {p : Part} (inHand : p.exi.inHand = some d) (working : d.stage = .working) :
    (∀ n, p.hostAccessFails (.docketRead n) = p.entryReadFails n) ∧ p.hostAccessFails .docketWrite =
      p.moveEntry true := by
  have working' := Part.handedRequest_working inHand working
  refine ⟨fun n => ?_, ?_⟩
  · simp only [Part.hostAccessFails, Part.docketReadFails, working']
  · simp only [Part.hostAccessFails, Part.docketWriteFails, working']

theorem moveEntry_part {s : State} {stores : Stores} {r : Part} (on : s.part.tbu.mainPower = true)
    (moves : exec (.moveEntry stores) s = .next (s.withPart r)) : (s.part.hostStores stores).moveEntry false = r := by
  rw [exec_moveEntry on] at moves
  injection moves with same
  exact congrArg State.part same

/-- Settles O21: each failed access by what it was made for. -/
theorem failedAccessAndBusReset : Obligations.FailedAccessAndBusReset := by
  unfold Obligations.FailedAccessAndBusReset
  intro fault items made memory remarked underWay
  refine ⟨fun s stores on => ?_, fun s on => ?_⟩
  · intro p fails intake
    have reaches {a : FailedAccess} {own : Part → Prop} {q : Part} (h : p.hostAccessFails a = q) (owns : own q) :
        fails a own := ⟨q, (exec_hostAccessFailure on).trans (next_congr h), owns⟩
    have moved {r : Part} (moves : exec (.moveEntry stores) s = .next (s.withPart r)) : p.moveEntry false = r :=
      moveEntry_part on moves
    clear_value p
    refine ⟨fun free stays power open_ left => ?_, fun free stays power open_ restoring asked idle => ?_,
      fun d inHand => ?_,
      fun cut can free => ?_⟩
    · have taking := Part.noTaking_eq_false stays power open_
      obtain ⟨read, taken⟩ := Part.sweepFails (Part.atSlotRead_asked free (Part.maySweep_of intake free taking left))
      obtain ⟨faults, host, -⟩ := Part.accessFailed_idle intake free
      exact ⟨reaches read ⟨faults, host⟩, fun posted => reaches (taken posted) ⟨faults, host⟩⟩
    · intro posted
      have taking := Part.noTaking_eq_false stays power open_
      refine ⟨fun id intact unformatted notLow notHigh blank_ => ?_, fun runs => ?_⟩
      · obtain ⟨q, read, taken, ends⟩ :=
          Part.restoredSweep_fails restoring intact ⟨notLow, notHigh⟩ blank_ intake asked idle free taking
        exact ⟨reaches read ends, fun h => reaches (taken h) ends⟩
      · obtain ⟨q, read, taken, ends⟩ := Part.enteredSweep_fails restoring runs open_ intake asked idle free taking
        exact ⟨reaches read ends, fun h => reaches (taken h) ends⟩
    · intro held busError waits
      refine ⟨fun t due => ?_, fun addr n hands nonzero aligned => ?_, fun a hands number nonzero aligned => ?_,
        fun a i c hands nonzero aligned named unique live holds => ⟨fun asleep => ?_, fun running still open_ => ?_⟩,
        fun l list working more power open_ => ?_, fun cut can => ?_,
        fun a finished kept free runs settled power open_ stays => ?_⟩
      · exact reaches (if_pos ⟨intake, by rw [due]; rfl⟩) (Part.timeWriteFails_held intake inHand)
      · exact reaches (Part.docketReadFails_conditions n hands (addrOk_iff.2 ⟨nonzero, aligned⟩))
          (Part.busErrors_held intake inHand rfl)
      · exact reaches (Part.docketWriteFails_probe hands number (addrOk_iff.2 ⟨nonzero, aligned⟩))
          (Part.busErrors_held intake inHand rfl)
      · exact reaches ((Part.docketWriteFails_query hands).trans (Part.queryDocket_fails_asleep
          (addrOk_iff.2 ⟨nonzero, aligned⟩) (Part.lookup_some named unique live holds) asleep))
          (Part.busErrors_held intake inHand rfl)
      · obtain ⟨access, finished, after, on', time, outside, others, b, own⟩ := Part.queryDocket_fails
          (addrOk_iff.2 ⟨nonzero, aligned⟩) (Part.lookup_some named unique live holds) live still open_ inHand running intake
        obtain ⟨-, -, -, -, exposure, settled, -⟩ :=
            p.deriveRecord_fields true (settleRecord (p.classDef c.cls) p.now c).1
        exact reaches (Part.docketWriteFails_query hands) ⟨⟨access, finished, after, on', time⟩, outside, others, _,
          own,
          exposure, settled.trans (settleRecord_settled_max ..)⟩
      · intro ended images
        have opened := Part.openList_eq list inHand working more power open_
        obtain ⟨read, write⟩ := Part.listAccessFails inHand working
        refine ⟨fun n => reaches (read n) (Part.entryReadFails_spec n list inHand opened open_ intake),
          fun r l' next moves listed => ?_⟩
        obtain rfl := moved moves
        exact reaches write (Part.moveEntry_cut list inHand opened next open_ intake listed)
      · exact reaches rfl (Part.groupFails_held can inHand)
      · intro done
        obtain ⟨fields, owner⟩ := Part.answersFail inHand finished kept free runs settled power open_ stays intake
        exact ⟨reaches rfl fields, reaches rfl owner⟩
    · obtain ⟨host, alert, faults⟩ := Part.groupFails_idle can free
      exact reaches rfl ⟨host, alert, faults⟩
  · intro p reset
    refine ⟨exec_of_powered (f := Part.busReset none) rfl on rfl, fun cut can => ?_⟩
    exact exec_of_powered (f := Part.busReset (some cut)) rfl on (Part.busReset_cut can)

end Sys2Proof.Machine

/-! ## A journal entry reads back (O12) -/

namespace Sys2Proof.Machine

/-! ### Fields of a record -/

theorem fieldAt_append_right {as : List Byte} {off : Nat} (h : as.length ≤ off) (bs : List Byte) (len : Nat) :
    fieldAt (as ++ bs) off len = fieldAt bs (off - as.length) len := by
  rw [fieldAt, fieldAt, List.drop_append, List.drop_eq_nil_of_le h, List.nil_append]

/-- A field behind another one. -/
theorem fieldAt_skip {k off : Nat} (h : k ≤ off) (n : Nat) (bs : List Byte) (len : Nat) :
    fieldAt (leBytes k n ++ bs) off len = fieldAt bs (off - k) len := by
  rw [fieldAt_append_right (by rw [leBytes_length]; exact h), leBytes_length]

/-- A field at the front. -/
theorem fieldAt_here {k n : Nat} (h : n < 256 ^ k) (bs : List Byte) : fieldAt (leBytes k n ++ bs) 0 k = n := by
  rw [fieldAt, List.drop_zero, List.take_left' (leBytes_length k n)]
  exact leNat_leBytes k n h

/-- A field of the `k`-th of several records of `w` bytes each. -/
theorem fieldAt_flatten {α : Type} {w : Nat} {g : α → List Byte} (width : ∀ a, (g a).length = w) {j len : Nat}
    (inside : j + len ≤ w) (bs : List Byte) {l : List α} {k : Nat} (h : k < l.length) :
    fieldAt ((l.map g).flatten ++ bs) (w * k + j) len = fieldAt (g l[k]) j len := by
  induction l generalizing k with
  | nil => exact absurd h (Nat.not_lt_zero k)
  | cons a as ih =>
    rw [List.map_cons, List.flatten_cons, List.append_assoc]
    cases k with
    | zero =>
      rw [Nat.mul_zero, Nat.zero_add, fieldAt, fieldAt, List.drop_append_of_le_length (by rw [width]; omega),
        List.take_append_of_le_length (by rw [List.length_drop, width]; omega)]
      rfl
    | succ k =>
      have past : w * (k + 1) + j - w = w * k + j := by rw [Nat.mul_succ]; omega
      rw [fieldAt_append_right (by rw [width, Nat.mul_succ]; omega), width, past]
      exact ih (Nat.lt_of_succ_lt_succ h)

/-- One of several numbers of `w` bytes each. -/
theorem fieldAt_numbers {α : Type} {w : Nat} {f : α → Nat} (bs : List Byte) {l : List α} {k : Nat} (h : k < l.length)
    (fits : f l[k] < 256 ^ w) : fieldAt ((l.map fun a => leBytes w (f a)).flatten ++ bs) (w * k) w = f l[k] := by
  rw [← Nat.add_zero (w * k), fieldAt_flatten (fun a => leBytes_length w (f a)) (by omega) bs h,
    ← List.append_nil (leBytes _ _)]
  exact fieldAt_here fits []

theorem length_flatten_map {α : Type} {w : Nat} {g : α → List Byte} (width : ∀ a, (g a).length = w) (l : List α) :
    (l.map g).flatten.length = l.length * w := by
  simp [List.length_flatten, Function.comp_def, width]

/-! ### Codes and what they decode to -/

theorem optCode_le {n : Nat} (few : n ≤ 255) (o : Option (Fin n)) : optCode o ≤ 255 := by
  cases o with
  | none => exact Nat.le_refl 255
  | some k => exact Nat.le_trans (Nat.le_of_lt k.isLt) few

theorem optField_optCode {n : Nat} (few : n ≤ 255) (o : Option (Fin n)) : optField n (optCode o) = some o := by
  cases o with
  | none => rfl
  | some k =>
    have other : k.val ≠ 255 := by omega
    simp [optField, optCode, other, finOf?]

theorem Custody.code_le (c : Custody) : c.code ≤ 255 := by cases c <;> decide

theorem decodeCustody_code (c : Custody) : decodeCustody c.code = some c := by cases c <;> rfl

theorem causeCode_le (o : Option QuarantineCause) : causeCode o ≤ 255 := by
  match o with
  | none | some .host | some .overheat | some .bakeLimit => decide

theorem decodeCause_code (o : Option QuarantineCause) : decodeCause (causeCode o) = some o := by
  match o with
  | none | some .host | some .overheat | some .bakeLimit => rfl

theorem ZoneKind.code_le (k : ZoneKind) : k.code ≤ 255 := by cases k <;> decide

theorem decodeKind_code (k : ZoneKind) : decodeKind k.code = some k := by cases k <;> rfl

theorem Override.code_le (o : Override) : o.code ≤ 255 := by cases o <;> decide

theorem decodeOverride_code (o : Override) : decodeOverride o.code = some o := by cases o <;> rfl

theorem busCode_le (b : Bus) : busCode b ≤ 255 := by cases b <;> decide

theorem decodeBus_code (b : Bus) : decodeBus (busCode b) = some b := by cases b <;> rfl

theorem speedCode_le (b : Bool) : speedCode b ≤ 400 := by cases b <;> decide

theorem decodeSpeed_code (b : Bool) : decodeSpeed (speedCode b) = some b := by cases b <;> rfl

theorem bit_le (b : Bool) : bit b 0 ≤ 1 := by cases b <;> decide

theorem bit_eq_one (b : Bool) : (bit b 0 == 1) = b := by cases b <;> rfl

/-- The two bits of a container's flags. -/
theorem flagBits (a b : Bool) : bit a 0 + bit b 1 ≤ 3 ∧ ((bit a 0 + bit b 1) % 2 == 1) = a ∧
    ((bit a 0 + bit b 1) / 2 % 2 == 1) = b := by cases a <;> cases b <;> decide

theorem conditionCode_le (o : Option Condition) : conditionCode o ≤ 255 := by
  match o with
  | none => decide
  | some c => cases c <;> simp [conditionCode]

theorem decodeCondition_code (o : Option Condition) : decodeCondition (conditionCode o) (conditionRate o) = some o := by
  match o with
  | none => rfl
  | some c => cases c <;> rfl

theorem signed16_le (t : Int) : signed16 t ≤ 65535 := by
  rw [signed16]
  omega

theorem ofSigned16_signed16 {t : Int} (low : -32768 ≤ t) (high : t ≤ 32767) : ofSigned16 (signed16 t) = t := by
  rw [ofSigned16, signed16]
  split <;> omega

theorem rhCode_le {o : Option Reading} (fits : readingFits o) : rhCode o ≤ 65535 := by
  cases o with
  | none => exact Nat.le_refl 65535
  | some r => exact (fits r rfl).2.2

theorem decodeReading_code {o : Option Reading} (fits : readingFits o) : decodeReading (tempCode o) (rhCode o) = o := by
  cases o with
  | none => rfl
  | some r =>
    obtain ⟨low, high, -⟩ := fits r rfl
    have present : signed16 r.temp ≠ 32768 := by
      rw [signed16]
      omega
    simp only [decodeReading, tempCode, rhCode, present, if_false, ofSigned16_signed16 (Int.le_of_lt low) high]

theorem timeCode_lt {o : Option Nat} (fits : ∀ t, o = some t → t < Config.timeNone) : timeCode o < 4294967296 := by
  cases o with
  | none => decide
  | some t => exact Nat.lt_trans (fits t rfl) (by decide)

theorem decodeTime_code {o : Option Nat} (fits : ∀ t, o = some t → t < Config.timeNone) : decodeTime (timeCode o) =
    o := by
  cases o with
  | none => rfl
  | some t => exact if_neg (Nat.ne_of_lt (fits t rfl))

theorem decodeBands_code (o : Option (Fin 6 × Fin 8)) :
    decodeBands (optCode (o.map (·.1))) (optCode (o.map (·.2))) = some o := by
  match o with
  | none => rfl
  | some (t, h) =>
    have other : t.val ≠ 255 := by omega
    simp only [decodeBands, optCode, Option.map_some, other, if_false, finOf?_val]

theorem walkedCode_le (o : Option (Fin 6 × Fin 8)) : walkedCode o ≤ 255 := by
  match o with
  | none => exact Nat.le_refl 255
  | some (t, h) =>
    show 8 * t.val + h.val ≤ 255
    omega

theorem decodeWalked_code (o : Option (Fin 6 × Fin 8)) : decodeWalked (walkedCode o) = some o := by
  match o with
  | none => rfl
  | some (t, h) =>
    have other : 8 * t.val + h.val ≠ 255 := by omega
    have row : (8 * t.val + h.val) / 8 = t.val := by omega
    have column : (8 * t.val + h.val) % 8 = h.val := by omega
    simp only [decodeWalked, walkedCode, other, if_false, row, column, finOf?_val]

theorem decodeOptId_code {o : Option ContainerId} (named : o ≠ some 0) : decodeOptId (idCode o) = o := by
  cases o with
  | none => rfl
  | some id =>
    have other : id.toNat ≠ 0 := fun h => named (congrArg some (BitVec.eq_of_toNat_eq h))
    simp only [decodeOptId, idCode, Option.getD_some, other, if_false, BitVec.ofNat_toNat, BitVec.setWidth_eq]

theorem decodeCell_code {c : Cell} (fits : c.mult ≤ 2047) : decodeCell (cellCode c) = c ∧ cellCode c ≤ 65535 := by
  obtain ⟨mult, enabled⟩ := c
  change mult ≤ 2047 at fits
  cases enabled
  · have off : mult / 32768 = 0 := by omega
    simp [decodeCell, cellCode, bit, off]
    omega
  · have low : (mult + 32768) % 2048 = mult := by omega
    have on : (mult + 32768) / 32768 = 1 := by omega
    simp [decodeCell, cellCode, bit, low, on]
    omega

theorem patternAt_bytes {q : Pattern} (fits : patternFits q) (bs : List Byte) : patternAt (q.bytes ++ bs) 0 = q := by
  have steps := q.steps.isLt
  have length : q.length < 256 := Nat.lt_succ_of_le fits
  simp (disch := omega) only [patternAt, Pattern.bytes, List.append_assoc, fieldAt_here, fieldAt_skip, Nat.zero_add,
    Nat.sub_self, BitVec.ofNat_toNat, BitVec.setWidth_eq]

/-! ### Each payload -/

theorem decodeContainerImage_bytes {i : ContainerImage} (fits : (Payload.containerImage i).fits) (bs : List Byte) :
    decodeContainerImage (i.bytes ++ bs) = some i := by
  obtain ⟨exposure, settled, entry, enrolled, bakes, parent⟩ := fits
  unfold fits32 at settled entry enrolled
  obtain ⟨flags, warned, baked⟩ := flagBits i.warned i.bakedThisStay
  have id := i.id.isLt
  have custody := i.custody.code_le
  have last := optCode_le (by omega) i.lastMoveZone
  have cause := causeCode_le i.quarantineCause
  have parentId := (i.parent.getD 0).isLt
  change idCode i.parent < _ at parentId
  simp (disch := omega) only [decodeContainerImage, ContainerImage.bytes, List.append_assoc, fieldAt_here,
    fieldAt_skip, idAt,
    Nat.reduceSub, finOf?_val, decodeCustody_code, optField_optCode, decodeCause_code, warned, baked,
    decodeOptId_code parent, BitVec.ofNat_toNat, BitVec.setWidth_eq, bind, Option.bind_some]

theorem decodeZoneImage_bytes {z : Fin 64} {i : ZoneImage} (fits : (Payload.zoneImage z i).fits) (bs : List Byte) :
    decodeZoneImage (i.bytes z ++ bs) = some (z, i) := by
  obtain ⟨fixed, threshold, credit, condition, time, held⟩ := fits
  unfold conditionFits at condition
  have kind := i.config.kind.code_le
  have probe := optCode_le (by omega) i.config.probe
  have reference := optCode_le (by omega) i.config.reference
  have output := optCode_le (by omega) i.config.lineOutput
  have fixedTemp : tempCode i.config.fixed ≤ 65535 := signed16_le _
  have fixedRh := rhCode_le fixed
  have code := conditionCode_le i.condition
  have seconds := timeCode_lt time
  have heldTemp : tempCode i.held ≤ 65535 := signed16_le _
  have heldRh := rhCode_le held
  have row := optCode_le (by omega) (i.bands.map (·.1))
  have column := optCode_le (by omega) (i.bands.map (·.2))
  have walked := walkedCode_le i.walked
  have door := bit_le i.doorOpen
  simp (disch := omega) only [decodeZoneImage, ZoneImage.bytes, bandBytes, List.append_assoc, fieldAt_here,
    fieldAt_skip,
    Nat.reduceSub, finOf?_val, decodeKind_code, optField_optCode, decodeCondition_code, decodeBands_code,
      decodeWalked_code,
    decodeReading_code fixed, decodeReading_code held, decodeTime_code time, bit_eq_one, bind, Option.bind_some]

theorem decodeZoneCondition_bytes {z : Fin 64} {i : ZoneConditionImage} (fits : (Payload.zoneCondition z i).fits)
    (bs : List Byte) : decodeZoneCondition (i.bytes z ++ bs) = some (z, i) := by
  obtain ⟨time, condition, held⟩ := fits
  unfold conditionFits at condition
  unfold fits32 at time
  have code := conditionCode_le i.condition
  have heldTemp : tempCode i.held ≤ 65535 := signed16_le _
  have heldRh := rhCode_le held
  have row := optCode_le (by omega) (i.bands.map (·.1))
  have column := optCode_le (by omega) (i.bands.map (·.2))
  have walked := walkedCode_le i.walked
  simp (disch := omega) only [decodeZoneCondition, ZoneConditionImage.bytes, bandBytes, List.append_assoc, fieldAt_here,
    fieldAt_skip, Nat.reduceSub, finOf?_val, decodeCondition_code, decodeBands_code, decodeWalked_code,
    decodeReading_code held, bind, Option.bind_some]

theorem decodeClassImage_bytes {n : Fin 16} {i : Option ClassImage} (fits : (Payload.classImage n i).fits)
    (bs : List Byte) : decodeClassImage (classImageBytes n i ++ bs) = some (n, i) := by
  cases i with
  | none =>
    have absent : fieldAt (List.replicate 17 0 ++ bs) 0 1 ≠ 1 := by simp [fieldAt, leNat, List.replicate]
    simp (disch := omega) only [decodeClassImage, classImageBytes, List.append_assoc, fieldAt_here, fieldAt_skip,
      Nat.reduceSub,
      finOf?_val, bind, Option.bind_some, absent, if_false]
  | some c =>
    obtain ⟨allowance, margin, ceiling, bakes, temp, most, duration⟩ := fits c rfl
    unfold fits32 at allowance margin
    simp (disch := omega) only [decodeClassImage, classImageBytes, List.append_assoc, fieldAt_here, fieldAt_skip,
      Nat.reduceSub,
      finOf?_val, bind, Option.bind_some, if_true]

/-- The part code and the part number of a setting image. -/
theorem decodeSettingImage_parts {code number : Nat} (codeFits : code ≤ 255) (numberFits : number ≤ 255)
    (vs bs : List Byte) :
    fieldAt (partBytes code number vs ++ bs) 0 1 = code ∧ fieldAt (partBytes code number vs ++ bs) 1 1 = number ∧
      ∀ off len, fieldAt (partBytes code number vs ++ bs) (2 + off) len = fieldAt (vs ++ bs) off len := by
  refine ⟨?_, ?_, fun off len => ?_⟩
  · simp (disch := omega) only [partBytes, List.append_assoc, fieldAt_here]
  · simp (disch := omega) only [partBytes, List.append_assoc, fieldAt_here, fieldAt_skip, Nat.reduceSub]
  · rw [partBytes, List.append_assoc, List.append_assoc, fieldAt_skip (by omega), fieldAt_skip (by omega)]
    congr 1
    omega

theorem decodeCells_bytes {cells : Vector Cell 24} (fits : ∀ k : Fin 24, cells[k].mult ≤ 2047) (number : Nat)
    (numberFits : number ≤ 255) (bs : List Byte) : (Vector.ofFn fun k : Fin 24 => decodeCell (fieldAt
      (partBytes 0 number ((cells.toList.map fun c => leBytes 2 (cellCode c)).flatten) ++ bs) (2 + 2 * k.val) 2)) =
        cells := by
  ext k hk
  obtain ⟨decodes, small⟩ := decodeCell_code (fits ⟨k, hk⟩)
  obtain ⟨-, -, values⟩ := decodeSettingImage_parts (code := 0) (by omega) numberFits
    ((cells.toList.map fun c => leBytes 2 (cellCode c)).flatten) bs
  have inside : k < cells.toList.length := by simpa using hk
  rw [Vector.getElem_ofFn, values, fieldAt_numbers bs inside]
  all_goals rw [Vector.getElem_toList]
  · exact decodes
  · exact Nat.lt_succ_of_le small

theorem decodeEdges_bytes {t : Vector Int 5} {h : Vector Nat 7} (fits : (Payload.edgesImage t h).fits)
    (bs : List Byte) :
    decodeSettingImage ((Payload.edgesImage t h).bytes ++ bs) = some (.edgesImage t h) := by
  obtain ⟨temps, rhs⟩ := fits
  obtain ⟨code, number, values⟩ := decodeSettingImage_parts (code := 0) (number := 2) (by omega) (by omega)
    ((t.toList.map fun v => leBytes 2 (signed16 v)).flatten ++ (h.toList.map fun v => leBytes 2 v).flatten) bs
  have temp : (Vector.ofFn fun k : Fin 5 => ofSigned16 (fieldAt ((Payload.edgesImage t h).bytes ++ bs)
      (2 + 2 * k.val) 2)) =
      t := by
    ext k hk
    obtain ⟨low, high⟩ := temps ⟨k, hk⟩
    have inside : k < t.toList.length := by simpa using hk
    rw [Vector.getElem_ofFn, Payload.bytes, values, List.append_assoc, fieldAt_numbers _ inside]
    all_goals rw [Vector.getElem_toList]
    · exact ofSigned16_signed16 low high
    · exact Nat.lt_succ_of_le (signed16_le _)
  have rh : (Vector.ofFn fun k : Fin 7 => fieldAt ((Payload.edgesImage t h).bytes ++ bs) (12 + 2 * k.val) 2) = h := by
    ext k hk
    have inside : k < h.toList.length := by simpa using hk
    have width : ((t.toList.map fun v => leBytes 2 (signed16 v)).flatten).length = 10 := by
      rw [length_flatten_map fun v => leBytes_length 2 (signed16 v)]
      simp
    rw [Vector.getElem_ofFn, show 12 + 2 * k = 2 + (10 + 2 * k) by omega, Payload.bytes, values, List.append_assoc,
      fieldAt_append_right (by rw [width]; omega), width, Nat.add_sub_cancel_left, fieldAt_numbers bs inside]
    all_goals rw [Vector.getElem_toList]
    exact Nat.lt_succ_of_le (rhs ⟨k, hk⟩)
  simp only [decodeSettingImage, temp, rh]
  simp only [Payload.bytes, code, number]

theorem decodeEngineImage_bytes {s : Settings} (fits : (Payload.engineImage s).fits) (bs : List Byte) :
    decodeEngineImage (partBytes 1 0 s.bytes ++ bs) = s := by
  obtain ⟨ceiling, outage, backdate, window, temp, rh⟩ := fits
  simp (disch := omega) only [decodeEngineImage, partBytes, Settings.bytes, List.append_assoc, fieldAt_here,
    fieldAt_skip,
    Nat.reduceSub]

theorem decodeProbeImage_bytes {n : Fin 32} {c : Option ProbeConfig} (fits : (Payload.probeImage n c).fits)
    (bs : List Byte) : decodeProbeImage (partBytes 2 n.val (probeImageBytes c) ++ bs) = some (n, c) := by
  cases c with
  | none =>
    have absent : fieldAt (List.replicate 8 0 ++ bs) 0 1 ≠ 1 := by simp [fieldAt, leNat, List.replicate]
    simp (disch := omega) only [decodeProbeImage, partBytes, probeImageBytes, List.append_assoc, fieldAt_here,
      fieldAt_skip,
      Nat.reduceSub, finOf?_val, bind, Option.bind_some, absent, if_false]
  | some c =>
    obtain ⟨address, interval, conversion⟩ := fits c rfl
    have bus := busCode_le c.bus
    have group := optCode_le (by omega) c.group
    simp (disch := omega) only [decodeProbeImage, partBytes, probeImageBytes, List.append_assoc, fieldAt_here,
      fieldAt_skip,
      Nat.reduceSub, finOf?_val, decodeBus_code, optField_optCode, bind, Option.bind_some, if_true]

theorem decodeGroupsImage_bytes {g : GroupsImage} (fits : (Payload.groupsImage g).fits) (bs : List Byte) :
    decodeGroupsImage (partBytes 3 0 g.bytes ++ bs) = some g := by
  obtain ⟨-, -, values⟩ := decodeSettingImage_parts (code := 3) (number := 0) (by omega) (by omega) g.bytes bs
  have record (k : Fin 4) : (leBytes 1 (bit g.modes[k] 0) ++ leBytes 2 g.leads[k]).length = 3 := by simp
  have width := length_flatten_map record (List.finRange 4)
  rw [List.length_finRange] at width
  have each {k : Nat} (hk : k < 4) {j len : Nat} (inside : j + len ≤ 3) :
      fieldAt (partBytes 3 0 g.bytes ++ bs) (2 + (3 * k + j)) len =
        fieldAt (leBytes 1 (bit g.modes[k] 0) ++ (leBytes 2 g.leads[k] ++ [])) j len := by
    rw [values, GroupsImage.bytes, List.append_assoc, List.append_assoc,
      fieldAt_flatten record inside _ (by simpa using hk), List.getElem_finRange, List.append_nil]
    rfl
  have modes : (Vector.ofFn fun k : Fin 4 => fieldAt (partBytes 3 0 g.bytes ++ bs) (2 + 3 * k.val) 1 == 1) =
      g.modes := by
    ext k hk
    have small := bit_le g.modes[k]
    rw [Vector.getElem_ofFn, ← Nat.add_zero (3 * k), each hk (by omega), fieldAt_here (by omega), bit_eq_one]
  have leads : (Vector.ofFn fun k : Fin 4 => fieldAt (partBytes 3 0 g.bytes ++ bs) (3 + 3 * k.val) 2) = g.leads := by
    ext k hk
    have small := fits ⟨k, hk⟩
    change g.leads[k] ≤ 65535 at small
    rw [Vector.getElem_ofFn, show 3 + 3 * k = 2 + (3 * k + 1) by omega, each hk (by omega), fieldAt_skip (by omega),
      fieldAt_here (by omega)]
  have fastA := speedCode_le g.fastA
  have fastB := speedCode_le g.fastB
  have speeds : fieldAt (partBytes 3 0 g.bytes ++ bs) 14 2 = speedCode g.fastA ∧
      fieldAt (partBytes 3 0 g.bytes ++ bs) 16 2 = speedCode g.fastB := by
    refine ⟨(values 12 2).trans ?_, (values 14 2).trans ?_⟩
    all_goals
      rw [GroupsImage.bytes, List.append_assoc, List.append_assoc,
        fieldAt_append_right (Nat.le_trans (Nat.le_of_eq width) (by omega)), width]
    · exact fieldAt_here (by omega) _
    · exact (fieldAt_skip (by omega) ..).trans (fieldAt_here (by omega) _)
  simp only [decodeGroupsImage, modes, leads, speeds, decodeSpeed_code, bind, Option.bind_some]

theorem decodeDoorImage_bytes {n : Fin 16} {d : DoorImage} (fits : (Payload.doorImage n d).fits) (bs : List Byte) :
    decodeDoorImage (partBytes 4 n.val d.bytes ++ bs) = some (n, d) := by
  obtain ⟨filter, limit⟩ := fits
  have zone := optCode_le (by omega) d.zone
  have level := bit_le d.openLow
  simp (disch := omega) only [decodeDoorImage, partBytes, DoorImage.bytes, List.append_assoc, fieldAt_here,
    fieldAt_skip,
    Nat.reduceSub, finOf?_val, optField_optCode, bit_eq_one, bind, Option.bind_some]

theorem Pattern.bytes_length (q : Pattern) : q.bytes.length = 3 := by simp [Pattern.bytes]

/-- Eight one-byte codes, and what stands behind them. -/
theorem fieldAt_codes {f : Fin 8 → Nat} (fits : ∀ k, f k ≤ 255) (bs : List Byte) :
    (∀ k : Fin 8, fieldAt (((List.finRange 8).map fun k => leBytes 1 (f k)).flatten ++ bs) k.val 1 = f k) ∧
      ∀ off len, fieldAt (((List.finRange 8).map fun k => leBytes 1 (f k)).flatten ++ bs) (8 + off) len =
        fieldAt bs off len := by
  have width := length_flatten_map (fun k => leBytes_length 1 (f k)) (List.finRange 8)
  rw [List.length_finRange] at width
  refine ⟨fun k => ?_, fun off len => ?_⟩
  · have inside : k.val < (List.finRange 8).length := by simp
    have listed : (List.finRange 8)[k.val] = k := by simp
    have one := fieldAt_numbers (w := 1) (f := f) bs inside (Nat.lt_succ_of_le (fits _))
    rw [Nat.one_mul, listed] at one
    exact one
  · rw [fieldAt_append_right (by rw [width]; omega), width, Nat.add_sub_cancel_left]

theorem patternAt_eq {q : Pattern} (fits : patternFits q) {as bs : List Byte} {off : Nat}
    (at_ : ∀ j len, fieldAt as (off + j) len = fieldAt (q.bytes ++ bs) j len) : patternAt as off = q := by
  rw [← patternAt_bytes fits bs, patternAt, patternAt, ← Nat.add_zero off, at_ 0, Nat.add_zero, at_ 1, Nat.zero_add]

theorem decodeOutputsImage_bytes {o : OutputsImage} (fits : (Payload.outputsImage o).fits) (bs : List Byte) :
    decodeOutputsImage (partBytes 5 0 o.bytes ++ bs) = some o := by
  obtain ⟨period, calmFits, warnFits, holdFits⟩ := fits
  obtain ⟨-, -, values⟩ := decodeSettingImage_parts (code := 5) (number := 0) (by omega) (by omega) o.bytes bs
  generalize partBytes 5 0 o.bytes ++ bs = rs at values ⊢
  simp only [OutputsImage.bytes, List.append_assoc] at values
  obtain ⟨override, past⟩ := fieldAt_codes (f := fun k => o.overrides[k].code) (fun k => Override.code_le _)
    (((List.finRange 8).map fun k => leBytes 1 (optCode o.lampZones[k])).flatten ++ (leBytes 2 o.stepPeriod ++
      (o.calm.bytes ++ (o.warn.bytes ++ (o.hold.bytes ++ bs)))))
  obtain ⟨zone, behind⟩ := fieldAt_codes (f := fun k => optCode o.lampZones[k]) (fun k => optCode_le (by omega) _)
    (leBytes 2 o.stepPeriod ++ (o.calm.bytes ++ (o.warn.bytes ++ (o.hold.bytes ++ bs))))
  have override' (k : Fin 8) : fieldAt rs (2 + k.val) 1 = o.overrides[k].code := (values ..).trans (override k)
  have zone' (k : Fin 8) : fieldAt rs (10 + k.val) 1 = optCode o.lampZones[k] := by
    rw [show 10 + k.val = 2 + (8 + k.val) by omega, values, past]
    exact zone k
  have tail (off len : Nat) : fieldAt rs (18 + off) len =
      fieldAt (leBytes 2 o.stepPeriod ++ (o.calm.bytes ++ (o.warn.bytes ++ (o.hold.bytes ++ bs)))) off len := by
    rw [show 18 + off = 2 + (8 + (8 + off)) by omega, values, past, behind]
  have calm : patternAt rs 20 = o.calm := patternAt_eq calmFits fun j len => by
    rw [show 20 + j = 18 + (2 + j) by omega, tail, fieldAt_skip (by omega), Nat.add_sub_cancel_left]
  have warn : patternAt rs 23 = o.warn := patternAt_eq warnFits fun j len => by
    rw [show 23 + j = 18 + (2 + (3 + j)) by omega, tail, fieldAt_skip (by omega), Nat.add_sub_cancel_left,
      fieldAt_append_right (by rw [Pattern.bytes_length]; omega), Pattern.bytes_length, Nat.add_sub_cancel_left]
  have hold : patternAt rs 26 = o.hold := patternAt_eq holdFits fun j len => by
    rw [show 26 + j = 18 + (2 + (3 + (3 + j))) by omega, tail, fieldAt_skip (by omega), Nat.add_sub_cancel_left,
      fieldAt_append_right (by rw [Pattern.bytes_length]; omega), Pattern.bytes_length, Nat.add_sub_cancel_left,
      fieldAt_append_right (by rw [Pattern.bytes_length]; omega), Pattern.bytes_length, Nat.add_sub_cancel_left]
  have step : fieldAt rs 18 2 = o.stepPeriod := (tail 0 2).trans (fieldAt_here (by omega) _)
  have overrides : (Vector.ofFn fun k : Fin 8 => o.overrides[k]) = o.overrides := by
    ext k hk
    simp
  have zones : (Vector.ofFn fun k : Fin 8 => o.lampZones[k]) = o.lampZones := by
    ext k hk
    simp
  simp only [decodeOutputsImage, override', zone', decodeOverride_code, optField_optCode (show 64 ≤ 255 by omega),
    Option.isSome_some, Bool.and_self, Option.getD_some, overrides, zones, calm, warn, hold, step]
  simp

/-! ### The whole entry -/

/-- The flags of a setting image need not be read: its part code and part number say what it is. -/
theorem decodeSettingImage_bytes {pl : Payload} (setting : pl.kindCode = 0x08) (fits : pl.fits) (bs : List Byte) :
    decodeSettingImage (pl.bytes ++ bs) = some pl := by
  cases pl with
  | cellsImage upper cells =>
    have small := bit_le upper
    obtain ⟨code, number, -⟩ := decodeSettingImage_parts (code := 0) (number := bit upper 0) (by omega) (by omega)
      ((cells.toList.map fun c => leBytes 2 (cellCode c)).flatten) bs
    have decodes := decodeCells_bytes fits (bit upper 0) (by omega) bs
    simp only [decodeSettingImage, Payload.bytes, code, number, decodes]
    cases upper <;> rfl
  | edgesImage t h => exact decodeEdges_bytes fits bs
  | engineImage s =>
    obtain ⟨code, -, -⟩ := decodeSettingImage_parts (code := 1) (number := 0) (by omega) (by omega) s.bytes bs
    simp only [decodeSettingImage, Payload.bytes, code, decodeEngineImage_bytes fits]
  | probeImage n c =>
    obtain ⟨code, -, -⟩ := decodeSettingImage_parts (code := 2) (number := n.val) (by omega) (by omega)
        (probeImageBytes c) bs
    simp only [decodeSettingImage, Payload.bytes, code, decodeProbeImage_bytes fits, Option.map_some]
  | groupsImage g =>
    obtain ⟨code, -, -⟩ := decodeSettingImage_parts (code := 3) (number := 0) (by omega) (by omega) g.bytes bs
    simp only [decodeSettingImage, Payload.bytes, code, decodeGroupsImage_bytes fits, Option.map_some]
  | doorImage n d =>
    obtain ⟨code, -, -⟩ := decodeSettingImage_parts (code := 4) (number := n.val) (by omega) (by omega) d.bytes bs
    simp only [decodeSettingImage, Payload.bytes, code, decodeDoorImage_bytes fits, Option.map_some]
  | outputsImage o =>
    obtain ⟨code, -, -⟩ := decodeSettingImage_parts (code := 5) (number := 0) (by omega) (by omega) o.bytes bs
    simp only [decodeSettingImage, Payload.bytes, code, decodeOutputsImage_bytes fits, Option.map_some]
  | _ => simp [Payload.kindCode] at setting

theorem decodePayload_bytes {pl : Payload} (fits : pl.fits) (bs : List Byte) :
    decodePayload pl.kindCode (pl.bytes ++ bs) = some pl := by
  cases pl with
  | sectorHead serial first =>
    obtain ⟨serialFits, firstFits⟩ := fits
    unfold fits32 at serialFits firstFits
    simp (disch := omega) only [decodePayload, Payload.kindCode, Payload.bytes, List.append_assoc, fieldAt_here,
      fieldAt_skip,
      Nat.reduceSub]
  | timeMark r =>
    have small : r.getD 0xFFFF < 256 ^ 2 := by
      cases r with
      | none => decide
      | some n => exact Nat.lt_trans (fits n rfl) (by decide)
    simp only [decodePayload, Payload.kindCode, Payload.bytes, fieldAt_here small]
    cases r with
    | none => rfl
    | some n => simp only [Option.getD_some, Nat.ne_of_lt (fits n rfl), if_false]
  | containerImage i =>
    simp only [decodePayload, Payload.kindCode, Payload.bytes, decodeContainerImage_bytes fits, Option.map_some]
  | retireEntry i id =>
    have wide := id.isLt
    simp (disch := omega) only [decodePayload, Payload.kindCode, Payload.bytes, List.append_assoc, fieldAt_here,
      fieldAt_skip,
      Nat.reduceSub, finOf?_val, idAt, BitVec.ofNat_toNat, BitVec.setWidth_eq, Option.map_some]
  | zoneImage z i =>
    simp only [decodePayload, Payload.kindCode, Payload.bytes, decodeZoneImage_bytes fits, Option.map_some]
  | zoneCondition z i =>
    simp only [decodePayload, Payload.kindCode, Payload.bytes, decodeZoneCondition_bytes fits, Option.map_some]
  | classImage n i =>
    simp only [decodePayload, Payload.kindCode, Payload.bytes, decodeClassImage_bytes fits, Option.map_some]
  | dropMark t => simp only [decodePayload, Payload.kindCode, Payload.bytes, fieldAt_here (k := 4) fits]
  | resyncEnd => rfl
  | formatEntry serial => simp only [decodePayload, Payload.kindCode, Payload.bytes, fieldAt_here (k := 4) fits]
  | cellsImage | edgesImage | engineImage | probeImage | groupsImage | doorImage | outputsImage =>
    exact decodeSettingImage_bytes rfl fits bs

theorem Payload.kindCode_le (pl : Payload) : pl.kindCode ≤ 255 := by
  cases pl <;> simp [Payload.kindCode]

theorem Payload.bytes_length (pl : Payload) : pl.bytes.length ≤ 53 := by
  cases pl with
  | containerImage i => simp [Payload.bytes, ContainerImage.bytes]
  | zoneImage z i => simp [Payload.bytes, ZoneImage.bytes, bandBytes]
  | zoneCondition z i => simp [Payload.bytes, ZoneConditionImage.bytes, bandBytes]
  | classImage n i => cases i <;> simp [Payload.bytes, classImageBytes]
  | cellsImage upper cells =>
    have width := length_flatten_map (fun c => leBytes_length 2 (cellCode c)) cells.toList
    simp only [Payload.bytes, partBytes, List.length_append, leBytes_length, width, Vector.length_toList]
    omega
  | edgesImage t h =>
    have temps := length_flatten_map (fun v => leBytes_length 2 (signed16 v)) t.toList
    have rhs := length_flatten_map (fun v => leBytes_length 2 v) h.toList
    simp only [Payload.bytes, partBytes, List.length_append, leBytes_length, temps, rhs, Vector.length_toList]
    omega
  | engineImage s => simp [Payload.bytes, partBytes, Settings.bytes]
  | probeImage n c => cases c <;> simp [Payload.bytes, partBytes, probeImageBytes]
  | groupsImage g => simp [Payload.bytes, partBytes, GroupsImage.bytes, List.finRange_succ]
  | doorImage n d => simp [Payload.bytes, partBytes, DoorImage.bytes]
  | outputsImage o => simp [Payload.bytes, partBytes, OutputsImage.bytes, Pattern.bytes, List.finRange_succ]
  | sectorHead | timeMark | retireEntry | dropMark | resyncEnd | formatEntry => simp [Payload.bytes]

theorem decodeEntry_entryBody {pl : Payload} {seq time : Nat} (fits : pl.fits) (seqFits : fits32 seq)
    (timeFits : fits32 time) (docket : Bool) (mark : Byte) :
    (entryBody pl docket seq time).length = 63 ∧ decodeEntry (entryBody pl docket seq time ++ [mark]) =
      { payload := some pl, seq := seq, time := time, marked := mark.toNat == 0 } := by
  unfold fits32 at seqFits timeFits
  have kind := pl.kindCode_le
  have body := padTo_length pl.bytes_length
  obtain ⟨rest, padded⟩ : ∃ rest, padTo 53 pl.bytes = pl.bytes ++ rest := ⟨_, rfl⟩
  refine ⟨?_, ?_⟩
  · simp only [entryBody, List.length_append, leBytes_length, body]
  · have payload : ((entryBody pl docket seq time ++ [mark]).drop 10).take 53 = pl.bytes ++ rest := by
      rw [← padded, entryBody, List.append_assoc, List.drop_left' (by simp), List.take_left' body]
    have last : fieldAt (padTo 53 pl.bytes ++ [mark]) 53 1 = mark.toNat := by
      rw [fieldAt_append_right (Nat.le_of_eq body), body]
      simp [fieldAt, leNat]
    rw [decodeEntry, payload]
    simp (disch := omega) only [entryBody, List.append_assoc, fieldAt_here, fieldAt_skip, Nat.reduceSub, last,
      decodePayload_bytes fits]

/-- Settles O12. -/
theorem journalEntryReadsBack : Obligations.JournalEntryReadsBack := by
  intro pl docket seq time fits seqFits timeFits
  obtain ⟨length, read⟩ := decodeEntry_entryBody fits seqFits timeFits docket 0x00#8
  obtain ⟨-, unread⟩ := decodeEntry_entryBody fits seqFits timeFits docket 0xFF#8
  refine ⟨length, read, ?_⟩
  rw [unread]
  rfl

end Sys2Proof.Machine

/-! ## Commits (O56) -/

namespace Sys2Proof.Machine

/-! ### The arbiter, with staging open and no FORMAT -/

theorem Part.pump_arbitrates {p : Part} (open_ : p.jnc.closing = none) (unformatted : p.jnc.format = none)
    (free : p.jnc.port.job = none) (intact : p.jnc.journal ≠ .failed) : p.pump = p.arbitrate := by
  have still : p.closingMark.stopStaging = p := by simp [Part.closingMark, open_, Part.stopStaging, unformatted]
  simp only [Part.pump, still, free, unformatted, intact, Option.isSome_none, Bool.false_eq_true, if_false]

theorem Part.arbitrate_serves {p : Part} (due : p.commitDue = true) : p.arbitrate = p.serveCommit := if_pos due

theorem Part.arbitrate_rests {p : Part} (idle : p.commitDue = false) (whole : p.jnc.port.suspended = none)
    (open_ : p.jnc.closing = none) : p.arbitrate = p := by
  simp [Part.arbitrate, idle, whole, open_]

/-- An entry waits and its sector is open. -/
theorem Part.commitDue_open {p : Part} (waits : p.jnc.queue ≠ []) (sector : p.jnc.sectorOpen = true)
    (place : p.jnc.headPos < 64) : p.commitDue = true ∧ p.serveCommit = p.startJob (.program .entryBody) := by
  have inside : ¬ 64 ≤ p.jnc.headPos := Nat.not_le.2 place
  refine ⟨?_, ?_⟩
  · simp [Part.commitDue, Part.canServe, inside, sector, waits]
  · simp [Part.serveCommit, inside, sector]

/-- No entry waits and no sector is to be opened. -/
theorem Part.commitDue_empty {p : Part} (none_ : p.jnc.queue = []) (place : p.jnc.headPos < 64)
    (sector : p.jnc.sectorOpen = false → p.jnc.sectorCounted = true) : p.commitDue = false := by
  have inside : ¬ 64 ≤ p.jnc.headPos := Nat.not_le.2 place
  have opened : (!p.jnc.sectorOpen && !p.jnc.sectorCounted) = false := by
    cases h : p.jnc.sectorOpen with
    | true => rfl
    | false => rw [sector h]; rfl
  simp [Part.commitDue, Part.openingDue, none_, inside, opened]

/-- The ring has no free sector. -/
theorem Part.commitDue_full {p : Part} (last : 64 ≤ p.jnc.headPos) (full : nextSector p.jnc.headSector = p.jnc.tail) :
    p.commitDue = false := by
  simp [Part.commitDue, Part.canServe, last, full]

/-- The next sector of the ring is to be opened. -/
theorem Part.commitDue_opens {p : Part} (open_ : p.jnc.closing = none) (unformatted : p.jnc.format = none)
    (last : 64 ≤ p.jnc.headPos) (free : nextSector p.jnc.headSector ≠ p.jnc.tail)
      (whole : p.jnc.port.suspended = none) :
    p.commitDue = true := by
  simp [Part.commitDue, Part.openingDue, Part.canServe, open_, unformatted, last, free, whole]

/-! ### Page programs -/

theorem Memory.readBlock_blank {blank : Byte} {m : Memory} {a k n : Nat} (le : k ≤ n)
    (whole : m.readBlock blank a n = List.replicate n blank) : m.readBlock blank a k = List.replicate k blank := by
  refine List.ext_getElem (by simp [Memory.readBlock_length]) fun i h _ => ?_
  rw [Memory.readBlock_length] at h
  have inside : i < (m.readBlock blank a n).length := by
    rw [Memory.readBlock_length]
    omega
  rw [Memory.readBlock_getElem, ← Memory.readBlock_getElem blank m a n i inside, List.getElem_replicate]
  simp only [whole, List.getElem_replicate]

theorem zipWith_and_ones (bs : List Byte) : List.zipWith (· &&& ·) (List.replicate bs.length flashBlank) bs = bs := by
  induction bs with
  | nil => rfl
  | cons b bs ih =>
    have byte : flashBlank &&& b = b := BitVec.allOnes_and
    simp only [List.length_cons, List.replicate_succ, List.zipWith_cons_cons, byte, ih]

/-- A program of erased bytes leaves the bytes programmed, and reads them back. -/
theorem Flash.program_blank {f : Flash} {a : Nat} {bs : List Byte}
    (blank : f.cells.readBlock flashBlank a bs.length = List.replicate bs.length flashBlank) :
    f.program a bs = { f with cells := f.cells.write flashBlank a bs } ∧
      (f.program a bs).cells.readBlock flashBlank a bs.length = bs := by
  have eq : f.program a bs = { f with cells := f.cells.write flashBlank a bs } := by
    simp only [Flash.program, blank, zipWith_and_ones]
  refine ⟨eq, ?_⟩
  rw [eq]
  exact Memory.readBlock_write ..

/-- A commit mark is 0 whatever the byte was. -/
theorem Flash.program_mark (f : Flash) (a : Nat) : f.program a [0] =
    { f with cells := f.cells.write flashBlank a [0] } ∧
    (f.program a [0]).cells.readBlock flashBlank a 1 = [0] := by
  have eq : f.program a [0] = { f with cells := f.cells.write flashBlank a [0] } := by
    simp [Flash.program, Memory.readBlock]
  refine ⟨eq, ?_⟩
  rw [eq]
  exact Memory.readBlock_write ..

/-- A page program that finishes in its time and reads back what was programmed. -/
theorem Part.programComplete_good {step : ProgramStep} {a : Nat} {bs : List Byte} {p : Part}
    (job : p.jnc.port.job = some (.program step)) (prompt : p.jnc.port.timedOut = false)
    (target : p.programTarget step = (a, bs))
    (reads : (p.flash.program a bs).cells.readBlock flashBlank a bs.length = bs) :
    p.programComplete .done = Part.programDone step { p with flash := p.flash.program a bs } := by
  simp only [Part.programComplete, job, prompt, Part.applyProgram, target, reads, beq_self_eq_true,
    Bool.false_eq_true, if_false,
    if_true]

theorem Part.programComplete_blank {step : ProgramStep} {a : Nat} {bs : List Byte} {p : Part}
    (job : p.jnc.port.job = some (.program step)) (prompt : p.jnc.port.timedOut = false)
    (target : p.programTarget step = (a, bs)) (length : bs.length = 63)
    (blank : p.flash.cells.readBlock flashBlank a 64 = List.replicate 64 flashBlank) :
    p.programComplete .done =
      Part.programDone step { p with flash := { p.flash with cells := p.flash.cells.write flashBlank a bs } } := by
  obtain ⟨eq, reads⟩ := Flash.program_blank (f := p.flash) (a := a) (bs := bs)
    (Memory.readBlock_blank (by omega) blank)
  rw [Part.programComplete_good job prompt target reads, eq]

theorem Part.programComplete_mark {step : ProgramStep} {a : Nat} {p : Part} (job : p.jnc.port.job =
    some (.program step))
    (prompt : p.jnc.port.timedOut = false) (target : p.programTarget step = (a, [0])) : p.programComplete .done =
      Part.programDone step { p with flash := { p.flash with cells := p.flash.cells.write flashBlank a [0] } } := by
  obtain ⟨eq, reads⟩ := Flash.program_mark p.flash a
  rw [Part.programComplete_good job prompt target reads, eq]

theorem Part.programComplete_latch {step : ProgramStep} {p : Part} (job : p.jnc.port.job = some (.program step))
    (prompt : p.jnc.port.timedOut = false) :
    p.programComplete .latchClear = p.countFailure (Part.programAgain step) := by
  simp only [Part.programComplete, job, prompt, Part.applyProgram, Bool.false_eq_true, if_false]

/-! ### Failures -/

theorem Part.countFailure_first {p : Part} (first : p.jnc.failures = 0) (retry : Part → Part) :
    p.countFailure retry = retry { p with jnc := { p.jnc with failures := 1 } } := by
  simp only [Part.countFailure, first, Nat.zero_add, ge_iff_le, Nat.reduceLeDiff, if_false, Part.onJnc]

/-- R159: a second failure in a row makes the journal FAILED. -/
theorem Part.countFailure_second {p : Part} (again : 1 ≤ p.jnc.failures) (open_ : p.jnc.closing = none)
    (unformatted : p.jnc.format = none) (retry : Part → Part) : let q := p.countFailure retry
    q.exi.cause.getLsbD 2 = true ∧ p.handAfterFailure q ∧ q = { p with
      jnc := { p.jnc with journal := .failed, failures := 2, queue := [], waiting := [], compaction := .idle, port := .reset }
      exi := { p.exi with inHand := q.exi.inHand, headerMark := true, cause := q.exi.cause, messages := q.exi.messages } } := by
  have fails : p.countFailure retry = Part.failJournal { p with jnc := { p.jnc with failures := 2 } } :=
    if_pos (by omega)
  obtain ⟨hand, engine, eq⟩ := Part.failJournal_spec (p :=
      { p with jnc := { p.jnc with failures := 2 } }) open_ unformatted
  rw [fails]
  exact ⟨engine, hand, eq⟩

/-! ### The commands -/

theorem exec_programComplete {s : State} {reply : ProgramReply} (on : s.part.tbu.mainPower = true) :
    exec (.programComplete reply) s = .next (s.withPart (s.part.programComplete reply)) :=
  exec_of_powered (f := Part.programComplete reply) rfl on rfl

/-- The part once the oldest entry has committed. -/
def Part.afterCommit (e : Staged) (rest : List Staged) (p : Part) : Part := { p with
  flash := { p.flash with cells := p.flash.cells.write flashBlank (flashAddr p.jnc.headSector p.jnc.headPos + 63) [0] }
  jnc := { p.jnc with
    failures := 0, queue := rest, nextSeq := p.jnc.nextSeq + 1, headPos := p.jnc.headPos + 1
    newest := match e.payload.object with
      | some o => (o, p.jnc.headSector) :: p.jnc.newest.filter (fun r => r.1 != o)
      | none => p.jnc.newest
    port := { p.jnc.port with job := none, elapsed := 0, timedOut := false } } }

/-- R161: the mark of an entry that is no DROP_MARK and no RESYNC_END. -/
theorem Part.programComplete_commits {e : Staged} {rest : List Staged} {p : Part} (queue : p.jnc.queue = e :: rest)
    (job : p.jnc.port.job = some (.program .entryMark)) (prompt : p.jnc.port.timedOut = false)
    (noDrop : ∀ t, e.payload ≠ .dropMark t) (noEnd : e.payload ≠ .resyncEnd) :
    p.programComplete .done = (p.afterCommit e rest).pump := by
  rw [Part.programComplete_mark job prompt rfl]
  refine congrArg Part.pump ?_
  obtain ⟨payload, time, owner⟩ := e
  cases payload with
  | dropMark t => exact absurd rfl (noDrop t)
  | resyncEnd => exact absurd rfl noEnd
  | _ =>
    simp only [Part.commitEntry, Part.freePort, Part.onPort, Part.onJnc, queue, Part.afterCommit] <;>
      rfl

/-- R160: what the commit of the last entry leads on to. -/
theorem Part.afterCommit_pump {e : Staged} {p : Part} (open_ : p.jnc.closing = none) (unformatted : p.jnc.format = none)
    (intact : p.jnc.journal ≠ .failed) (sector : p.jnc.sectorOpen = true) (whole : p.jnc.port.suspended = none) :
    let q := p.afterCommit e []
    (p.jnc.headPos + 1 < 64 ∨ nextSector p.jnc.headSector = p.jnc.tail → q.pump = q) ∧
    (64 ≤ p.jnc.headPos + 1 → nextSector p.jnc.headSector ≠ p.jnc.tail →
      (nextSector p.jnc.headSector ∈ p.jnc.notErased →
        q.pump = q.startJob (.erase (.opening (nextSector p.jnc.headSector)))) ∧
      (nextSector p.jnc.headSector ∉ p.jnc.notErased →
        q.pump = (q.moveHead (nextSector p.jnc.headSector)).startJob (.program .headBody))) := by
  intro q
  have pumped : q.pump = q.arbitrate := Part.pump_arbitrates open_ unformatted rfl intact
  rw [pumped]
  refine ⟨fun rests => Part.arbitrate_rests ?_ whole open_, fun last free => ?_⟩
  · by_cases place : q.jnc.headPos < 64
    · exact Part.commitDue_empty rfl place fun closed => absurd (closed.symm.trans sector) (by decide)
    · exact Part.commitDue_full (Nat.not_lt.1 place) (rests.resolve_left place)
  · rw [Part.arbitrate_serves (Part.commitDue_opens (p := q) open_ unformatted last free whole)]
    have at_ : 64 ≤ q.jnc.headPos := last
    refine ⟨fun unknown => ?_, fun erased => ?_⟩
    · have unknown' : q.jnc.notErased.contains (nextSector q.jnc.headSector) = true := List.contains_iff_mem.2 unknown
      simp only [Part.serveCommit, at_, if_true, unknown']
      rfl
    · have erased' : q.jnc.notErased.contains (nextSector q.jnc.headSector) = false := by
        rw [← Bool.not_eq_true, List.contains_iff_mem]
        exact erased
      simp only [Part.serveCommit, at_, if_true, erased', Bool.false_eq_true, if_false]
      rfl

/-- R160: a failed program of an entry is repeated at the next position. -/
theorem Part.programAgain_entry {step : ProgramStep} {p : Part} (entry : step = .entryBody ∨ step = .entryMark)
    (open_ : p.jnc.closing = none) (unformatted : p.jnc.format = none) (intact : p.jnc.journal ≠ .failed)
    (sector : p.jnc.sectorOpen = true) (waits : p.jnc.queue ≠ []) (place : p.jnc.headPos + 1 < 64) :
    p.programAgain step = { p with jnc := { p.jnc with headPos := p.jnc.headPos + 1, port := { p.jnc.port with
      job := some (.program .entryBody), since := p.now, elapsed := 0, timedOut := false } } } := by
  obtain ⟨q, hq⟩ : ∃ q : Part, q = { p with jnc := { p.jnc with
    headPos := p.jnc.headPos + 1, port := { p.jnc.port with job := none, elapsed := 0, timedOut := false } } } :=
      ⟨_, rfl⟩
  have fields : q.jnc.closing = none ∧ q.jnc.format = none ∧ q.jnc.port.job = none ∧ q.jnc.journal ≠ .failed ∧
      q.jnc.queue ≠ [] ∧ q.jnc.sectorOpen = true ∧ q.jnc.headPos < 64 := by
    rw [hq]
    exact ⟨open_, unformatted, rfl, intact, waits, sector, place⟩
  obtain ⟨open', unformatted', free, intact', waits', sector', place'⟩ := fields
  have again : p.programAgain step = q.sectorSpent.pump := by
    rw [hq]
    rcases entry with rfl | rfl <;> rfl
  have unspent : q.sectorSpent = q := if_neg fun h => h.2.1 sector'
  obtain ⟨due, serves⟩ := Part.commitDue_open waits' sector' place'
  rw [again, unspent, Part.pump_arbitrates open' unformatted' free intact', Part.arbitrate_serves due, serves, hq]
  rfl

/-- R160: a sector is open once its SECTOR_HEAD has committed. -/
theorem Part.openSector_pump {p : Part} (open_ : p.jnc.closing = none) (unformatted : p.jnc.format = none)
    (intact : p.jnc.journal ≠ .failed) (empty : p.jnc.queue = []) (whole : p.jnc.port.suspended = none)
    (free : p.jnc.port.job = none) (place : p.jnc.headPos < 63) : p.openSector.pump = { p with
      exi := { p.exi with headerMark := p.exi.headerMark || !p.jnc.sectorCounted }
      jnc := { p.jnc with
        sectorOpen := true, sectorCounted := true, headPos := p.jnc.headPos + 1
        freeCount := if p.jnc.sectorCounted = true then p.jnc.freeCount else p.jnc.freeCount - 1 } } := by
  obtain ⟨q, hq⟩ : ∃ q, q = p.openSector := ⟨_, rfl⟩
  have opens : q = { p with
      exi := { p.exi with headerMark := p.exi.headerMark || !p.jnc.sectorCounted }
      jnc := { p.jnc with
        sectorOpen := true, sectorCounted := true, headPos := p.jnc.headPos + 1
        freeCount := if p.jnc.sectorCounted = true then p.jnc.freeCount else p.jnc.freeCount - 1 } } := by
    rw [hq, Part.openSector]
    cases p.jnc.sectorCounted
    · simp [Part.onJnc, Part.postHeader]
    · simp [Part.onJnc]
  rw [← hq, ← opens]
  have fields : q.jnc.closing = none ∧ q.jnc.format = none ∧ q.jnc.port.job = none ∧ q.jnc.journal ≠ .failed ∧
      q.jnc.queue = [] ∧ q.jnc.sectorOpen = true ∧ q.jnc.headPos < 64 ∧ q.jnc.port.suspended = none := by
    rw [opens]
    exact ⟨open_, unformatted, free, intact, empty, rfl, Nat.succ_lt_succ place, whole⟩
  obtain ⟨open', unformatted', free', intact', empty', sector', place', whole'⟩ := fields
  rw [Part.pump_arbitrates open' unformatted' free' intact']
  exact Part.arbitrate_rests
    (Part.commitDue_empty empty' place' fun closed => absurd (closed.symm.trans sector') (by decide)) whole' open'

/-- Settles O56. -/
theorem programsCommitTheOldestEntry : Obligations.ProgramsCommitTheOldestEntry := by
  refine ⟨fun s on => ?_, fun s on => ?_⟩
  · intro p j a e rest queue open_ unformatted intact sector prompt whole
    refine ⟨fun job => ?_, fun job noDrop noEnd last => ?_, fun job => ⟨fun first place => ?_, fun again => ?_⟩⟩
    · intro bytes blank length
      rw [exec_programComplete on]
      refine next_congr ?_
      have target : s.part.programTarget .entryBody = (a, bytes) := by
        simp only [Part.programTarget, show s.part.jnc.queue = e :: rest from queue]
        rfl
      rw [Part.programComplete_blank job prompt target length blank]
      rfl
    · subst last
      intro committed next opens
      obtain ⟨rests, opened⟩ := Part.afterCommit_pump (e := e) open_ unformatted intact sector whole
      have commits := Part.programComplete_commits queue job prompt noDrop noEnd
      refine ⟨fun h => ?_, fun full free => ⟨fun unknown => ?_, fun erased => ?_⟩⟩
      · rw [exec_programComplete on, commits, rests h]
        rfl
      · rw [exec_programComplete on, commits, (opened full free).1 unknown]
        rfl
      · rw [exec_programComplete on, commits, (opened full free).2 erased]
        rfl
    · obtain ⟨step, entry, runs⟩ : ∃ step, (step = .entryBody ∨ step = .entryMark) ∧
          j.port.job = some (.program step) := by
        rcases job with job | job
        · exact ⟨_, .inl rfl, job⟩
        · exact ⟨_, .inr rfl, job⟩
      rw [exec_programComplete on]
      refine next_congr ?_
      have waits : s.part.jnc.queue ≠ [] := by
        rw [show s.part.jnc.queue = e :: rest from queue]
        exact List.cons_ne_nil e rest
      rw [Part.programComplete_latch runs prompt, Part.countFailure_first first,
        Part.programAgain_entry (p := { s.part with jnc := { s.part.jnc with failures := 1 } }) entry open_ unformatted intact
          sector waits place]
      rfl
    · obtain ⟨step, runs⟩ : ∃ step, j.port.job = some (.program step) := by
        rcases job with job | job
        · exact ⟨_, job⟩
        · exact ⟨_, job⟩
      refine ⟨_, exec_programComplete on, ?_⟩
      rw [Part.programComplete_latch runs prompt]
      exact Part.countFailure_second again open_ unformatted _
  · intro p j a body empty open_ unformatted intact closed prompt whole place
    refine ⟨fun job length blank => ?_, fun job => ?_⟩
    · rw [exec_programComplete on]
      refine next_congr ?_
      rw [Part.programComplete_blank job prompt rfl length blank]
      rfl
    · rw [exec_programComplete on]
      refine next_congr ?_
      rw [Part.programComplete_mark job prompt rfl]
      exact Part.openSector_pump (p := Part.freePort (Part.onJnc _ { p with flash := _ })) open_ unformatted intact empty
        whole rfl place

end Sys2Proof.Machine

/-! ## The flash's timers and the suspended erase (O57) -/

namespace Sys2Proof.Machine

theorem exec_eraseComplete {s : State} {reply : EraseReply} (on : s.part.tbu.mainPower = true) :
    exec (.eraseComplete reply) s = .next (s.withPart (s.part.eraseComplete reply)) :=
  exec_of_powered (f := Part.eraseComplete reply) rfl on rfl

theorem exec_eraseSuspend {s : State} (on : s.part.tbu.mainPower = true) :
    exec .eraseSuspend s = .next (s.withPart s.part.suspendErase) :=
  exec_of_powered (f := Part.suspendErase) rfl on rfl

theorem exec_flashTimeout {s : State} {op : TimedFlashOp} (on : s.part.tbu.mainPower = true) :
    exec (.flashTimeout op) s = .next (s.withPart (s.part.flashTimeout op)) :=
  exec_of_powered (f := Part.flashTimeout op) rfl on rfl

theorem exec_busyOutlastsBound {s : State} (on : s.part.tbu.mainPower = true) :
    exec .busyOutlastsBound s = .next (s.withPart s.part.busyOutlasts) :=
  exec_of_powered (f := Part.busyOutlasts) rfl on rfl

/-- A failure whose operation is waited out. -/
def Part.waitOut (p : Part) : Part := p.onPort fun r => { r with timedOut := true, elapsed := 0 }

/-- The operation of the port that a flash timer runs for. -/
def Part.timed (p : Part) (op : TimedFlashOp) : Prop :=
  (∃ x, p.jnc.port.job = some (.program x) ∧ op = .program) ∨ (∃ x, p.jnc.port.job = some (.erase x) ∧ op = .erase) ∨
    ∃ n, p.jnc.port.job = some (.erase (.compaction n)) ∧ op = .suspend ∧ (p.jnc.queue ≠ [] ∨ p.warningSuspends = true)

theorem Part.flashTimeout_counts {op : TimedFlashOp} {p : Part} (runs : p.timed op)
    (prompt : p.jnc.port.timedOut = false) : p.flashTimeout op = p.countFailure Part.waitOut := by
  rcases runs with ⟨x, job, rfl⟩ | ⟨x, job, rfl⟩ | ⟨n, job, rfl, calls⟩
  · simp only [Part.flashTimeout, prompt, job, Bool.false_eq_true, if_false]
    rfl
  · simp only [Part.flashTimeout, prompt, job, Bool.false_eq_true, if_false]
    rfl
  · have calls' : (p.warningSuspends || !p.jnc.queue.isEmpty) = true := by
      rcases calls with waits | warned
      · simp [waits]
      · rw [warned]
        rfl
    simp only [Part.flashTimeout, prompt, job, calls', Bool.false_eq_true, if_false, if_true]
    rfl

theorem Part.flashTimeout_first {op : TimedFlashOp} {p : Part} (runs : p.timed op)
    (prompt : p.jnc.port.timedOut = false)
    (first : p.jnc.failures = 0) : p.flashTimeout op =
      { p with jnc := { p.jnc with failures := 1, port := { p.jnc.port with timedOut := true, elapsed := 0 } } } := by
  rw [Part.flashTimeout_counts runs prompt, Part.countFailure_first first]
  rfl

/-- The suspension of a compaction's erase. -/
def Part.suspended (n : Nat) (p : Part) : Part := { p with jnc := { p.jnc with port := { p.jnc.port with
  job := none, suspended := some (.compaction n), suspendedMs := p.jnc.port.elapsed, elapsed := 0 } } }

/-- R174: a power-fail warning has closed staging, with no FORMAT in progress. -/
theorem Part.warningSuspends_of {m : Bool} {p : Part} (closed : p.jnc.closing = some { recover := false, marked := m })
    (unformatted : p.jnc.format = none) : p.warningSuspends = true := by
  simp [Part.warningSuspends, Jnc.warned, closed, unformatted]

theorem Part.suspendErase_eq {n : Nat} {p : Part} (job : p.jnc.port.job = some (.erase (.compaction n)))
    (prompt : p.jnc.port.timedOut = false) (calls : p.warningSuspends = true ∨ (p.jnc.queue ≠ [] ∧ p.canServe = true)) :
    p.suspendErase = (p.suspended n).pump := by
  have calls' : (!p.jnc.port.timedOut && (p.warningSuspends || (!p.jnc.queue.isEmpty && p.canServe))) = true := by
    rcases calls with warned | ⟨waits, serve⟩
    · simp [prompt, warned]
    · simp [prompt, waits, serve]
  simp only [Part.suspendErase, job, calls', if_true]
  rfl

/-- R158: a commit that waits suspends the erase of a compaction. -/
theorem Part.suspendErase_serves {n : Nat} {p : Part} (job : p.jnc.port.job = some (.erase (.compaction n)))
    (prompt : p.jnc.port.timedOut = false) (waits : p.jnc.queue ≠ []) (sector : p.jnc.sectorOpen = true)
    (place : p.jnc.headPos < 64) (intact : p.jnc.journal ≠ .failed) (open_ : p.jnc.closing = none)
    (unformatted : p.jnc.format = none) : p.suspendErase = (p.suspended n).startJob (.program .entryBody) := by
  have serve : p.canServe = true := by simp [Part.canServe, Nat.not_le.2 place, sector]
  rw [Part.suspendErase_eq job prompt (.inr ⟨waits, serve⟩)]
  have pumped : (p.suspended n).pump = (p.suspended n).arbitrate := Part.pump_arbitrates open_ unformatted rfl intact
  obtain ⟨due, serves⟩ := Part.commitDue_open (p := p.suspended n) waits sector place
  rw [pumped, Part.arbitrate_serves due, serves]

theorem Part.suspendErase_idle {p : Part} (empty : p.jnc.queue = []) (open_ : p.jnc.closing = none) :
    p.suspendErase = p := by
  have calm : p.warningSuspends = false := by simp [Part.warningSuspends, Jnc.warned, open_]
  unfold Part.suspendErase
  split
  · exact if_neg (by simp [calm, empty])
  · rfl

/-! ### Closed staging -/

theorem Part.enqueue_timeMark {owner : StagedBy} {r : Option Nat} {p : Part} : p.enqueue owner [.timeMark r] =
    { p with jnc := { p.jnc with
      queue := p.jnc.queue ++ [{ payload := .timeMark r, time := p.now, owner := owner }], sinceMark := 0 } } := by
  have plain : p.clearMark (.timeMark r) = p := by
    unfold Part.clearMark
    split <;> rfl
  simp only [Part.enqueue, List.foldl_cons, List.foldl_nil, plain, Part.onJnc]

/-- The queue with the last TIME_MARK of a closed staging. -/
def Part.lastMarked (recover : Bool) (p : Part) : Part := { p with jnc := { p.jnc with
  queue := [{ payload := .timeMark none, time := p.now, owner := .internal }], sinceMark := 0
  closing := some { recover := recover, marked := true } } }

/-- R174: closed staging with an empty queue stages its last TIME_MARK. -/
theorem Part.closingMark_last {recover : Bool} {p : Part} (closed : p.jnc.closing =
    some { recover := recover, marked := false })
    (empty : p.jnc.queue = []) (unformatted : p.jnc.format = none) (intact : p.jnc.journal ≠ .failed)
    (free : p.jnc.port.job = none) (running : p.jnc.engine = .running) :
    p.closingMark.stopStaging = p.lastMarked recover := by
  have calm : p.jnc.compactionErasing = false := by simp [Jnc.compactionErasing, free]
  have calls : (!false && p.jnc.queue.isEmpty && p.jnc.format.isNone && p.jnc.journal != .failed &&
      (recover || !p.jnc.compactionErasing)) = true := by simp [empty, unformatted, intact, calm]
  have marks : p.closingMark = p.lastMarked recover := by
    simp only [Part.closingMark, closed, calls, if_true, Part.onJnc]
    refine (if_pos running).trans ?_
    rw [Part.enqueue_timeMark, Part.lastMarked]
    simp only [empty, List.nil_append]
    rfl
  have unformatted' : (p.lastMarked recover).jnc.format = none := unformatted
  rw [marks, Part.stopStaging, unformatted']

/-- The last TIME_MARK, and what the port does with it. -/
theorem Part.pump_marks {recover : Bool} {p : Part} (closed : p.jnc.closing =
    some { recover := recover, marked := false })
    (empty : p.jnc.queue = []) (unformatted : p.jnc.format = none) (intact : p.jnc.journal ≠ .failed)
    (free : p.jnc.port.job = none) (running : p.jnc.engine = .running) :
    p.pump = (p.lastMarked recover).arbitrate := by
  have free' : (p.lastMarked recover).jnc.port.job = none := free
  have unformatted' : (p.lastMarked recover).jnc.format = none := unformatted
  have intact' : (p.lastMarked recover).jnc.journal ≠ .failed := intact
  rw [Part.pump, Part.closingMark_last closed empty unformatted intact free running]
  simp only [free', unformatted', intact', Option.isSome_none, Bool.false_eq_true, if_false]

/-- With its sector open the program of the last TIME_MARK begins. -/
theorem Part.pump_lastMark {recover : Bool} {p : Part} (closed : p.jnc.closing =
    some { recover := recover, marked := false })
    (empty : p.jnc.queue = []) (unformatted : p.jnc.format = none) (intact : p.jnc.journal ≠ .failed)
    (free : p.jnc.port.job = none) (running : p.jnc.engine = .running) (sector : p.jnc.sectorOpen = true)
    (place : p.jnc.headPos < 64) : p.pump = (p.lastMarked recover).startJob (.program .entryBody) := by
  obtain ⟨due, serves⟩ := Part.commitDue_open (p := p.lastMarked recover) (List.cons_ne_nil _ _) sector place
  rw [Part.pump_marks closed empty unformatted intact free running, Part.arbitrate_serves due, serves]

/-- Settles O57. -/
theorem flashFailuresAndSuspend : Obligations.FlashFailuresAndSuspend := by
  intro s on p j failed
  refine ⟨fun n job prompt empty sector place intact unformatted running closed => ⟨?_, fun first => ?_⟩,
    fun open_ unformatted => ⟨fun e job prompt again => ?_, fun op prompt runs => ?_, fun late job => ?_,
      fun prompt => ?_,
      fun n job prompt waits sector place intact => ?_, fun empty => ?_⟩⟩
  · rw [exec_eraseSuspend on]
    refine next_congr ?_
    rw [Part.suspendErase_eq job prompt (.inl (Part.warningSuspends_of closed unformatted)),
      Part.pump_lastMark (p := s.part.suspended n) closed empty unformatted intact rfl running sector place]
    rfl
  · rw [exec_flashTimeout on]
    refine next_congr (Part.flashTimeout_first (.inr (.inr ⟨n, job, rfl, .inr ?_⟩)) prompt first)
    exact Part.warningSuspends_of closed unformatted
  · refine ⟨_, exec_eraseComplete on, ?_⟩
    have counts : s.part.eraseComplete .latchClear = s.part.countFailure (Part.eraseAgain e) := by
      simp only [Part.eraseComplete, show s.part.jnc.port.job = some (.erase e) from job,
        show s.part.jnc.port.timedOut = false from prompt, Bool.false_eq_true, if_false]
    rw [counts]
    exact Part.countFailure_second again open_ unformatted _
  · have runs' : s.part.timed op := by
      rcases runs with program | erase | ⟨n, job, suspend, waits⟩
      · exact .inl program
      · exact .inr (.inl erase)
      · exact .inr (.inr ⟨n, job, suspend, .inl waits⟩)
    refine ⟨fun first => ?_, fun again => ⟨_, exec_flashTimeout on, ?_⟩⟩
    · rw [exec_flashTimeout on]
      exact next_congr (Part.flashTimeout_first runs' prompt first)
    · rw [Part.flashTimeout_counts runs' prompt]
      exact Part.countFailure_second again open_ unformatted _
  · refine ⟨_, exec_busyOutlastsBound on, ?_⟩
    have fails : s.part.busyOutlasts = s.part.failJournal := if_pos <| by
      rw [show s.part.jnc.port.timedOut = true from late, Option.isSome_iff_ne_none.2 job]
      rfl
    obtain ⟨hand, engine, eq⟩ := Part.failJournal_spec (p := s.part) open_ unformatted
    rw [fails]
    exact ⟨engine, hand, eq⟩
  · rw [exec_busyOutlastsBound on]
    have idle : s.part.busyOutlasts = s.part := if_neg <| by
      rw [show s.part.jnc.port.timedOut = false from prompt]
      exact Bool.false_ne_true
    rw [idle]
    rfl
  · rw [exec_eraseSuspend on]
    refine next_congr ?_
    rw [Part.suspendErase_serves job prompt waits sector place intact open_ unformatted]
    rfl
  · rw [exec_eraseSuspend on, Part.suspendErase_idle empty open_]
    rfl

end Sys2Proof.Machine

/-! ## Compaction (O58) -/

namespace Sys2Proof.Machine

theorem exec_compactionImages {s : State} (on : s.part.tbu.mainPower = true) :
    exec .compactionImages s = .next (s.withPart s.part.compactionImages) :=
  exec_of_powered (f := Part.compactionImages) rfl on rfl

theorem exec_compactionTimeMark {s : State} (on : s.part.tbu.mainPower = true) :
    exec .compactionTimeMark s = .next (s.withPart s.part.compactionTimeMark) :=
  exec_of_powered (f := Part.compactionTimeMark) rfl on rfl

theorem exec_compactionErase {s : State} (on : s.part.tbu.mainPower = true) :
    exec .compactionErase s = .next (s.withPart s.part.compactionErase) :=
  exec_of_powered (f := Part.compactionErase) rfl on rfl

/-! ### The images -/

/-- The JNC's housekeeping runs. -/
structure Part.Keeps (p : Part) : Prop where
  open_ : p.jnc.closing = none
  unformatted : p.jnc.format = none
  ok : p.jnc.journal = .ok
  running : p.jnc.engine = .running

theorem Part.Keeps.housekeeping {p : Part} (h : p.Keeps) : p.housekeeping = true := by
  simp [Part.housekeeping, Part.stagingOpen, Jnc.formatStages, h.open_, h.unformatted, h.ok, h.running]

theorem Part.Keeps.intact {p : Part} (h : p.Keeps) : p.jnc.journal ≠ .failed := by
  rw [h.ok]
  decide

/-- What the arbiter leaves of a compaction and the queue. -/
theorem Part.Keeps.pump {p : Part} (h : p.Keeps) : p.pump = { p with jnc := p.pump.jnc } ∧
    p.pump.jnc.compaction = p.jnc.compaction ∧ p.pump.jnc.queue = p.jnc.queue ∧
    p.pump.jnc.sinceMark = p.jnc.sinceMark := by
  obtain ⟨j, pumped, queue, -, since, -⟩ := Part.pump_keeps h.open_
  refine ⟨by rw [pumped], Part.pump_compaction h.open_ h.unformatted, ?_, ?_⟩
  · rw [pumped]
    exact queue
  · rw [pumped]
    exact since

/-- No object is left to be imaged, and no DROP_MARK of a resync. -/
theorem Part.stageObjects_done {t : Option Nat} {p : Part} (h : p.Keeps) :
    Part.stageObjects [] t p = { p with jnc := { p.jnc with compaction := .imaging [] none } } := by
  have ended : p.tailDropMark = none := by
    unfold Part.tailDropMark
    split
    · exact if_neg fun both => by rw [h.ok] at both; exact absurd both.2 (by decide)
    · rfl
  simp only [Part.stageObjects, ended]
  cases t <;> rfl

theorem Part.compactionImages_imaging {todo : List JournalObject} {t : Option Nat} {p : Part} (h : p.Keeps)
    (at_ : p.jnc.compaction = .imaging todo t) : p.compactionImages = (Part.stageObjects todo t p).pump := by
  simp only [Part.compactionImages, h.housekeeping, at_, Bool.not_true, Bool.false_eq_true, if_false]

/-- Compaction begins: too few sectors are free, and the port can read the tail. -/
theorem Part.compactionImages_begins {p : Part} (h : p.Keeps) (idle : p.jnc.compaction = .idle)
    (few : p.jnc.freeCount < 16) (free : p.jnc.port.job = none) (whole : p.jnc.port.suspended = none) :
    p.compactionImages =
      (p.stageObjects ((p.jnc.newest.filter fun r => r.2 == p.jnc.tail).map (·.1)) p.tailDropMark).pump := by
  have begins : p.jnc.freeCount < Config.compactBelow ∧ p.jnc.port.job = none ∧ p.jnc.port.suspended = none :=
    ⟨few, free, whole⟩
  simp only [Part.compactionImages, h.housekeeping, idle, Bool.not_true, Bool.false_eq_true, if_false]
  exact if_pos begins

theorem Part.compactionImages_idle {p : Part} (idle : p.jnc.compaction = .idle)
    (stays : 16 ≤ p.jnc.freeCount ∨ p.jnc.port.job ≠ none ∨ p.jnc.port.suspended ≠ none) : p.compactionImages = p := by
  unfold Part.compactionImages
  split
  · rfl
  · simp only [idle]
    refine if_neg fun ⟨few, free, whole⟩ => ?_
    rcases stays with enough | busy | erasing
    · exact absurd few (Nat.not_lt.2 enough)
    · exact busy free
    · exact erasing whole

/-- The imaging is done, and nothing was staged. -/
theorem Part.imagingDone {t : Option Nat} {p : Part} (h : p.Keeps) : let q := (Part.stageObjects [] t p).pump
    q = { p with jnc := q.jnc } ∧ q.jnc.compaction = .imaging [] none ∧ q.jnc.queue = p.jnc.queue := by
  rw [Part.stageObjects_done h]
  obtain ⟨eq, compaction, queue, -⟩ := Part.Keeps.pump
    (p := { p with jnc := { p.jnc with compaction := .imaging [] none } }) ⟨h.open_, h.unformatted, h.ok, h.running⟩
  exact ⟨eq, compaction, queue⟩

/-- One container is imaged. -/
theorem Part.imagesContainer {n : Fin 2048} {c : Container} {t : Option Nat} {p : Part} (h : p.Keeps)
    (live : p.slot n = some c) (room : p.jnc.queue.length < 32) : let q := (Part.stageObjects [.slot n] t p).pump
    q = { p with jnc := q.jnc } ∧ q.jnc.compaction = .imaging [] none ∧ q.jnc.queue = p.jnc.queue ++
      [{ payload := .containerImage (imageOf n c), time := p.now, owner := .compaction }] := by
  have plain : p.clearsNone [.containerImage (imageOf n c)] := .inl (by rw [h.ok]; decide)
  have stages : Part.stageObjects [.slot n] t p =
      Part.stageObjects [] t (p.enqueue .compaction [.containerImage (imageOf n c)]) := by
    have payloads : p.objectPayloads (.slot n) = [.containerImage (imageOf n c)] := by
      simp only [Part.objectPayloads, Part.offerPayloads, live]
    rw [← payloads]
    exact if_pos room
  rw [stages, Part.enqueue_eq plain]
  exact Part.imagingDone (p := { p with jnc := { p.jnc with
    queue := p.jnc.queue ++ p.stamped .compaction [.containerImage (imageOf n c)]
    sinceMark := sinceMarkAfter [.containerImage (imageOf n c)] p.jnc.sinceMark } })
    ⟨h.open_, h.unformatted, h.ok, h.running⟩

/-! ### The TIME_MARK and the erase -/

theorem Part.compactionCommitted_of {p : Part} (committed : ∀ e ∈ p.jnc.queue, e.owner ≠ .compaction) :
    p.compactionCommitted = true := by
  simpa [Part.compactionCommitted] using committed

theorem Part.compactionTimeMark_eq {p : Part} (h : p.Keeps) (imaged : p.jnc.compaction = .imaging [] none)
    (committed : ∀ e ∈ p.jnc.queue, e.owner ≠ .compaction) (room : p.jnc.queue.length < 32) :
    let q := p.compactionTimeMark
    q = { p with jnc := q.jnc } ∧ q.jnc.compaction = .marked ∧ q.jnc.sinceMark = 0 ∧ q.jnc.queue = p.jnc.queue ++
      [{ payload := .timeMark (some p.jnc.tail), time := p.now, owner := .compaction }] := by
  have runs : p.compactionTimeMark =
      ((p.enqueue .compaction [.timeMark (some p.jnc.tail)]).onJnc fun j => { j with compaction := .marked }).pump := by
    have room' : p.jnc.queue.length < Config.jncPlaces := room
    exact if_pos (by simp [h.housekeeping, imaged, Part.compactionCommitted_of committed, room'])
  rw [runs, Part.enqueue_timeMark]
  obtain ⟨eq, compaction, queue, since⟩ := Part.Keeps.pump (p := { p with jnc := { p.jnc with
    queue := p.jnc.queue ++ [{ payload := .timeMark (some p.jnc.tail), time := p.now, owner := .compaction }]
    sinceMark := 0, compaction := .marked } }) ⟨h.open_, h.unformatted, h.ok, h.running⟩
  exact ⟨eq, compaction, since, queue⟩

theorem Part.compactionErase_eq {p : Part} (h : p.Keeps) (marked : p.jnc.compaction = .marked)
    (committed : ∀ e ∈ p.jnc.queue, e.owner ≠ .compaction) (free : p.jnc.port.job = none)
    (whole : p.jnc.port.suspended = none) : p.compactionErase =
      (p.onJnc fun j => { j with compaction := .erasing }).startJob (.erase (.compaction p.jnc.tail)) :=
  if_pos (by simp [h.housekeeping, marked, Part.compactionCommitted_of committed, free, whole])

/-- R167 step 5: the sector is free, and the tail moves on. -/
theorem Part.eraseDone_compaction {n : Nat} {p : Part} (h : p.Keeps) (empty : p.jnc.queue = [])
    (whole : p.jnc.port.suspended = none) (place : p.jnc.headPos < 64)
    (sector : p.jnc.sectorOpen = false → p.jnc.sectorCounted = true) : p.eraseDone (.compaction n) = { p with
      exi := { p.exi with headerMark := true }
      jnc := { p.jnc with
        failures := 0, notErased := p.jnc.notErased.filter (· != n), tail := nextSector n
        freeCount := p.jnc.freeCount + 1, compaction := .idle
        port := { p.jnc.port with job := none, elapsed := 0, timedOut := false } } } := by
  obtain ⟨q, hq⟩ : ∃ q : Part, q = { p with
      exi := { p.exi with headerMark := true }
      jnc := { p.jnc with
        failures := 0, notErased := p.jnc.notErased.filter (· != n), tail := nextSector n
        freeCount := p.jnc.freeCount + 1, compaction := .idle
        port := { p.jnc.port with job := none, elapsed := 0, timedOut := false } } } := ⟨_, rfl⟩
  have keeps : q.Keeps := by
    rw [hq]
    exact ⟨h.open_, h.unformatted, h.ok, h.running⟩
  have fields : q.jnc.port.job = none ∧ q.jnc.queue = [] ∧ q.jnc.port.suspended = none ∧ q.jnc.headPos < 64 ∧
      (q.jnc.sectorOpen = false → q.jnc.sectorCounted = true) := by
    rw [hq]
    exact ⟨rfl, empty, whole, place, sector⟩
  obtain ⟨free, empty', whole', place', sector'⟩ := fields
  have done : p.eraseDone (.compaction n) = q.pump := by rw [hq]; rfl
  rw [done, ← hq, Part.pump_arbitrates keeps.open_ keeps.unformatted free keeps.intact]
  exact Part.arbitrate_rests (Part.commitDue_empty empty' place' sector') whole' keeps.open_

/-- R159: an erase that fails with nothing to be served first is begun again. -/
theorem Part.eraseAgain_idle {n : Nat} {p : Part} (open_ : p.jnc.closing = none) (empty : p.jnc.queue = [])
    (place : p.jnc.headPos < 64) (sector : p.jnc.sectorOpen = false → p.jnc.sectorCounted = true) :
    p.eraseAgain (.compaction n) = p.startJob (.erase (.compaction n)) := by
  have calm : p.jnc.warned = false := by simp [Jnc.warned, open_]
  simp only [Part.eraseAgain, calm, Part.commitDue_empty empty place sector, Bool.or_self, Bool.false_eq_true, if_false]

/-- R158: the commits that wait are served first, and the tail is again to be erased. -/
theorem Part.eraseAgain_serves {n : Nat} {p : Part} (h : p.Keeps) (waits : p.jnc.queue ≠ [])
    (place : p.jnc.headPos < 64)
    (sector : p.jnc.sectorOpen = true) : p.eraseAgain (.compaction n) = { p with jnc := { p.jnc with
      compaction := .marked
      port := { p.jnc.port with job := some (.program .entryBody), since := p.now, elapsed := 0, timedOut := false } } } := by
  obtain ⟨q, hq⟩ : ∃ q, q = (p.onJnc fun j => { j with compaction := .marked }).freePort := ⟨_, rfl⟩
  have keeps : q.Keeps := by
    rw [hq]
    exact ⟨h.open_, h.unformatted, h.ok, h.running⟩
  have fields : q.jnc.port.job = none ∧ q.jnc.queue ≠ [] ∧ q.jnc.sectorOpen = true ∧ q.jnc.headPos < 64 := by
    rw [hq]
    exact ⟨rfl, waits, sector, place⟩
  obtain ⟨free, waits', sector', place'⟩ := fields
  have gives : p.eraseAgain (.compaction n) = q.pump := by
    simp only [Part.eraseAgain, (Part.commitDue_open waits sector place).1, Bool.or_true, if_true]
    rw [hq]
  obtain ⟨due, serves⟩ := Part.commitDue_open waits' sector' place'
  rw [gives, Part.pump_arbitrates keeps.open_ keeps.unformatted free keeps.intact, Part.arbitrate_serves due, serves,
    hq]
  rfl

theorem Flash.eraseSector_eq (f : Flash) (n : Nat) : f.eraseSector n =
    { f with cells := f.cells.clear (n * 4096) 4096 } := by
  simp only [Flash.eraseSector, flashAddr, Nat.zero_mul, Nat.add_zero]

theorem Part.eraseComplete_done {e : ErasePurpose} {p : Part} (job : p.jnc.port.job = some (.erase e))
    (prompt : p.jnc.port.timedOut = false) :
    p.eraseComplete .done = Part.eraseDone e { p with flash := p.flash.eraseSector e.sector } := by
  simp only [Part.eraseComplete, job, prompt, Bool.false_eq_true, if_false]

theorem Part.eraseComplete_latch {e : ErasePurpose} {p : Part} (job : p.jnc.port.job = some (.erase e))
    (prompt : p.jnc.port.timedOut = false) : p.eraseComplete .latchClear = p.countFailure (Part.eraseAgain e) := by
  simp only [Part.eraseComplete, job, prompt, Bool.false_eq_true, if_false]

theorem Part.eraseComplete_late {e : ErasePurpose} {p : Part} (job : p.jnc.port.job = some (.erase e))
    (late : p.jnc.port.timedOut = true) :
    p.eraseComplete .done = Part.eraseAgain e { p with flash := p.flash.eraseSector e.sector } := by
  simp only [Part.eraseComplete, job, late, if_true]

/-- Settles O58. -/
theorem compactionFreesTheTailSector : Obligations.CompactionFreesTheTailSector := by
  intro s on p j open_ unformatted ok running
  have keeps : s.part.Keeps := ⟨open_, unformatted, ok, running⟩
  refine ⟨fun idle enough => ?_, fun idle busy => ?_, fun t imaging => ?_, fun idle few free whole room none_ => ?_,
    fun n c idle few free whole room live tail => ?_, fun imaged committed room => ?_,
      fun marked committed free whole => ?_,
    fun n job prompt => ⟨fun empty whole place sector => ?_, fun first empty place sector => ?_,
      fun first waits place sector => ?_⟩, fun n job late waits place sector => ?_⟩
  · rw [exec_compactionImages on, Part.compactionImages_idle idle (.inl enough)]
    rfl
  · rw [exec_compactionImages on, Part.compactionImages_idle idle (.inr busy)]
    rfl
  · refine ⟨_, exec_compactionImages on, ?_⟩
    rw [Part.compactionImages_imaging keeps imaging]
    exact Part.imagingDone keeps
  · refine ⟨_, exec_compactionImages on, ?_⟩
    have empty : (s.part.jnc.newest.filter fun r => r.2 == s.part.jnc.tail) = [] := by simpa using none_
    rw [Part.compactionImages_begins keeps idle few free whole, empty]
    exact Part.imagingDone keeps
  · refine ⟨_, exec_compactionImages on, ?_⟩
    rw [Part.compactionImages_begins keeps idle few free whole, tail]
    exact Part.imagesContainer keeps live room
  · exact ⟨_, exec_compactionTimeMark on, Part.compactionTimeMark_eq keeps imaged committed room⟩
  · rw [exec_compactionErase on, Part.compactionErase_eq keeps marked committed free whole]
    rfl
  · rw [exec_eraseComplete on]
    refine next_congr ?_
    rw [Part.eraseComplete_done job prompt, Flash.eraseSector_eq]
    exact Part.eraseDone_compaction
      (p := { s.part with flash := { s.part.flash with cells := s.part.flash.cells.clear (n * 4096) 4096 } })
      ⟨open_, unformatted, ok, running⟩ empty whole place sector
  · rw [exec_eraseComplete on]
    refine next_congr ?_
    rw [Part.eraseComplete_latch job prompt, Part.countFailure_first first,
      Part.eraseAgain_idle (p := { s.part with jnc := { s.part.jnc with failures := 1 } }) open_ empty place sector]
    rfl
  · rw [exec_eraseComplete on]
    refine next_congr ?_
    rw [Part.eraseComplete_latch job prompt, Part.countFailure_first first,
      Part.eraseAgain_serves (p := { s.part with jnc := { s.part.jnc with failures := 1 } })
        ⟨open_, unformatted, ok, running⟩ waits place sector]
    rfl
  · rw [exec_eraseComplete on]
    refine next_congr ?_
    rw [Part.eraseComplete_late job late, Flash.eraseSector_eq]
    exact Part.eraseAgain_serves
      (p := { s.part with flash := { s.part.flash with cells := s.part.flash.cells.clear (n * 4096) 4096 } })
      ⟨open_, unformatted, ok, running⟩ waits place sector

end Sys2Proof.Machine

/-! ## Closing staging (O15) -/

namespace Sys2Proof.Machine

theorem exec_powerFailWarning {s : State} (on : s.part.tbu.mainPower = true) :
    exec .powerFailWarning s = .next (s.withPart s.part.powerFailWarning) :=
  exec_of_powered (f := Part.powerFailWarning) rfl on rfl

theorem exec_powerRecovery {s : State} (on : s.part.tbu.mainPower = true) :
    exec .powerRecovery s = .next (s.withPart s.part.powerRecovery) :=
  exec_of_powered (f := Part.powerRecovery) rfl on rfl

theorem exec_softReset {s : State} (on : s.part.tbu.mainPower = true) :
    exec .softReset s = .next (s.withPart s.part.softReset) :=
  exec_of_powered (f := Part.softReset) rfl on rfl

/-- With no list in progress there is none to cut. -/
theorem Part.cutList_idle {p : Part} (idle : p.ctu.list = none) : p.cutList = p := by
  simp only [Part.cutList, Part.openList, idle]

/-- The queue closes with nothing waiting. -/
theorem Part.closeStaging_eq {p : Part} (recover : Bool) (waiting : p.jnc.waiting = [])
    (unformatted : p.jnc.format = none) :
    p.closeStaging recover =
      { p with jnc := { p.jnc with closing := some { recover := recover, marked := false } } } := by
  have shut : p.closeStaging recover =
      p.onJnc fun j => { j with waiting := [], closing := some { recover := recover, marked := false } } := by
    simp only [Part.closeStaging, waiting, List.foldl_nil, unformatted, Option.isSome_none, Bool.false_and]
  rw [shut, ← waiting]
  rfl

/-- The part as its staging closes for a warning or a reset, with nothing waiting (R174, R175). -/
def Part.closed (recover : Bool) (p : Part) : Part := { p with
  exi := { p.exi with sweeping := false, extraPass := false }
  jnc := { p.jnc with closing := some { recover := recover, marked := false } } }

theorem Part.powerFailWarning_eq {p : Part} (powered : p.tbu.powerFail = false) (idle : p.ctu.list = none)
    (waiting : p.jnc.waiting = []) (unformatted : p.jnc.format = none) : p.powerFailWarning =
      (Part.closed false { p with tbu := { p.tbu with powerFail := true } }).pump := by
  have cut : p.idleSweep.cutList = p.idleSweep := Part.cutList_idle idle
  simp only [Part.powerFailWarning, powered, cut, Bool.false_eq_true, if_false]
  rw [Part.closeStaging_eq (p := p.idleSweep) false waiting unformatted]
  rfl

/-- R175: the steps of a soft reset, with the journal working. -/
theorem Part.resetSteps_eq {p : Part} (idle : p.ctu.list = none) (waiting : p.jnc.waiting = [])
    (open_ : p.jnc.closing = none) (unformatted : p.jnc.format = none) (intact : p.jnc.journal ≠ .failed) :
    p.resetSteps = (p.closed true).pump := by
  have cut : p.idleSweep.cutList = p.idleSweep := Part.cutList_idle idle
  have closing : p.idleSweep.jnc.closing.isSome = false := by
    rw [show p.idleSweep.jnc.closing = none from open_]
    rfl
  simp only [Part.resetSteps, cut, closing, Bool.false_eq_true, if_false]
  rw [Part.closeStaging_eq (p := p.idleSweep) true waiting unformatted]
  exact if_neg fun failed => intact failed.1

/-- R175: with the journal FAILED the reset follows at once. -/
theorem Part.resetSteps_failed {p : Part} (idle : p.ctu.list = none) (waiting : p.jnc.waiting = [])
    (open_ : p.jnc.closing = none) (unformatted : p.jnc.format = none) (failed : p.jnc.journal = .failed) :
    p.resetSteps = p.powerOn := by
  have cut : p.idleSweep.cutList = p.idleSweep := Part.cutList_idle idle
  have closing : p.idleSweep.jnc.closing.isSome = false := by
    rw [show p.idleSweep.jnc.closing = none from open_]
    rfl
  simp only [Part.resetSteps, cut, closing, Bool.false_eq_true, if_false]
  rw [Part.closeStaging_eq (p := p.idleSweep) true waiting unformatted]
  exact if_pos ⟨failed, unformatted⟩

theorem Part.softReset_eq {p : Part} (unformatted : p.jnc.format = none) (stays : p.jnc.resetWaits = false) :
    p.softReset = Part.resetSteps { p with exi := { p.exi with softResetBit := true } } := by
  simp [Part.softReset, unformatted, stays]

/-- R175: staging closed for a reset, with everything committed, is followed by main power-on. -/
theorem Part.pump_powersOn {p : Part} (closed : p.jnc.closing = some { recover := true, marked := true })
    (empty : p.jnc.queue = []) (unformatted : p.jnc.format = none) (intact : p.jnc.journal ≠ .failed)
    (free : p.jnc.port.job = none) (whole : p.jnc.port.suspended = none) : p.pump = p.powerOn := by
  have still : p.closingMark.stopStaging = p := by simp [Part.closingMark, closed, Part.stopStaging, unformatted]
  have idle : p.commitDue = false := by simp [Part.commitDue, Part.openingDue, empty, closed]
  have pumped : p.pump = p.arbitrate := by
    simp only [Part.pump, still, free, unformatted, intact, Option.isSome_none, Bool.false_eq_true, if_false]
  rw [pumped]
  simp [Part.arbitrate, idle, whole, closed, empty]

theorem Part.powerRecovery_eq {p : Part} (fails : p.tbu.powerFail = true)
    (closed : p.jnc.closing = some { recover := false, marked := true }) (empty : p.jnc.queue = [])
    (unformatted : p.jnc.format = none) (free : p.jnc.port.job = none) (whole : p.jnc.port.suspended = none) :
    p.powerRecovery = p.powerOn := by
  have recovers : p.powerRecovery = Part.recover { p with tbu := { p.tbu with powerFail := false } } := if_pos fails
  rw [recovers, Part.recover]
  split
  · rfl
  · next other =>
    have intact : p.jnc.journal ≠ .failed := fun failed => other ⟨failed, unformatted⟩
    simp only [Part.onJnc, closed, unformatted]
    exact Part.pump_powersOn rfl empty rfl intact free whole

/-- The last TIME_MARK of a closed staging is staged, wherever the port stands. -/
theorem Part.pump_stagesLast {p : Part} (closed : p.jnc.closing = some { recover := true, marked := false })
    (empty : p.jnc.queue = []) (unformatted : p.jnc.format = none) (intact : p.jnc.journal ≠ .failed)
    (free : p.jnc.port.job = none) (whole : p.jnc.port.suspended = none) (running : p.jnc.engine = .running) :
    ∃ j, p.pump = { p with jnc := j } ∧ j.closing = some { recover := true, marked := true } ∧
      j.resetWaits = p.jnc.resetWaits ∧ j.queue = [{ payload := .timeMark none, time := p.now, owner := .internal }] := by
  rw [Part.pump_marks closed empty unformatted intact free running]
  have waits : (p.lastMarked true).jnc.queue.isEmpty = false := rfl
  by_cases due : (p.lastMarked true).commitDue = true
  · obtain ⟨j, serves, served⟩ := (p.lastMarked true).serveCommit_spec
    rw [Jnc.served] at served
    refine ⟨j, ?_, ?_⟩
    · rw [Part.arbitrate_serves due, serves]
      rfl
    · rw [served]
      exact ⟨rfl, rfl, rfl⟩
  · have rests : (p.lastMarked true).arbitrate = p.lastMarked true := by
      have whole' : (p.lastMarked true).jnc.port.suspended = none := whole
      have closing : (p.lastMarked true).jnc.closing = some { recover := true, marked := true } := rfl
      simp [Part.arbitrate, due, whole', closing, waits]
    rw [rests]
    exact ⟨_, rfl, rfl, rfl, rfl⟩

/-- The part as the answer of its docket leaves it, before a reset takes its steps. -/
theorem Part.answerDocket_due {d : InHand} {a : Answer} {p : Part} (ready : p.readyAnswer = some (d, a))
    (kept : d.givenUp = false) (power : p.tbu.powerFail = false) (open_ : p.jnc.closing = none)
    (unformatted : p.jnc.format = none) (waits : p.jnc.resetWaits = true) : ∃ x : Part,
      p.answerDocket = Part.resetSteps { x with jnc := { p.jnc with resetWaits := false } } ∧ x.tbu = p.tbu ∧
        x.ctu.list = none ∧ x.exi.inHand = none ∧ x.host = (p.answeredWith d a).host := by
  obtain ⟨w, hw⟩ : ∃ w, w = if d.notify then (p.answeredWith d a).raise .docket else p.answeredWith d a := ⟨_, rfl⟩
  have answered := Part.answered_eq ready kept power open_
  rw [← hw] at answered
  have eq : w = { p.answeredWith d a with exi := { (p.answeredWith d a).exi with
      cause := w.exi.cause, messages := w.exi.messages } } := by
    rw [hw]
    split
    · exact Part.raise_eq ..
    · rfl
  have jnc : w.jnc = p.jnc := by rw [eq]; rfl
  have due (q : Part) (same : q.jnc = p.jnc) : q.jnc.resetDue = true ∧
      q.resetAfterFormat = Part.resetSteps { q with jnc := { p.jnc with resetWaits := false } } := by
    have due' : q.jnc.resetDue = true := by simp [Jnc.resetDue, same, waits, unformatted, open_]
    refine ⟨due', ?_⟩
    rw [Part.resetAfterFormat, if_pos due', Part.onJnc, same]
  by_cases fault : w.exi.faultAfter = true
  · refine ⟨w.enterAccessFault, ?_, ?_, ?_, ?_, ?_⟩
    · simp only [Part.answerDocket, answered, fault, if_true]
      exact (due w.enterAccessFault jnc).2
    all_goals rw [Part.enterAccessFault, eq] <;> rfl
  · refine ⟨w, ?_, ?_, ?_, ?_, ?_⟩
    · simp only [Part.answerDocket, answered, fault, (due w jnc).1, if_true, Bool.false_eq_true, if_false]
      exact (due w jnc).2
    all_goals rw [eq] <;> rfl

/-- R175: the docket that a soft reset has waited for is answered, and the reset takes its steps. -/
theorem Part.answerDocket_resets {d : InHand} {a : Answer} {p : Part} (ready : p.readyAnswer = some (d, a))
    (kept : d.givenUp = false) (power : p.tbu.powerFail = false) (open_ : p.jnc.closing = none)
    (unformatted : p.jnc.format = none) (waits : p.jnc.resetWaits = true) (waiting : p.jnc.waiting = [])
    (empty : p.jnc.queue = []) (ok : p.jnc.journal = .ok) (free : p.jnc.port.job = none)
    (whole : p.jnc.port.suspended = none) (running : p.jnc.engine = .running) : let q := p.answerDocket
    q.exi.inHand = none ∧ q.jnc.closing = some { recover := true, marked := true } ∧ q.jnc.resetWaits = false ∧
      q.jnc.queue = [{ payload := .timeMark none, time := p.now, owner := .internal }] ∧
      q.host = (p.answeredWith d a).host := by
  have intact : p.jnc.journal ≠ .failed := by
    rw [ok]
    decide
  obtain ⟨x, eq, tbu, list, handless, host⟩ := Part.answerDocket_due ready kept power open_ unformatted waits
  obtain ⟨w, hw⟩ : ∃ w : Part, w = { x with jnc := { p.jnc with resetWaits := false } } := ⟨_, rfl⟩
  have resets : p.answerDocket = (w.closed true).pump := by
    rw [eq, ← hw]
    apply Part.resetSteps_eq
    all_goals rw [hw]
    · exact list
    · exact waiting
    · exact open_
    · exact unformatted
    · exact intact
  obtain ⟨j, pumped, closing, stays, queue⟩ := Part.pump_stagesLast (p := w.closed true) rfl (by rw [hw]; exact empty)
    (by rw [hw]; exact unformatted) (by rw [hw]; exact intact) (by rw [hw]; exact free) (by rw [hw]; exact whole)
    (by rw [hw]; exact running)
  have now : (w.closed true).now = p.now := by
    rw [hw]
    exact congrArg Tbu.counter tbu
  rw [resets, pumped]
  refine ⟨?_, closing, stays.trans ?_, now ▸ queue, ?_⟩
  all_goals rw [hw]
  · exact handless
  · rfl
  · exact host

/-- Settles O15. -/
theorem warningAndSoftResetCloseStaging : Obligations.WarningAndSoftResetCloseStaging := by
  intro s on
  refine ⟨fun idle running sector place list => ?_, fun fails empty free whole unformatted closed => ?_,
    fun t closed unformatted intact queue job prompt whole => ?_, fun failed unformatted open_ waiting stays list => ?_,
    fun formats open_ => ?_, fun stores d a => ?_⟩
  · obtain ⟨free, whole, empty, waiting, open_, unformatted, stays, ok⟩ := idle
    have intact : s.part.jnc.journal ≠ .failed := by
      rw [ok]
      decide
    intro closed
    refine ⟨fun powered => ?_, ?_⟩
    · rw [exec_powerFailWarning on, Part.powerFailWarning_eq powered list waiting unformatted]
      rw [Part.pump_lastMark (p := Part.closed false { s.part with tbu := { s.part.tbu with powerFail := true } }) rfl empty
        unformatted intact free running sector place]
      rfl
    · rw [exec_softReset on, Part.softReset_eq unformatted stays,
        Part.resetSteps_eq (p := { s.part with exi := { s.part.exi with softResetBit := true } }) list waiting open_
          unformatted intact,
        Part.pump_lastMark (p := Part.closed true { s.part with exi := { s.part.exi with softResetBit := true } }) rfl empty
          unformatted intact free running sector place]
      rfl
  · rw [exec_powerRecovery on, Part.powerRecovery_eq fails closed empty unformatted free whole]
  · intro mark
    rw [exec_programComplete on, Part.programComplete_commits queue job prompt (fun t => nofun) nofun,
      Part.pump_powersOn (p := s.part.afterCommit _ []) closed rfl unformatted intact rfl whole]
    rfl
  · rw [exec_softReset on, Part.softReset_eq unformatted stays,
      Part.resetSteps_failed (p := { s.part with exi := { s.part.exi with softResetBit := true } }) list waiting open_
        unformatted failed]
    rfl
  · rw [exec_softReset on]
    have waits : s.part.softReset = { s.part with
        jnc := { s.part.jnc with resetWaits := true }, exi := { s.part.exi with softResetBit := true } } := by
      simp [Part.softReset, Option.isSome_iff_ne_none.2 formats, open_, Part.onJnc]
    rw [waits]
  · intro p waits inHand finished kept held runs power running free whole empty waiting open_ unformatted ok
    refine ⟨p.answerDocket, exec_answerDocket on, ?_⟩
    clear_value p
    have settled : p.settledDocket := .inr ⟨waiting,
        fun e queued => absurd queued (by rw [empty]; exact List.not_mem_nil)⟩
    have ready := Part.readyAnswer_eq inHand finished held runs settled
    obtain ⟨handless, closing, stays, queue, host⟩ := Part.answerDocket_resets ready kept power open_ unformatted waits
      waiting empty ok free whole running
    refine ⟨handless, closing, stays, queue, host.trans ?_⟩
    simp only [Part.answeredWith, ok]
    rfl

end Sys2Proof.Machine

/-! ## Main power (O13) -/

namespace Sys2Proof.Machine

/-- One byte of a block that was read. -/
theorem fieldAt_readBlock {blank : Byte} {m : Memory} {a n k : Nat} (inside : k < n) :
    fieldAt (m.readBlock blank a n) k 1 = (m.read blank (a + k)).toNat := by
  have listed : k < (m.readBlock blank a n).length := by
    rw [Memory.readBlock_length]
    exact inside
  rw [fieldAt, List.drop_eq_getElem_cons listed, Memory.readBlock_getElem]
  simp [leNat]

/-- What an operation cut off at an address leaves of the rest of the flash. -/
structure Flash.SameBut (hit : Nat → Prop) (f g : Flash) : Prop where
  idByte : g.idByte = f.idByte
  cells : ∀ x, ¬ hit x → g.cells.read flashBlank x = f.cells.read flashBlank x

theorem Flash.SameBut.trans {hit : Nat → Prop} {f g h : Flash} (a : f.SameBut hit g) (b : g.SameBut hit h) :
    f.SameBut hit h :=
  ⟨b.idByte.trans a.idByte, fun x clear => (b.cells x clear).trans (a.cells x clear)⟩

/-- A write within a run of bytes. -/
theorem Flash.sameBut_write {hit : Nat → Prop} {f : Flash} {a n : Nat} {bs : List Byte} (short : bs.length ≤ n)
    (hits : ∀ x, ¬ outsideRun a n x → hit x) :
    f.SameBut hit { f with cells := f.cells.write flashBlank a bs } := by
  refine ⟨rfl, fun x clear => Memory.read_write_outside ?_ flashBlank f.cells⟩
  by_contra inside
  refine clear (hits x fun outside => inside ?_)
  unfold outsideRun at outside ⊢
  omega

theorem Flash.sameBut_program {hit : Nat → Prop} {f : Flash} {a n : Nat} {bs : List Byte} (short : bs.length ≤ n)
    (hits : ∀ x, ¬ outsideRun a n x → hit x) : f.SameBut hit (f.program a bs) :=
  Flash.sameBut_write (by simp [Memory.readBlock_length, short]) hits

theorem Flash.unformatted_spec {hit : Nat → Prop} (f : Flash) (hits : hit 63) :
    f.unformatted.formatEntry = none ∧ f.SameBut hit f.unformatted := by
  unfold Flash.unformatted
  split
  · refine ⟨?_, Flash.sameBut_write (n := 1) (Nat.le_refl 1) fun x inside => ?_⟩
    · obtain ⟨g, hg⟩ : ∃ g : Flash, g = { f with cells := f.cells.write flashBlank 63 [flashBlank] } := ⟨_, rfl⟩
      have mark : g.cells.read flashBlank 63 = flashBlank := by
        rw [hg]
        exact Memory.read_write_inside flashBlank f.cells 63 0 [flashBlank] (by simp)
      have unmarked : (g.entry 0 0).marked = false := by
        show (fieldAt (g.cells.readBlock flashBlank (flashAddr 0 0) 64) 63 1 == 0) = false
        rw [fieldAt_readBlock (by omega), show flashAddr 0 0 + 63 = 63 from rfl, mark]
        rfl
      rw [← hg]
      simp only [Flash.formatEntry, unmarked, Bool.false_eq_true, if_false]
      split <;> rfl
    · have at_ : x = 63 := by
        unfold outsideRun at inside
        omega
      exact at_ ▸ hits
  · next clear => exact ⟨Option.not_isSome_iff_eq_none.1 clear, rfl, fun _ _ => rfl⟩

/-- The bytes that an operation of the port, or a suspended erase, can reach. -/
def Part.underWay (p : Part) (x : Nat) : Prop :=
  (p.jnc.port.job.any FlashJob.ofFormat = true ∧ x = 63) ∨
  (∃ step, p.jnc.port.job = some (.program step) ∧
    ¬ outsideRun (p.programTarget step).1 (p.programTarget step).2.length x) ∨
  (∃ e, p.jnc.port.job = some (.erase e) ∧ ¬ outsideRun (flashAddr e.sector 0) 4096 x) ∨
  ∃ e, p.jnc.port.suspended = some e ∧ ¬ outsideRun (flashAddr e.sector 0) 4096 x

/-- A sector whose erase is cut off. -/
def Flash.cutErase (bs : List Byte) (f : Flash) : Option ErasePurpose → Flash
  | some e => { f with cells := f.cells.write flashBlank (flashAddr e.sector 0) (bs.take 4096) }
  | none => f

/-- The flash as the operation in progress is cut off, and the bytes left for a suspended erase. -/
def Part.cutJob (left : List Byte) (p : Part) : Flash × List Byte :=
  match p.jnc.port.job with
  | some (.program step) => (p.flash.program (p.programTarget step).1 (left.take (p.programTarget step).2.length),
      left.drop (p.programTarget step).2.length)
  | some (.erase e) => (p.flash.cutErase left (some e), left.drop 4096)
  | none => (p.flash, left)

/-- The flash once both are cut off. -/
def Part.cutFlash (left : List Byte) (p : Part) : Flash :=
  let f := (p.cutJob left).1.cutErase (p.cutJob left).2 p.jnc.port.suspended
  if p.jnc.port.job.any FlashJob.ofFormat then f.unformatted else f

theorem Part.interruptFlash_eq (left : List Byte) (p : Part) :
    p.interruptFlash left = { p with flash := p.cutFlash left } := by
  unfold Part.interruptFlash Part.cutFlash Part.cutJob
  cases p.jnc.port.job with
  | none => cases p.jnc.port.suspended <;> rfl
  | some job => cases job <;> cases p.jnc.port.suspended <;> rfl

theorem Part.cutErase_within {e : Option ErasePurpose} {p : Part} (bs : List Byte) (f : Flash)
    (reaches : ∀ n, e = some n → ∀ x, ¬ outsideRun (flashAddr n.sector 0) 4096 x → p.underWay x) :
    f.SameBut p.underWay (f.cutErase bs e) := by
  cases e with
  | none => exact ⟨rfl, fun _ _ => rfl⟩
  | some n => exact Flash.sameBut_write (List.length_take_le ..) (reaches n rfl)

theorem Part.cutJob_within (left : List Byte) (p : Part) : p.flash.SameBut p.underWay (p.cutJob left).1 := by
  unfold Part.cutJob
  cases job : p.jnc.port.job with
  | none => exact ⟨rfl, fun _ _ => rfl⟩
  | some j => cases j with
    | program step =>
      exact Flash.sameBut_program (List.length_take_le ..) fun x inside => .inr (.inl ⟨step, job, inside⟩)
    | erase e =>
      refine Part.cutErase_within (e := some e) left p.flash fun n named x inside => ?_
      obtain rfl := Option.some.inj named
      exact .inr (.inr (.inl ⟨_, job, inside⟩))

/-- R168, log 42: what a loss of main power leaves of the flash. -/
theorem Part.cutFlash_spec (left : List Byte) (p : Part) : p.flash.SameBut p.underWay (p.cutFlash left) ∧
    (p.jnc.port.job.any FlashJob.ofFormat = true → (p.cutFlash left).formatEntry = none) := by
  have within := (p.cutJob_within left).trans (Part.cutErase_within (p.cutJob left).2 (p.cutJob left).1
    fun e suspended x inside => .inr (.inr (.inr ⟨e, suspended, inside⟩)))
  unfold Part.cutFlash
  dsimp only
  split
  · next formats =>
    obtain ⟨clear, same⟩ := Flash.unformatted_spec (hit := p.underWay)
      ((p.cutJob left).1.cutErase (p.cutJob left).2 p.jnc.port.suspended) (.inl ⟨formats, rfl⟩)
    exact ⟨within.trans same, fun _ => clear⟩
  · next plain => exact ⟨within, fun formats => absurd formats plain⟩

theorem FlashJob.ofFormat_iff {o : Option FlashJob} : o.any FlashJob.ofFormat = true ↔
    (∃ n, o = some (.erase (.format n))) ∨ o = some (.program .formatBody) ∨ o = some (.program .formatMark) := by
  match o with
  | none => simp
  | some (.erase e) => cases e <;> simp [FlashJob.ofFormat]
  | some (.program step) => cases step <;> simp [FlashJob.ofFormat]

/-- Settles O13. -/
theorem mainPowerOnAndLoss : Obligations.MainPowerOnAndLoss := by
  refine ⟨fun s idReply backup off => ?_, fun s left on => ?_⟩
  · refine congrArg (fun p => Host.Outcome.next (s.withPart p)) ?_
    show s.part.mainPowerOn idReply backup = _
    have off' : ¬ s.part.tbu.mainPower = true := by
      rw [off]
      exact Bool.false_ne_true
    rw [Part.mainPowerOn, if_neg off']
    cases s.part.tbu.backupSupply <;> rfl
  · intro formats
    obtain ⟨same, clear⟩ := s.part.cutFlash_spec left
    refine ⟨s.part.mainPowerLoss left, exec_of_powered (f := Part.mainPowerLoss left) rfl on rfl, ?_⟩
    rw [Part.mainPowerLoss, Part.interruptFlash_eq]
    refine ⟨rfl, rfl, rfl, rfl, rfl, rfl, rfl, rfl, rfl, same.idByte, fun h => clear (FlashJob.ofFormat_iff.2 h),
      fun x apart program erase suspended => same.cells x fun hit => ?_⟩
    rcases hit with ⟨format, at_⟩ | ⟨step, job, inside⟩ | ⟨e, job, inside⟩ | ⟨e, job, inside⟩
    · exact apart (FlashJob.ofFormat_iff.1 format) at_
    · exact inside (program step job)
    · exact inside (erase e job)
    · exact inside (suspended e job)

end Sys2Proof.Machine

/-! ## A condition change and its members -/

namespace Sys2Proof.Machine

/-! ### What the account leaves of a zone -/

/-- A zone without its counts, its journal-dirty mark and its change in progress: what an evaluation reads and
decides. -/
def Zone.bare (r : Zone) : Zone := { r with blocking := 0, warnedCount := 0, dirty := false, change := none }

theorem Zone.bare_of_eq {r s : Zone} (h : r = { s with
    change := r.change, blocking := r.blocking, warnedCount := r.warnedCount, dirty := r.dirty }) : r.bare = s.bare :=
      by
  rw [h]
  rfl

/-- The journal's queue has grown at its tail, and the entries that wait stand. -/
structure Jnc.Grows (j j' : Jnc) : Prop where
  queue : j.queue <+: j'.queue
  waiting : j'.waiting = j.waiting

theorem Jnc.Grows.refl (j : Jnc) : j.Grows j := ⟨List.prefix_refl _, rfl⟩

theorem Jnc.Grows.trans {i j k : Jnc} (h : i.Grows j) (g : j.Grows k) : i.Grows k :=
  ⟨h.queue.trans g.queue, g.waiting.trans h.waiting⟩

theorem Jnc.Grows.of_eq {j k : Jnc} (h : k = j) : j.Grows k := h ▸ .refl j

theorem Part.grows_pump {p : Part} (open_ : p.jnc.closing = none) : p.jnc.Grows p.pump.jnc := by
  obtain ⟨queue, waiting, -⟩ := Part.pump_jnc open_
  exact ⟨queue ▸ List.prefix_refl _, waiting⟩

theorem Part.enqueue_waiting (owner : StagedBy) (pls : List Payload) (p : Part) :
    (p.enqueue owner pls).jnc.waiting = p.jnc.waiting := by
  induction pls generalizing p with
  | nil => rfl
  | cons pl pls ih =>
    refine (ih _).trans ?_
    show (p.clearMark pl).jnc.waiting = _
    rw [Part.clearMark_jnc]

theorem Part.grows_offerInternal (pl : Payload) {p : Part} (open_ : p.jnc.closing = none) :
    p.jnc.Grows (p.offerInternal pl).jnc := by
  unfold Part.offerInternal
  split
  · exact .refl _
  · split
    · have stages : p.jnc.Grows (p.enqueue .internal [pl]).jnc :=
        ⟨by rw [Part.enqueue_queue]; exact List.prefix_append .., Part.enqueue_waiting ..⟩
      exact stages.trans (Part.grows_pump (((p.staged_enqueue .internal [pl]).2.2.2.1).trans open_))
    · obtain ⟨eq, -⟩ := p.dropEntry_spec pl
      rw [eq]
      exact ⟨List.prefix_refl _, rfl⟩

/-- Settles, derivations and images: the zones stand but for their counts, and their evaluated fields with them. -/
structure Part.Renews (p q : Part) : Prop where
  accounted : p.accounted q
  bare : ∀ y, (q.zone y).bare = (p.zone y).bare
  jnc : p.jnc.Grows q.jnc

theorem Part.Renews.refl (p : Part) : p.Renews p := ⟨p.accounted_refl, fun _ => rfl, .refl _⟩

theorem Part.Renews.trans {p q r : Part} (h : p.Renews q) (k : q.Renews r) : p.Renews r :=
  ⟨Part.accounted_trans h.accounted k.accounted, fun y => (k.bare y).trans (h.bare y), h.jnc.trans k.jnc⟩

theorem Part.Renews.closing {p q : Part} (h : p.Renews q) (open_ : p.jnc.closing = none) : q.jnc.closing = none :=
  h.accounted.closing open_

theorem Part.Renews.condition {p q : Part} (h : p.Renews q) (y : Fin 64) : (q.zone y).condition =
    (p.zone y).condition := by
  show (q.zone y).bare.condition = _
  rw [h.bare]
  rfl

theorem Part.Renews.held {p q : Part} (h : p.Renews q) (y : Fin 64) : (q.zone y).held = (p.zone y).held := by
  show (q.zone y).bare.held = _
  rw [h.bare]
  rfl

/-- The derivation of a record reads nothing that such a step changes. -/
theorem Part.Renews.deriveRecord {p q : Part} (h : p.Renews q) (keep : Bool) (c : Container) :
    q.deriveRecord keep c = p.deriveRecord keep c := by
  simp only [Part.deriveRecord, h.accounted.classDef, h.condition, h.held]

theorem Part.Commits.renews {i : Fin 2048} {old c : Container} {p q : Part} (h : p.Commits i old c q)
    (accounted : p.accounted q) : p.Renews q := by
  refine ⟨accounted, fun y => ?_, .of_eq h.jnc⟩
  refine Zone.bare_of_eq ?_
  rw [h.zone_eq y]

/-! ### A member that the change reaches -/

/-- The change once slot `i` has been reached: dropped with its last member (R66). -/
def Change.left (h : Change) (rest : List (Fin 2048)) : Option Change :=
  if rest.isEmpty then none else some { h with remaining := rest }

/-- The record of a member as a condition change leaves it. -/
def Part.reachedRecord (p : Part) (h : Change) (new : Option Condition) (c : Container) : Container :=
  (p.deriveRecord (staysDrying h.old new) (settleRecord (p.classDef c.cls) h.time c).1).1

theorem Part.imageIf_renews {i : Fin 2048} {p : Part} (b : Bool) (open_ : p.jnc.closing = none) :
    p.Renews (Part.imageIf i (p, b)) := by
  have marks := Part.marks_imageIf (i := i) b open_
  refine ⟨Part.accounted_imageIf i b open_, fun y => by rw [marks.zone], ?_⟩
  unfold Part.imageIf Part.imageInternal
  dsimp only
  split
  · split
    · exact Part.grows_offerInternal _ open_
    · exact .refl _
  · exact .refl _

/-- R66: what a reached member's zone and slot hold. -/
structure Part.Reaches (z : Fin 64) (h : Change) (rest : List (Fin 2048)) (is : List (Fin 2048))
  (p q : Part) : Prop where
  renews : p.Renews q
  change : (q.zone z).change = h.left rest
  others : ∀ y, y ≠ z → (q.zone y).change = (p.zone y).change
  still : ∀ j, j ∉ is → q.slot j = p.slot j
  own : ∀ i ∈ is, ∀ c, p.slot i = some c →
    ∃ b, q.slot i = some { p.reachedRecord h (p.zone z).condition c with dirty := b }

theorem Part.reachMember_spec {i : Fin 2048} {z : Fin 64} {h : Change} {p : Part} (change : (p.zone z).change = some h)
    (listed : i ∈ h.remaining) (open_ : p.jnc.closing = none) :
    p.Reaches z h (h.remaining.filter (· != i)) [i] (p.reachMember i z) := by
  obtain ⟨w, hw⟩ : ∃ w, w = p.putZone z { p.zone z with change := h.left (h.remaining.filter (· != i)) } := ⟨_, rfl⟩
  have zoneW (y : Fin 64) : w.zone y =
      if z = y then { p.zone z with change := h.left (h.remaining.filter (· != i)) } else p.zone y := by
    rw [hw]
    exact Part.zone_putZone ..
  have renewsW : p.Renews w := by
    refine ⟨by rw [hw]; exact Part.accounted_putZone z _ p rfl rfl, fun y => ?_, by rw [hw]; exact .refl _⟩
    rw [zoneW]
    split
    · next same => rw [← same]; rfl
    · rfl
  have slotW (j : Fin 2048) : w.slot j = p.slot j := by rw [hw]; rfl
  have openW := renewsW.closing open_
  have unfolds : p.reachMember i z =
      let r := w.changeTo i h.time (staysDrying h.old (p.zone z).condition) id
      Part.imageIf i (r.1.postSlot i, r.2) := by
    simp only [Part.reachMember, change, List.contains_iff_mem.2 listed, if_true]
    rw [hw]
    rfl
  have post (r : Part) : r.Renews (r.postSlot i) := ⟨r.accounted_postSlot i, fun _ => rfl, .refl _⟩
  have ends {r : Part} (b : Bool) (toR : p.Renews r) : p.Renews (Part.imageIf i (r.postSlot i, b)) ∧
      (r.postSlot i).Marks i (Part.imageIf i (r.postSlot i, b)) :=
    ⟨(toR.trans (post r)).trans (Part.imageIf_renews b ((toR.trans (post r)).closing open_)),
      Part.marks_imageIf b ((toR.trans (post r)).closing open_)⟩
  cases live : p.slot i with
  | none =>
    have skips : w.changeTo i h.time (staysDrying h.old (p.zone z).condition) id = (w, false) := by
      simp only [Part.changeTo, slotW, live]
    rw [unfolds, skips]
    obtain ⟨renews, marks⟩ := ends false renewsW
    refine ⟨renews, ?_, fun y other => ?_, fun j out => ?_, fun j member c here => ?_⟩
    · exact (congrArg Zone.change (marks.zone z)).trans (by rw [Part.zone_postSlot, zoneW, if_pos rfl])
    · exact (congrArg Zone.change (marks.zone y)).trans (by rw [Part.zone_postSlot, zoneW, if_neg other.symm])
    · have other : j ≠ i := fun same => out (same ▸ List.mem_singleton.2 rfl)
      exact (marks.others j other).trans (slotW j)
    · obtain rfl := List.mem_singleton.1 member
      rw [live] at here
      cases here
  | some c =>
    obtain ⟨r, changes, commits⟩ := Part.changeTo_commits (p := w) ((slotW i).trans live) h.time
      (staysDrying h.old (p.zone z).condition) id
    have accountedR : w.accounted r := by
      have := Part.accounted_changeTo i h.time (staysDrying h.old (p.zone z).condition) id (p := w) fun _ => rfl
      rwa [changes] at this
    have renewsR := renewsW.trans (commits.renews accountedR)
    rw [unfolds, changes]
    obtain ⟨renews, marks⟩ := ends ((settleRecord (w.classDef c.cls) h.time c).2 ||
      (w.deriveRecord (staysDrying h.old (p.zone z).condition)
        (id (settleRecord (w.classDef c.cls) h.time c).1)).2) renewsR
    have changeR (y : Fin 64) : (r.zone y).change = (w.zone y).change := by rw [commits.zone_eq y]
    refine ⟨renews, ?_, fun y other => ?_, fun j out => ?_, fun j member c' here => ?_⟩
    · refine (congrArg Zone.change (marks.zone z)).trans ((changeR z).trans ?_)
      rw [zoneW, if_pos rfl]
    · refine (congrArg Zone.change (marks.zone y)).trans ((changeR y).trans ?_)
      rw [zoneW, if_neg other.symm]
    · have other : j ≠ i := fun same => out (same ▸ List.mem_singleton.2 rfl)
      exact (marks.others j other).trans ((commits.others j other).trans (slotW j))
    · obtain rfl := List.mem_singleton.1 member
      obtain rfl := Option.some.inj (live.symm.trans here)
      obtain ⟨b, own⟩ := marks.own _ commits.own
      refine ⟨b, own.trans ?_⟩
      rw [renewsW.deriveRecord, renewsW.accounted.classDef]
      rfl

theorem Part.Renews.reachedRecord {p q : Part} (h : p.Renews q) (g : Change) (new : Option Condition) (c : Container) :
    q.reachedRecord g new c = p.reachedRecord g new c := by
  rw [Part.reachedRecord, h.deriveRecord, h.accounted.classDef]
  rfl

/-- A member list carried through, in order: the members that had been left are reached, each once. -/
theorem Part.reachMembers_spec (is : List (Fin 2048)) {z : Fin 64} {h : Change} {rest : List (Fin 2048)} {p : Part}
    (change : (p.zone z).change = h.left rest) (open_ : p.jnc.closing = none) :
    p.Reaches z h (rest.filter fun i => !is.contains i) (is.filter fun i => rest.contains i)
      (is.foldl (fun p i => p.reachMember i z) p) := by
  induction is generalizing p rest with
  | nil => exact ⟨.refl p, by simpa using change, fun _ _ => rfl, fun _ _ => rfl, nofun⟩
  | cons i is ih =>
    have keepsRest : rest.filter (fun j => !(i :: is).contains j) =
        (rest.filter (· != i)).filter fun j => !is.contains j := by
      rw [List.filter_filter]
      congr 1
      funext j
      rw [Bool.eq_iff_iff]
      simp [and_comm]
    rw [List.foldl_cons, keepsRest]
    by_cases listed : i ∈ rest
    · have change' : (p.zone z).change = some { h with remaining := rest } := by
        rw [change, Change.left, if_neg]
        rw [List.isEmpty_iff]
        exact List.ne_nil_of_mem listed
      have one := Part.reachMember_spec change' listed open_
      have rests := ih (p := p.reachMember i z) (one.change.trans rfl) (one.renews.closing open_)
      have head : (i :: is).filter (fun j => rest.contains j) = i :: is.filter fun j => rest.contains j := by
        rw [List.filter_cons, if_pos (List.contains_iff_mem.2 listed)]
      refine ⟨one.renews.trans rests.renews, rests.change,
        fun y other => (rests.others y other).trans (one.others y other),
        fun j out => ?_, fun j member c live => ?_⟩
      · rw [head] at out
        have other : j ≠ i := fun same => out (same ▸ List.mem_cons_self)
        refine (rests.still j fun inside => out (List.mem_cons_of_mem _ ?_)).trans
          (one.still j fun same => other (List.mem_singleton.1 same))
        simp only [List.mem_filter, List.contains_iff_mem, bne_iff_ne] at inside ⊢
        exact ⟨inside.1, inside.2.1⟩
      · by_cases same : j = i
        · subst same
          obtain ⟨b, own⟩ := one.own j (List.mem_singleton.2 rfl) c live
          refine ⟨b, (rests.still j fun inside => ?_).trans own⟩
          simp at inside
        · rw [head] at member
          have inside := (List.mem_cons.1 member).resolve_left same
          simp only [List.mem_filter, List.contains_iff_mem] at inside
          have left : j ∈ is.filter fun j => (rest.filter (· != i)).contains j := by
            simp only [List.mem_filter, List.contains_iff_mem, bne_iff_ne]
            exact ⟨inside.1, inside.2, same⟩
          have before : (p.reachMember i z).slot j = some c :=
            (one.still j fun here => same (List.mem_singleton.1 here)).trans live
          obtain ⟨b, own⟩ := rests.own j left c before
          refine ⟨b, own.trans ?_⟩
          rw [one.renews.condition, one.renews.reachedRecord]
    · have skips : p.reachMember i z = p := by
        unfold Part.reachMember
        split
        · next g here =>
          rw [change, Change.left] at here
          split at here
          · cases here
          · obtain rfl := Option.some.inj here
            exact if_neg (by simpa using listed)
        · rfl
      have whole : rest.filter (· != i) = rest := by
        rw [List.filter_eq_self]
        intro j member
        rw [bne_iff_ne]
        rintro rfl
        exact listed member
      have head : (i :: is).filter (fun j => rest.contains j) = is.filter fun j => rest.contains j := by
        rw [List.filter_cons, if_neg (by simpa using listed)]
      rw [skips, whole, head]
      exact ih change open_

/-- R66: a change carried to every member it has left is dropped. -/
theorem Part.carryChange_all {z : Fin 64} {h : Change} {p : Part} (change : (p.zone z).change = h.left h.remaining)
    (open_ : p.jnc.closing = none) : p.Reaches z h [] h.remaining (p.carryChange z none) := by
  cases rest : h.remaining with
  | nil =>
    have none_ : (p.zone z).change = none := by
      rw [change, rest]
      rfl
    have stays : p.carryChange z none = p := by simp only [Part.carryChange, none_]
    rw [stays]
    exact ⟨.refl p, none_, fun _ _ => rfl, fun _ _ => rfl, nofun⟩
  | cons i is =>
    have some_ : (p.zone z).change = some h := by
      rw [change, Change.left, if_neg (by simp [rest])]
    have carried := Part.reachMembers_spec h.remaining change open_
    have gone : h.remaining.filter (fun j => !h.remaining.contains j) = [] := by
      simp [List.filter_eq_nil_iff]
    have all : h.remaining.filter (fun j => h.remaining.contains j) = h.remaining := by
      simp [List.filter_eq_self]
    rw [gone, all, rest] at carried
    simp only [Part.carryChange, some_, rest]
    exact carried

theorem Part.carryChange_idle {z : Fin 64} {reach : Reach} {p : Part} (idle : (p.zone z).change = none) :
    p.carryChange z reach = p := by
  simp only [Part.carryChange, idle]

/-- However far a command reaches. -/
theorem Part.carryChange_renews (z : Fin 64) (reach : Reach) {h : Change} {p : Part}
    (change : (p.zone z).change = h.left h.remaining) (open_ : p.jnc.closing = none) :
    ∃ rest is, p.Reaches z h rest is (p.carryChange z reach) := by
  cases empty : h.remaining.isEmpty with
  | true =>
    have none_ : (p.zone z).change = none := by rw [change, Change.left, if_pos empty]
    rw [Part.carryChange_idle none_]
    exact ⟨h.remaining, [], .refl p, change, fun _ _ => rfl, fun _ _ => rfl, nofun⟩
  | false =>
    have some_ : (p.zone z).change = some h := by rw [change, Change.left, if_neg (by simp [empty])]
    simp only [Part.carryChange, some_]
    exact ⟨_, _, Part.reachMembers_spec _ change open_⟩

end Sys2Proof.Machine

/-! ## The evaluation of a zone -/

namespace Sys2Proof.Machine

/-! ### What an evaluation reads -/

theorem Zone.eq_of_bare {r s : Zone} (h : r.bare = s.bare) : r = { s with
    change := r.change, blocking := r.blocking, warnedCount := r.warnedCount, dirty := r.dirty } := by
  obtain ⟨⟩ := r
  obtain ⟨⟩ := s
  simp only [Zone.bare, Zone.mk.injEq] at h ⊢
  tauto

/-- The tables of the Zone Unit, without its zones. -/
def Part.sameTables (p q : Part) : Prop := q.znu = { p.znu with zones := q.znu.zones }

theorem Part.accounted.sameTables {p q : Part} (h : p.accounted q) : p.sameTables q := by
  rw [Part.sameTables, h.1]

theorem Part.sameTables.trans {p q r : Part} (h : p.sameTables q) (k : q.sameTables r) : p.sameTables r := by
  unfold Part.sameTables at h k ⊢
  rw [k, h]

/-- The counts, the journal-dirty mark and the change of a zone do not enter its evaluation, nor do the other zones
but for
the rate of its reference. -/
theorem Part.evaluated_congr {p q : Part} {r s : Zone} (tables : p.sameTables q) (same : s.bare = r.bare)
    (rate : ∀ f, r.config.kind = .dry → r.config.reference = some f → q.referenceRate f = p.referenceRate f) :
    (q.evaluated s).2 = (p.evaluated r).2 ∧ (q.evaluated s).1.bare = (p.evaluated r).1.bare := by
  have bands : q.znu.bandsOf s = p.znu.bandsOf r := by
    rw [Zone.eq_of_bare same, tables]
    rfl
  have walk : q.znu.walk = p.znu.walk := by
    rw [tables]
    rfl
  have cell : q.znu.cell = p.znu.cell := by
    rw [tables]
    rfl
  have ceiling : q.znu.settings.ceiling = p.znu.settings.ceiling := by rw [tables]
  unfold Part.evaluated
  simp only [bands, walk, cell, ceiling]
  rw [Zone.eq_of_bare same]
  dsimp only
  cases kind : r.config.kind with
  | unused => exact ⟨rfl, rfl⟩
  | floor | line =>
    dsimp only
    cases (if r.stale = true then none else (p.znu.bandsOf r).bind p.znu.walk) <;> exact ⟨rfl, rfl⟩
  | dry =>
    dsimp only
    split
    · exact ⟨rfl, rfl⟩
    · cases reference : r.config.reference with
      | none => exact ⟨rfl, rfl⟩
      | some f =>
        refine ⟨?_, rfl⟩
        dsimp only
        rw [rate f kind reference]
  | oven => exact ⟨rfl, rfl⟩

/-- The record that an evaluation at time `t` leaves, but for its counts and its change. -/
def Part.renewed (p : Part) (r : Zone) (t : Nat) : Zone := { (p.evaluated r).1 with
  condition := (p.evaluated r).2
  conditionTime := if (p.evaluated r).2 = r.condition then r.conditionTime else max t r.conditionTime }

/-- What an evaluation leaves of a zone's own record. -/
theorem Part.evaluated_frame (p : Part) (r : Zone) : (p.evaluated r).1 = { r with
    bands := (p.evaluated r).1.bands, basis := (p.evaluated r).1.basis, walked := (p.evaluated r).1.walked
    ceilingUsed := (p.evaluated r).1.ceilingUsed } := by
  unfold Part.evaluated
  dsimp only
  split
  · rfl
  · split <;> rfl
  · split <;> rfl
  · split
    · rfl
    · split <;> rfl
  · rfl

/-- The record that a changed evaluation writes before its change is carried on. -/
def Part.changedRecord (p : Part) (r : Zone) (t : Nat) : Zone := { (p.evaluated r).1 with
  condition := (p.evaluated r).2, conditionTime := max t r.conditionTime
  change := if r.members.isEmpty then none
    else some { old := r.condition, time := max t r.conditionTime, remaining := r.members } }

/-- The change that an evaluation starts. -/
def Part.startedChange (r : Zone) (t : Nat) : Change :=
  { old := r.condition, time := max t r.conditionTime, remaining := r.members }

/-- The part as a changed evaluation has written the zone and offered its ZONE_CONDITION. -/
def Part.conditionWritten (p : Part) (z : Fin 64) (t : Nat) (own : Bool) : Part :=
  let w := p.setZone z (p.changedRecord (p.zone z) t)
  if own then w else w.offerInternal (.zoneCondition z (p.changedRecord (p.zone z) t).conditionImage)

theorem Part.evaluateOne_same {z : Fin 64} {t : Nat} {own : Bool} {reach : Reach} {p : Part}
    (same : (p.evaluated (p.zone z)).2 = (p.zone z).condition) :
    p.evaluateOne z t own reach = (p.setZone z (p.evaluated (p.zone z)).1, false) := by
  simp only [Part.evaluateOne, same, if_true]

theorem Part.evaluateOne_changes {z : Fin 64} {t : Nat} {own : Bool} {reach : Reach} {p : Part}
    (differs : (p.evaluated (p.zone z)).2 ≠ (p.zone z).condition) :
    p.evaluateOne z t own reach = ((p.conditionWritten z t own).carryChange z reach, (p.zone z).config.kind.walks &&
      conditionRate (p.evaluated (p.zone z)).2 != conditionRate (p.zone z).condition) := by
  have reads : (p.setZone z (p.changedRecord (p.zone z) t)).zone z = p.changedRecord (p.zone z) t := by
    rw [Part.zone_setZone, if_pos rfl]
  unfold Part.evaluateOne
  simp only [differs, if_false]
  show (Part.carryChange z reach (if own = true then p.setZone z (p.changedRecord (p.zone z) t) else
    (p.setZone z (p.changedRecord (p.zone z) t)).offerInternal
      (.zoneCondition z ((p.setZone z (p.changedRecord (p.zone z) t)).zone z).conditionImage)), _) = _
  rw [reads]
  rfl

/-- What the part holds once the condition is written and offered. -/
structure Part.Written (z : Fin 64) (r : Zone) (p q : Part) : Prop where
  accounted : p.accounted q
  own : (q.zone z).bare = r.bare
  change : (q.zone z).change = r.change
  others : ∀ y, y ≠ z → (q.zone y).bare = (p.zone y).bare ∧ (q.zone y).change = (p.zone y).change
  slots : ∀ i c, p.slot i = some c → ∃ b, q.slot i = some { c with dirty := b }
  jnc : p.jnc.Grows q.jnc

theorem Part.written_setZone {z : Fin 64} {r : Zone} {p : Part} (config : r.config = (p.zone z).config)
    (members : r.members = (p.zone z).members) : p.Written z r (p.setZone z r) := by
  have reads (y : Fin 64) := Part.zone_setZone z y r p
  have outside : (p.setZone z r).ctu = p.ctu ∧ (p.setZone z r).jnc = p.jnc := by
    unfold Part.setZone
    dsimp only
    split <;> exact ⟨rfl, rfl⟩
  refine ⟨p.accounted_setZone z r config members, by rw [reads, if_pos rfl], by rw [reads, if_pos rfl],
    fun y other => by rw [reads, if_neg other.symm]; exact ⟨rfl, rfl⟩, fun i c live => ⟨c.dirty, ?_⟩, .of_eq outside.2⟩
  rw [Part.slot, outside.1]
  exact live

/-- An offered internal entry sets no more than journal-dirty marks. -/
theorem Part.Written.offer {z : Fin 64} {r : Zone} {p q : Part} (h : p.Written z r q) (pl : Payload)
    (open_ : p.jnc.closing = none) : p.Written z r (q.offerInternal pl) := by
  have open' := h.accounted.closing open_
  have staged := Part.staged_offerInternal pl open'
  have unmarked (y : Fin 64) : ((q.offerInternal pl).zone y).bare = (q.zone y).bare ∧
      ((q.offerInternal pl).zone y).change = (q.zone y).change := by
    have same := staged.2.2.1 y
    refine ⟨?_, ?_⟩
    · show ((q.offerInternal pl).zone y).unmarked.bare = _
      rw [same]
      rfl
    · show ((q.offerInternal pl).zone y).unmarked.change = _
      rw [same]
      rfl
  refine ⟨Part.accounted_trans h.accounted (Part.accounted_of_staged staged), (unmarked z).1.trans h.own,
    (unmarked z).2.trans h.change, fun y other => ?_, fun i c live => ?_,
      h.jnc.trans (Part.grows_offerInternal pl open')⟩
  · exact ⟨(unmarked y).1.trans (h.others y other).1, (unmarked y).2.trans (h.others y other).2⟩
  · obtain ⟨b, was⟩ := h.slots i c live
    have same := staged.2.1 i
    rw [was] at same
    cases now : (q.offerInternal pl).slot i with
    | none => rw [now] at same; cases same
    | some d =>
      rw [now] at same
      have eq : d.unmarked = c.unmarked := Option.some.inj same
      refine ⟨d.dirty, congrArg some ?_⟩
      obtain ⟨⟩ := d
      obtain ⟨⟩ := c
      simp only [Container.unmarked, Container.mk.injEq] at eq ⊢
      tauto

theorem Part.written_condition (z : Fin 64) (t : Nat) (own : Bool) {p : Part} (open_ : p.jnc.closing = none) :
    p.Written z (p.changedRecord (p.zone z) t) (p.conditionWritten z t own) := by
  obtain ⟨config, members⟩ := p.evaluated_config (p.zone z)
  have writes : p.Written z (p.changedRecord (p.zone z) t) (p.setZone z (p.changedRecord (p.zone z) t)) :=
    Part.written_setZone config members
  unfold Part.conditionWritten
  dsimp only
  split
  · exact writes
  · exact writes.offer _ open_

/-- What an evaluation of zone `z` leaves: `r` is the record it finds. -/
structure Part.Evaluates (z : Fin 64) (t : Nat) (p q : Part) : Prop where
  accounted : p.accounted q
  own : (q.zone z).bare = (p.renewed (p.zone z) t).bare
  others : ∀ y, y ≠ z → (q.zone y).bare = (p.zone y).bare ∧ (q.zone y).change = (p.zone y).change
  jnc : p.jnc.Grows q.jnc

theorem Part.changedRecord_change {z : Fin 64} {t : Nat} {p : Part} : (p.changedRecord (p.zone z) t).change =
    (Part.startedChange (p.zone z) t).left (Part.startedChange (p.zone z) t).remaining := rfl

theorem Part.evaluates_evaluateOne (z : Fin 64) (t : Nat) (own : Bool) (reach : Reach) {p : Part}
    (open_ : p.jnc.closing = none) : p.Evaluates z t (p.evaluateOne z t own reach).1 := by
  by_cases same : (p.evaluated (p.zone z)).2 = (p.zone z).condition
  · obtain ⟨config, members⟩ := p.evaluated_config (p.zone z)
    have writes := Part.written_setZone config members
    rw [Part.evaluateOne_same same]
    refine ⟨writes.accounted, writes.own.trans ?_, writes.others, writes.jnc⟩
    rw [Part.renewed, if_pos same, same]
    conv_lhs => rw [Part.evaluated_frame]
    conv_rhs => rw [Part.evaluated_frame]
  · have written := Part.written_condition z t own open_
    rw [Part.evaluateOne_changes same]
    obtain ⟨rest, is, reached⟩ := Part.carryChange_renews z reach (h := Part.startedChange (p.zone z) t)
      (written.change.trans Part.changedRecord_change) (written.accounted.closing open_)
    refine ⟨Part.accounted_trans written.accounted reached.renews.accounted,
      (reached.renews.bare z).trans (written.own.trans ?_),
      fun y other => ⟨(reached.renews.bare y).trans (written.others y other).1,
        (reached.others y other).trans (written.others y other).2⟩, written.jnc.trans reached.renews.jnc⟩
    rw [Part.renewed, if_neg same]
    rfl

/-- Given no reach, the change is carried to every member: what each holds then, and that the change is dropped. -/
theorem Part.evaluateOne_whole {z : Fin 64} {t : Nat} {own : Bool} {p : Part}
    (differs : (p.evaluated (p.zone z)).2 ≠ (p.zone z).condition) (open_ : p.jnc.closing = none) :
    let q := (p.evaluateOne z t own none).1
    (q.zone z).change = none ∧ (∀ i ∈ (p.zone z).members, ∀ c, p.slot i = some c → ∃ a b, q.slot i = some
      { (p.conditionWritten z t own).reachedRecord (Part.startedChange (p.zone z) t) (p.evaluated (p.zone z)).2
        { c with dirty := a } with dirty := b }) := by
  intro q
  have written := Part.written_condition z t own open_
  have reached := Part.carryChange_all (h := Part.startedChange (p.zone z) t)
    (written.change.trans Part.changedRecord_change) (written.accounted.closing open_)
  have eq : q = (p.conditionWritten z t own).carryChange z none := congrArg Prod.fst (Part.evaluateOne_changes differs)
  have condition : ((p.conditionWritten z t own).zone z).condition = (p.evaluated (p.zone z)).2 := by
    show ((p.conditionWritten z t own).zone z).bare.condition = _
    rw [written.own]
    rfl
  rw [eq]
  refine ⟨reached.change, fun i member c live => ?_⟩
  obtain ⟨a, was⟩ := written.slots i c live
  obtain ⟨b, own⟩ := reached.own i member _ was
  rw [condition] at own
  exact ⟨a, b, own⟩

/-- A zone that no DRY zone follows is evaluated alone. -/
theorem Part.evaluateZone_alone {z : Fin 64} {t : Nat} {own : Bool} {reach : Reach} {p : Part} (alone :
    p.dryZonesOf z = [])
    (open_ : p.jnc.closing = none) : p.evaluateZone z t own reach = (p.evaluateOne z t own reach).1 := by
  have accounted := Part.accounted_evaluateOne z t own reach open_
  have alone' : (p.evaluateOne z t own reach).1.dryZonesOf z = [] := by
    rw [← alone]
    simp only [Part.dryZonesOf, accounted.config]
  simp only [Part.evaluateZone, Part.triggerFollowers, alone', List.foldl_nil, ite_self]

end Sys2Proof.Machine

/-! ## A waiting reading trigger that bears the mark of a SET_ZONE -/

namespace Sys2Proof.Machine

/-- A FLOOR zone that has no condition yet; its waiting reading trigger bears the mark of the zone's own SET_ZONE,
which no
command gives it (R67, R69). -/
def ownReadingZone : Zone :=
  { Zone.unused with config := { ZoneConfig.unused with kind := .floor }, waitReading := some { time := 0, own := true } }

def ownReadingPart : Part :=
  { Tests.running with znu := { Znu.reset with zones := Znu.reset.zones.set (0 : Fin 64) ownReadingZone } }

def ownReadingState : State := { part := ownReadingPart, pending := [] }

theorem ownReadingPart_zone : ownReadingPart.zone 0 = ownReadingZone := rfl

theorem ownReadingPart_dryZones (p : Part) (zones : ∀ y, (p.zone y).config = (ownReadingPart.zone y).config)
    (z : Fin 64) :
    p.dryZonesOf z = [] := by
  have kind (y : Fin 64) : (ownReadingPart.zone y).config.kind ≠ .dry := by
    show ((Part.reset.putZone 0 ownReadingZone).zone y).config.kind ≠ .dry
    rw [Part.zone_putZone]
    split
    · nofun
    · simp [Part.zone, Part.reset, Znu.reset, Zone.unused, ZoneConfig.unused]
  unfold Part.dryZonesOf allFin
  rw [List.filter_eq_nil_iff]
  intro y _ dry
  rw [zones] at dry
  simp only [Bool.and_eq_true, beq_iff_eq] at dry
  exact kind y dry.1

/-- Its evaluation is taken for that of the SET_ZONE, and no ZONE_CONDITION is offered. -/
theorem takeWaiting_ownReading : (ownReadingPart.takeWaiting 0 none).jnc.queue = [] := by
  obtain ⟨p, hp⟩ : ∃ p, p = ownReadingPart.putZone 0 (ownReadingZone.dropTrigger .reading) := ⟨_, rfl⟩
  have zone : p.zone 0 = ownReadingZone.dropTrigger .reading := by rw [hp, Part.zone_putZone_self]
  have queue : p.jnc = ownReadingPart.jnc := by rw [hp]; rfl
  have taken : ownReadingPart.takeWaiting 0 none = p.evaluateZone 0 0 true none := by
    rw [hp]
    rfl
  have config (y : Fin 64) : (p.zone y).config = (ownReadingPart.zone y).config := by
    rw [hp, Part.zone_putZone]
    split
    · next same => rw [← same]; rfl
    · rfl
  have differs : (p.evaluated (p.zone 0)).2 ≠ (p.zone 0).condition := by
    rw [zone]
    nofun
  have written := Part.written_condition (0 : Fin 64) 0 true (p := p) (by rw [queue]; rfl)
  have unchanged : ((p.conditionWritten 0 0 true).zone 0).change = none := by
    rw [written.change, Part.changedRecord_change, zone]
    rfl
  rw [taken, Part.evaluateZone_alone (ownReadingPart_dryZones p config 0) (by rw [queue]; rfl),
    Part.evaluateOne_changes differs, Part.carryChange_idle unchanged]
  show (p.setZone 0 (p.changedRecord (p.zone 0) 0)).jnc.queue = []
  obtain ⟨marks, set⟩ := p.setZone_spec 0 (p.changedRecord (p.zone 0) 0)
  rw [set]
  show p.jnc.queue = []
  rw [queue]
  rfl

/-- Refutes O54: `own` stands in a waiting trigger of every source, and the statement asks of every state that a reading
trigger's condition change stages a ZONE_CONDITION. -/
theorem not_waitingTriggerIsTakenEarliestFirst : ¬ Obligations.WaitingTriggerIsTakenEarliestFirst := by
  intro claims
  obtain ⟨-, claims⟩ := claims ownReadingState 0 none rfl rfl
  obtain ⟨reading, -⟩ := claims nofun (ownReadingPart_dryZones ownReadingPart (fun _ => rfl) 0)
  obtain ⟨q, ran, -, -, -, -, -, -, -, -, -, -, -, stages⟩ := reading { time := 0, own := true } rfl nofun nofun
  obtain ⟨-, stages⟩ := stages rfl (by
    show (ownReadingPart.evaluated (ownReadingPart.zone 0)).2 ≠ _
    rw [ownReadingPart_zone]
    nofun)
  obtain ⟨images, queue⟩ := stages ⟨rfl, rfl, rfl, rfl, by decide, by decide⟩ rfl
  have same : q = ownReadingPart.takeWaiting 0 none := by
    have runs : exec (.waitingTriggerTaken 0 none) ownReadingState =
        .next (ownReadingState.withPart (ownReadingPart.takeWaiting 0 none)) := rfl
    rw [runs] at ran
    injection ran with ran
    exact (congrArg State.part ran).symm
  rw [same, takeWaiting_ownReading] at queue
  exact absurd (congrArg List.length queue) (by simp)

end Sys2Proof.Machine

/-! ## Readings and the end of a poll -/

namespace Sys2Proof.Machine

/-! ### A reading passed to the members of an oven -/

theorem Part.renews_postSlot (i : Fin 2048) (p : Part) : p.Renews (p.postSlot i) :=
  ⟨p.accounted_postSlot i, fun _ => rfl, .refl _⟩

theorem Part.reachMember_renews (i : Fin 2048) (z : Fin 64) {p : Part} (open_ : p.jnc.closing = none) :
    p.Renews (p.reachMember i z) := by
  cases change : (p.zone z).change with
  | none =>
    have skips : p.reachMember i z = p := by simp only [Part.reachMember, change]
    rw [skips]
    exact .refl p
  | some h =>
    by_cases listed : i ∈ h.remaining
    · exact (Part.reachMember_spec change listed open_).renews
    · have skips : p.reachMember i z = p := by
        simp only [Part.reachMember, change]
        exact if_neg (by simpa using listed)
      rw [skips]
      exact .refl p

theorem Part.reached_renews (i : Fin 2048) {p : Part} (open_ : p.jnc.closing = none) : p.Renews (p.reached i) := by
  unfold Part.reached
  split
  · exact Part.reachMember_renews _ _ open_
  · exact .refl p

theorem Part.changeTo_renews (i : Fin 2048) (T : Nat) (keep : Bool) {f : Container → Container}
    (identity : ∀ c, (f c).identity = c.identity) (p : Part) : p.Renews (p.changeTo i T keep f).1 := by
  cases live : p.slot i with
  | none =>
    have skips : p.changeTo i T keep f = (p, false) := by simp only [Part.changeTo, live]
    rw [skips]
    exact .refl p
  | some c =>
    obtain ⟨q, changes, commits⟩ := Part.changeTo_commits live T keep f
    have accounted := Part.accounted_changeTo i T keep f identity p
    rw [changes] at accounted ⊢
    exact commits.renews accounted

theorem Part.passTo_renews (i : Fin 2048) (temp : Int) (t : Nat) {p : Part} (open_ : p.jnc.closing = none) :
    p.Renews (p.passTo i temp t) := by
  have reaches := Part.reached_renews i open_
  unfold Part.passTo
  dsimp only
  split
  · next c _ =>
    split
    · have settles := reaches.trans (Part.changeTo_renews i t true
        (overheat_identity ((p.reached i).classDef c.cls) temp) (p.reached i))
      split
      · split
        · exact settles.trans (Part.imageIf_renews _ (settles.closing open_))
        · have posted := settles.trans (Part.renews_postSlot i _)
          exact posted.trans (Part.imageIf_renews _ (posted.closing open_))
      · exact settles
    · exact reaches
  · exact reaches

theorem Part.renews_foldl {α : Type} {f : Part → α → Part}
    (h : ∀ (p : Part) (a : α), p.jnc.closing = none → p.Renews (f p a)) (xs : List α) {p : Part}
    (open_ : p.jnc.closing = none) : p.Renews (xs.foldl f p) := by
  induction xs generalizing p with
  | nil => exact .refl p
  | cons x xs ih => exact (h p x open_).trans (ih ((h p x open_).closing open_))

theorem Part.passReading_renews (z : Fin 64) (temp : Int) (t : Nat) {p : Part} (open_ : p.jnc.closing = none) :
    p.Renews (p.passReading z temp t) := by
  unfold Part.passReading
  split
  · exact Part.renews_foldl (fun _ i => Part.passTo_renews i temp t) _ open_
  · exact .refl p

/-- R122, R125: a temperature that reaches one BAKING member settles it, and puts it to the tests. -/
theorem Part.passTo_baking {i : Fin 2048} {c : Container} {temp : Int} {t : Nat} {p : Part} (live : p.slot i = some c)
    (baking : c.custody = .baking) (still : (p.zone c.zone).change = none) (open_ : p.jnc.closing = none) :
    p.sameOtherSlots i (p.passTo i temp t) ∧ ∃ b, (p.passTo i temp t).slot i = some
      { (p.deriveRecord true (overheat (p.classDef c.cls) temp (settleRecord (p.classDef c.cls) t c).1)).1 with dirty := b } := by
  have reached : p.reached i = p := by simp only [Part.reached, live, Part.reachMember, still]
  obtain ⟨q, changes, commits⟩ := Part.changeTo_commits live t true (overheat (p.classDef c.cls) temp)
  have openQ : q.jnc.closing = none := by rw [commits.jnc]; exact open_
  obtain ⟨w, hw, posts⟩ : ∃ w, p.passTo i temp t = Part.imageIf i w ∧ (w.1 = q ∨ w.1 = q.postSlot i) := by
    unfold Part.passTo
    simp only [reached, live, baking, if_true, changes, commits.own]
    split
    · exact ⟨_, rfl, .inl rfl⟩
    · exact ⟨_, rfl, .inr rfl⟩
  have slots (j : Fin 2048) : w.1.slot j = q.slot j := by
    obtain h | h := posts
    · rw [h]
    · rw [h]
      rfl
  have openW : w.1.jnc.closing = none := by obtain h | h := posts <;> rw [h] <;> exact openQ
  have marks := Part.marks_imageIf (i := i) (p := w.1) w.2 openW
  rw [hw]
  refine ⟨fun j other => ?_, ?_⟩
  · exact (marks.others j other).trans ((slots j).trans (commits.others j other))
  · exact marks.own _ ((slots i).trans commits.own)

/-! ### A reading delivered -/

theorem Part.Renews.inputs {p q : Part} (h : p.Renews q) (y : Fin 64) : (q.zone y).inputs = (p.zone y).inputs := by
  show (q.zone y).bare.inputs = _
  rw [h.bare]
  rfl

theorem Part.inputs_deliverReading {z : Fin 64} {v : Reading} {t : Nat} {reach : Reach} {p : Part}
    (open_ : p.jnc.closing = none) (y : Fin 64) : ((p.deliverReading z v t reach).zone y).inputs =
      if z = y then Zone.inputs { p.zone y with held := some v, stale := false } else (p.zone y).inputs := by
  have told := p.accounted_setZone z { p.zone z with held := some v, stale := false } rfl rfl
  have triggers := Part.reevaluates_trigger .reading z t false reach (told.closing open_)
  have passes := Part.passReading_renews z v.temp t (triggers.closing (told.closing open_))
  unfold Part.deliverReading
  dsimp only
  rw [passes.inputs, triggers.inputs, Part.zone_setZone]
  split
  · next same => rw [same]
  · rfl

theorem Part.inputs_deliverReadings (zs : List (Fin 64)) (v : Reading) (reach : Reach) {p : Part}
    (open_ : p.jnc.closing = none) (y : Fin 64) :
    ((zs.foldl (fun p z => p.deliverReading z v p.now reach) p).zone y).inputs =
      if y ∈ zs then Zone.inputs { p.zone y with held := some v, stale := false } else (p.zone y).inputs :=
  Part.inputs_foldl (g := fun r => { r with held := some v, stale := false })
    (fun p z => Part.accounted_deliverReading z v p.now reach) (fun _ _ y open_ => Part.inputs_deliverReading open_ y)
    (fun r r' h => by simp only [Zone.inputs, Prod.mk.injEq] at h ⊢; tauto) zs open_ y

/-- A good reading of a probe: every zone that binds it holds it, and no other. -/
theorem Part.probeReading_spec {n : Fin 32} {v : Reading} {reach : Reach} {p : Part} (open_ : p.jnc.closing = none) :
    (p.setProbe n { p.probe n with staleReported := false }).accounted (p.probeReading n v reach) ∧
      (∀ z, (p.zone z).config.probe = some n →
        ((p.probeReading n v reach).zone z).held = some v ∧ ((p.probeReading n v reach).zone z).stale = false) ∧
      ∀ z, (p.zone z).config.probe ≠ some n → ((p.probeReading n v reach).zone z).held = (p.zone z).held := by
  obtain ⟨r, hr⟩ : ∃ r, r = p.setProbe n { p.probe n with staleReported := false } := ⟨_, rfl⟩
  have openR : r.jnc.closing = none := by rw [hr]; exact open_
  have zones (z : Fin 64) : r.zone z = p.zone z := by rw [hr]; rfl
  have unfolds : p.probeReading n v reach = (r.zonesOfProbe n).foldl (fun p z => p.deliverReading z v p.now reach) r := by
    rw [hr]
    rfl
  have bound (z : Fin 64) : z ∈ r.zonesOfProbe n ↔ (p.zone z).config.probe = some n := by
    rw [Part.mem_zonesOfProbe, zones]
  have inputs (z : Fin 64) := Part.inputs_deliverReadings (r.zonesOfProbe n) v reach openR z
  rw [unfolds, ← hr]
  refine ⟨Part.accounted_foldl _ (fun p z => Part.accounted_deliverReading z v p.now reach) _ openR,
    fun z binds => ?_, fun z other => ?_⟩
  · have told := inputs z
    rw [if_pos ((bound z).2 binds)] at told
    exact ⟨congrArg (·.1) told, congrArg (·.2.1) told⟩
  · have told := inputs z
    rw [if_neg (fun h => other ((bound z).1 h)), zones] at told
    exact congrArg (·.1) told

/-- R57, R62: a READY oven stays READY with the reading, which is passed to its one member. -/
theorem Part.deliverReading_oven {z : Fin 64} {i : Fin 2048} {v : Reading} {t : Nat} {reach : Reach} {p : Part}
    (oven : (p.zone z).config.kind = .oven) (ready : (p.zone z).condition = some .ovenReady)
    (shut : (p.zone z).doorOpen = false) (idle : (p.zone z).busy = false) (members : (p.zone z).members = [i]) :
    ∃ w : Part, p.deliverReading z v t reach = w.passTo i v.temp t ∧ (∀ j, w.slot j = p.slot j) ∧
      w.classDef = p.classDef ∧
      (w.zone z).condition = some .ovenReady ∧ (w.zone z).held = some v ∧ (w.zone z).change = none ∧
      w.jnc.closing = p.jnc.closing := by
  obtain ⟨r, hr⟩ : ∃ r, r = p.setZone z { p.zone z with held := some v, stale := false } := ⟨_, rfl⟩
  have zone : r.zone z = { p.zone z with held := some v, stale := false } := by rw [hr, Part.zone_setZone, if_pos rfl]
  have told : p.accounted r := by rw [hr]; exact p.accounted_setZone z _ rfl rfl
  have decides : r.evaluated (r.zone z) = ({ r.zone z with
      bands := r.znu.bandsOf (r.zone z), basis := true, walked := none, ceilingUsed := false }, some .ovenReady) := by
    simp only [Part.evaluated, zone, oven, shut, Option.isSome_some, Bool.not_false, Bool.and_self, if_true]
  obtain ⟨w, hw⟩ : ∃ w, w = r.setZone z (r.evaluated (r.zone z)).1 := ⟨_, rfl⟩
  have zoneW : w.zone z = (r.evaluated (r.zone z)).1 := by rw [hw, Part.zone_setZone, if_pos rfl]
  have stands : r.accounted w := by
    obtain ⟨config, members⟩ := r.evaluated_config (r.zone z)
    rw [hw]
    exact r.accounted_setZone z _ config members
  have triggers : r.trigger .reading z t false reach = w := by
    unfold Part.trigger Part.evaluateZone
    rw [if_neg (by rw [zone]; exact Bool.eq_false_iff.1 idle),
      Part.evaluateOne_same (by rw [decides, zone]; exact ready.symm), hw]
    rfl
  have idle' : (p.zone z).change = none := by
    have := Bool.or_eq_false_iff.1 (Bool.or_eq_false_iff.1 (Bool.or_eq_false_iff.1 idle).1).1
    exact Option.isSome_eq_false_iff.1 this.1 |> Option.isNone_iff_eq_none.1
  refine ⟨w, ?_, fun j => ?_, ?_, ?_, ?_, ?_, ?_⟩
  · unfold Part.deliverReading
    dsimp only
    rw [← hr, triggers]
    unfold Part.passReading
    rw [if_pos (by rw [stands.config, zone]; exact oven), stands.members, zone]
    dsimp only
    rw [members]
    rfl
  · rw [hw, hr]
    unfold Part.slot
    rw [Part.setZone_ctu, Part.setZone_ctu]
  · exact stands.classDef.trans told.classDef
  · rw [zoneW, decides, zone]; exact ready
  · rw [zoneW, decides, zone]
  · rw [zoneW, decides, zone]; exact idle'
  · exact stands.2.2.2.1.trans told.2.2.2.1

/-! ### The judgement of a response -/

theorem Part.response_fails {b : Bus} {q : Poll} {x : ProbeBytes} {kind : ProbeFailure} {reach : Reach} {p : Part}
    (reading : (p.bus b).phase = .reading) (polls : (p.bus b).poll = some q)
    (judged : judgeResponse x (p.probe q.probe).lastCount = some kind) : p.response b x reach =
      p.failAttempt b kind reach := by
  simp only [Part.response, reading, polls, judged]

/-- The poll of a probe that is alone in its queue, and in no power group, ends. -/
theorem Part.endPoll_alone {b : Bus} {q : Poll} {apply : Part → Part} {p : Part} (kept : q.discarded = false)
    (ungrouped : q.group = none) (queue : (p.bus b).queue = [q.probe])
    (applied : ∀ r, r = p.setBus b { p.bus b with queue := [], poll := none, phase := .idle } →
      (apply r).bus b = r.bus b) :
    p.endPoll b q apply = apply (p.setBus b { p.bus b with queue := [], poll := none, phase := .idle }) := by
  have empty : (p.bus b).queue.filter (· != q.probe) = [] := by simp [queue]
  obtain ⟨r, hr⟩ : ∃ r, r = p.setBus b { p.bus b with queue := [], poll := none, phase := .idle } := ⟨_, rfl⟩
  have served : (apply r).bus b = r.bus b := applied r hr
  have rests : (apply r).serveBus b = apply r := by
    have poll : ((apply r).bus b).poll = none := by rw [served, hr, Part.bus_setBus_self]
    have none_ : ((apply r).bus b).queue = [] := by rw [served, hr, Part.bus_setBus_self]
    simp only [Part.serveBus, poll, none_]
  unfold Part.endPoll
  rw [if_neg (by simp [kept]), ungrouped]
  dsimp only
  rw [empty, ← hr]
  exact rests

end Sys2Proof.Machine

/-! ## The end of a poll, and a bake's test -/

namespace Sys2Proof.Machine

/-- R62, R121, R122, R125: what the tests leave of the member of a READY oven, settled before as `c1`. -/
theorem Part.tested_fields {k : ClassDef} {c1 : Container} {v : Reading} {w : Part}
    (defn : w.classDef c1.cls = k) (ready : (w.zone c1.zone).condition = some .ovenReady)
      (held : (w.zone c1.zone).held = some v) :
    let c' := (w.deriveRecord true (overheat k v.temp c1)).1
    c'.id = c1.id ∧ c'.zone = c1.zone ∧ c'.settled = c1.settled ∧ c'.exposure = c1.exposure ∧
      c'.bakeCount = c1.bakeCount ∧
      (c1.custody ≠ .baking → c'.custody = c1.custody) ∧
      (c1.custody = .baking → (k.bakeMax : Int) < v.temp → c'.custody = .quarantined ∧
        c'.quarantineCause = some .overheat ∧ c'.bakeProgress = none ∧ c'.bakeRunStart = none) ∧
      (c1.custody = .baking → v.temp ≤ (k.bakeMax : Int) → c'.custody = .baking ∧
        (c'.mode = .bakeRun ↔ (k.bakeTemp : Int) ≤ v.temp) ∧ (c'.mode = .bakePause ↔ v.temp < (k.bakeTemp : Int))) := by
  intro c'
  by_cases hot : c1.custody = .baking ∧ (k.bakeMax : Int) < v.temp
  · have heated : overheat k v.temp c1 = { c1 with
        custody := .quarantined, quarantineCause := some .overheat, bakeProgress := none, bakeRunStart := none } :=
          if_pos hot
    have run := Part.deriveRecord_bakeRunStart (keep := true) (c := overheat k v.temp c1) (p := w)
        (by rw [heated]; nofun)
    have eq : c' = _ := Part.deriveRecord_eq true (overheat k v.temp c1) w
    have start : c'.bakeRunStart = none := run
    rw [heated] at eq
    refine ⟨by rw [eq], by rw [eq], by rw [eq], by rw [eq], by rw [eq], fun h => absurd hot.1 h,
      fun _ _ => ⟨by rw [eq], by rw [eq], by rw [eq], start⟩, fun _ cool => absurd hot.2 (Int.not_lt.2 cool)⟩
  · have kept : overheat k v.temp c1 = c1 := if_neg hot
    have eq : c' = _ := Part.deriveRecord_eq true (overheat k v.temp c1) w
    rw [kept] at eq
    refine ⟨by rw [eq], by rw [eq], by rw [eq], by rw [eq], by rw [eq], fun _ => by rw [eq],
      fun bakes heats => absurd ⟨bakes, heats⟩ hot, fun bakes cool => ?_⟩
    have mode : c'.mode = if (k.bakeTemp : Int) ≤ v.temp then .bakeRun else .bakePause := by
      rw [eq]
      simp only [Part.modeFor, deriveMode, ready, bakes, if_true, inBakeRange, held, defn, cool, decide_true,
        Bool.and_true,
        decide_eq_true_eq]
    refine ⟨by rw [eq]; exact bakes, ?_, ?_⟩ <;> rw [mode] <;> split <;> simp <;> omega

/-- R81, R83: a good reading ends the poll. -/
theorem Part.pollGood_spec {n : Fin 32} {v : Reading} {count : Byte} {reach : Reach} {p : Part}
    (open_ : p.jnc.closing = none) : ∃ w, w = p.setProbe n { (p.probe n).good v count p.now with staleReported := false } ∧
      w.accounted (p.pollGood n v count reach) ∧ p.pollGood n v count reach =
        (w.zonesOfProbe n).foldl (fun p z => p.deliverReading z v p.now reach) w ∧
      (∀ z, (p.zone z).config.probe = some n → ((p.pollGood n v count reach).zone z).held = some v ∧
        ((p.pollGood n v count reach).zone z).stale = false) ∧
      ∀ z, (p.zone z).config.probe ≠ some n → ((p.pollGood n v count reach).zone z).held = (p.zone z).held := by
  obtain ⟨r, hr⟩ : ∃ r, r = p.setProbe n ((p.probe n).good v count p.now) := ⟨_, rfl⟩
  have written : r.setProbe n { r.probe n with staleReported := false } =
      p.setProbe n { (p.probe n).good v count p.now with staleReported := false } := by
    rw [hr, Part.setProbe_setProbe, Part.probe_setProbe_self]
  have zones (z : Fin 64) : r.zone z = p.zone z := by rw [hr]; rfl
  have goes : p.pollGood n v count reach = r.probeReading n v reach := by
    rw [hr]
    rfl
  obtain ⟨accounted, binds, others⟩ := Part.probeReading_spec (n := n) (v := v) (reach := reach) (p := r)
    (by rw [hr]; exact open_)
  rw [written] at accounted
  simp only [zones] at binds others
  rw [goes]
  refine ⟨_, rfl, accounted, ?_, binds, others⟩
  rw [← written]
  rfl

/-- The bake test that a probe's good reading brings to the one member of the one oven that binds the probe. -/
theorem Part.pollGood_bakes {n : Fin 32} {v : Reading} {count : Byte} {reach : Reach} {p : Part} {z : Fin 64} {i : Fin 2048}
    {c : Container} (open_ : p.jnc.closing = none) (bound : p.zonesOfProbe n = [z])
    (oven : (p.zone z).config.kind = .oven) (ready : (p.zone z).condition = some .ovenReady)
    (shut : (p.zone z).doorOpen = false) (idle : (p.zone z).busy = false) (members : (p.zone z).members = [i])
    (live : p.slot i = some c) (lies : c.zone = z) (baking : c.custody = .baking) :
    let k := p.classDef c.cls
    p.sameOtherSlots i (p.pollGood n v count reach) ∧ ∃ (w : Part) (b : Bool), w.classDef = p.classDef ∧
      (w.zone z).condition = some .ovenReady ∧ (w.zone z).held = some v ∧ (p.pollGood n v count reach).slot i = some
        { (w.deriveRecord true (overheat k v.temp (settleRecord k p.now c).1)).1 with dirty := b } := by
  intro k
  obtain ⟨w, written, -, tells, -⟩ := Part.pollGood_spec (n := n) (v := v) (count := count) (reach := reach) open_
  have zones (y : Fin 64) : w.zone y = p.zone y := by rw [written]; rfl
  have bound' : w.zonesOfProbe n = [z] := by
    rw [← bound]
    unfold Part.zonesOfProbe
    simp only [zones]
  obtain ⟨u, delivers, slots, classes, readyU, held, still, closing⟩ := Part.deliverReading_oven (v := v) (t := w.now)
    (reach := reach) (p := w) (z := z) (i := i) (by rw [zones]; exact oven) (by rw [zones]; exact ready)
    (by rw [zones]; exact shut) (by rw [zones]; exact idle) (by rw [zones]; exact members)
  have goes : p.pollGood n v count reach = u.passTo i v.temp p.now := by
    rw [tells, bound', ← show w.now = p.now by rw [written]; rfl, ← delivers]
    rfl
  have slots' (j : Fin 2048) : u.slot j = p.slot j := (slots j).trans (by rw [written]; rfl)
  have classes' : u.classDef = p.classDef := classes.trans (by rw [written]; rfl)
  have openU : u.jnc.closing = none := closing.trans (by rw [written]; exact open_)
  obtain ⟨others, b, own⟩ := Part.passTo_baking (temp := v.temp) (t := p.now) ((slots' i).trans live) baking
    (by rw [lies]; exact still) openU
  rw [goes]
  refine ⟨fun j other => (others j other).trans (slots' j), u, b, classes', readyU, held, ?_⟩
  rw [own, classes']

theorem Part.pollFailed_spec {n : Fin 32} {reach : Reach} {p : Part} (open_ : p.jnc.closing = none) :
    let m := if (p.probe n).state = .stale then 3 else min 3 ((p.probe n).failures + 1)
    let w := p.setProbe n { p.probe n with
      failures := m, state := if m = 3 then .stale else .doubtful
      staleReported := if m = 3 then true else (p.probe n).staleReported }
    w.accounted (p.pollFailed n reach) ∧ (m = 3 → (p.probe n).staleReported = false →
      ∀ z, (p.zone z).config.probe = some n → ((p.pollFailed n reach).zone z).stale = true) ∧
      (m ≠ 3 → p.pollFailed n reach = w) := by
  intro m w
  obtain ⟨r, hr⟩ : ∃ r, r = p.setProbe n { p.probe n with failures := m, state := if m = 3 then .stale else .doubtful } :=
    ⟨_, rfl⟩
  have probe : r.probe n = { p.probe n with failures := m, state := if m = 3 then .stale else .doubtful } := by
    rw [hr, Part.probe_setProbe_self]
  have fails : p.pollFailed n reach = if m = 3 then r.probeLost n reach else r := by
    show (if (if m = 3 then ProbeState.stale else .doubtful) = .stale then Part.probeLost n reach _ else _) = _
    rw [← show r = p.setProbe n (p.probe n).failed from hr]
    by_cases three : m = 3
    · simp only [three, if_true]
    · simp only [three, if_false, reduceCtorEq]
  have openR : r.jnc.closing = none := by rw [hr]; exact open_
  by_cases three : m = 3
  · rw [if_pos three] at fails
    have hw : w = r.setProbe n { r.probe n with staleReported := true } := by
      rw [probe, hr, Part.setProbe_setProbe]
      simp only [w, three, if_true]
    rw [fails]
    cases said : (p.probe n).staleReported with
    | false =>
      obtain ⟨told, stale⟩ := Part.probeLost_spec (reach := reach) openR (by rw [probe]; exact said)
      exact ⟨hw ▸ told, fun _ _ z bound => stale z (by rw [hr]; exact bound), fun h => absurd three h⟩
    | true =>
      have silent : r.probeLost n reach = r := if_pos (by rw [probe]; exact said)
      have same : w = r := by rw [hr]; simp only [w, three, if_true, said]
      rw [silent, same]
      exact ⟨r.accounted_refl, nofun, fun h => absurd three h⟩
  · rw [if_neg three] at fails
    have same : w = r := by rw [hr]; simp only [w, three, if_false]
    rw [fails, same]
    exact ⟨r.accounted_refl, fun h => absurd h three, fun _ => rfl⟩

theorem judgeResponse_eq (x : ProbeBytes) (last : Option Byte) : judgeResponse x last =
    if x.status.getLsbD 1 = true then some .sensorFault else if x.status.getLsbD 0 = false then some .notReady
    else if last = some x.count then some .sameCount else none := by
  unfold judgeResponse
  cases x.status.getLsbD 0 <;> rfl

theorem Part.bus_accounted {p q : Part} (h : p.accounted q) (b : Bus) : q.bus b = p.bus b := by
  unfold Part.bus
  rw [h.prc]

theorem Part.setBus_eq (b : Bus) (r : ProbeBus) (p : Part) : p.setBus b r = { p with prc := (p.setBus b r).prc } := by
  cases b <;> rfl

/-- The outcome of a poll touches no bus. -/
theorem Part.bus_pollGood {n : Fin 32} {v : Reading} {count : Byte} {reach : Reach} {p : Part} (open_ :
    p.jnc.closing = none)
    (b : Bus) : (p.pollGood n v count reach).bus b = p.bus b := by
  obtain ⟨w, written, accounted, -⟩ := Part.pollGood_spec (n := n) (v := v) (count := count) (reach := reach) open_
  rw [Part.bus_accounted accounted, written, Part.bus_setProbe]

theorem Part.bus_pollFailed {n : Fin 32} {reach : Reach} {p : Part} (open_ : p.jnc.closing = none) (b : Bus) :
    (p.pollFailed n reach).bus b = p.bus b := by
  rw [Part.bus_accounted (Part.pollFailed_spec open_).1, Part.bus_setProbe]

/-- A second attempt that fails ends the poll. -/
theorem Part.failAttempt_second {b : Bus} {q : Poll} {kind : ProbeFailure} {reach : Reach} {p : Part}
    (polls : (p.bus b).poll = some q) (kept : q.discarded = false) (second : q.second = true)
      (ungrouped : q.group = none)
    (queue : (p.bus b).queue = [q.probe]) (open_ : p.jnc.closing = none) : p.failAttempt b kind reach =
      ((p.setProbe q.probe { p.probe q.probe with lastFailure := some kind }).setBus b
        { p.bus b with queue := [], poll := none, phase := .idle }).pollFailed q.probe reach := by
  unfold Part.failAttempt
  simp only [polls, kept, second, Bool.false_eq_true, if_false, if_true]
  refine (Part.endPoll_alone kept ungrouped (by rw [Part.bus_setProbe]; exact queue)
    fun r hr => Part.bus_pollFailed (by rw [hr, Part.setBus_eq]; exact open_) b).trans ?_
  rw [Part.bus_setProbe]

/-- Settles O52. -/
theorem responseEndsThePoll : Obligations.ResponseEndsThePoll := by
  intro s b q c x reach on p r reading polls kept ungrouped queue configured open_ idle v kind
  have judged : judgeResponse x (p.probe q.probe).lastCount = kind := judgeResponse_eq ..
  have fails {k : ProbeFailure} (failed : kind = some k) : p.response b x reach = p.failAttempt b k reach :=
    Part.response_fails reading polls (judged.trans failed)
  obtain ⟨e, he⟩ : ∃ e, e = p.setBus b idle := ⟨_, rfl⟩
  have eqE : e = { p with prc := e.prc } := by rw [he]; exact Part.setBus_eq ..
  have openE : e.jnc.closing = none := by rw [eqE]; exact open_
  have nowE : e.now = p.now := by rw [eqE]; rfl
  have zoneE (z : Fin 64) : e.zone z = p.zone z := by rw [eqE]; rfl
  have slotE (i : Fin 2048) : e.slot i = p.slot i := by rw [eqE]; rfl
  have outsideE : p.sameOutside e := by rw [eqE]; exact ⟨rfl, rfl, rfl⟩
  have probeE (m : Fin 32) : e.probe m = p.probe m := by rw [he, Part.probe_setBus]
  have busE : e.bus b = idle := by rw [he, Part.bus_setBus_self]
  refine ⟨fun good => ?good, fun k failed first => ?retried, fun k failed second => ?failed⟩
  case good =>
    have responds : p.response b x reach = e.pollGood q.probe v x.count reach := by
      have ends := Part.endPoll_alone (apply := Part.pollGood q.probe v x.count reach) kept ungrouped queue
        fun r hr => Part.bus_pollGood (by rw [hr, Part.setBus_eq]; exact open_) b
      rw [he]
      refine Eq.trans ?_ ends
      simp only [Part.response, reading, polls, judged, good]
      rfl
    obtain ⟨w, written, accounted, -, binds, others⟩ :=
      Part.pollGood_spec (n := q.probe) (v := v) (count := x.count) (reach := reach) openE
    rw [probeE, nowE] at written
    have probes (m : Fin 32) := accounted.probe m
    rw [written] at probes
    refine ⟨_, exec_of_powered rfl on responds, ?_, ?_, fun m other => ?_, ?_, ?_, fun z bound => ?_,
      fun z free => ?_, ?_⟩
    · have outside := accounted.sameOutside
      rw [written] at outside
      exact outsideE.trans outside
    · rw [Part.bus_pollGood openE, busE]
    · rw [probes, Part.probe_setProbe_of_ne other.symm, probeE]
    · rw [accounted.prc, written, he]
      cases b <;> rfl
    · rw [probes, Part.probe_setProbe_self]
      unfold Probe.good Probe.interval
      rw [show (p.probe q.probe).config = some c from configured]
    · exact binds z (by rw [zoneE]; exact bound)
    · exact (others z (by rw [zoneE]; exact free)).trans (by rw [zoneE])
    · intro z i c bound oven ready shut idle members live lies baking k c1
      have tests := Part.pollGood_bakes (v := v) (count := x.count) (reach := reach) (n := q.probe) (p := e) (z := z)
          (i := i)
        (c := c) openE (by rw [eqE]; exact bound) (by rw [zoneE]; exact oven) (by rw [zoneE]; exact ready)
        (by rw [zoneE]; exact shut) (by rw [zoneE]; exact idle) (by rw [zoneE]; exact members)
        (by rw [slotE]; exact live) lies baking
      have classE : e.classDef = p.classDef := by rw [eqE]; rfl
      rw [classE, nowE] at tests
      obtain ⟨still, w, d, classes, readyW, held, own⟩ := tests
      obtain ⟨id, cls, zone⟩ := settleRecord_ids k p.now c
      obtain ⟨id', zone', fields⟩ := Part.tested_fields (k := k) (c1 := c1) (v := v) (w := w)
        (by rw [classes]; exact congrArg p.classDef cls) (by rw [show c1.zone = z from zone.trans lies]; exact readyW)
        (by rw [show c1.zone = z from zone.trans lies]; exact held)
      exact ⟨_, own, fun j other => (still j other).trans (slotE j), id'.trans id, zone'.trans (zone.trans lies),
        fields⟩
  case retried =>
    exact exec_of_powered rfl on ((fails failed).trans (Part.failAttempt_first polls kept first))
  case failed =>
    intro n
    obtain ⟨u, hu⟩ : ∃ u, u = (p.setProbe q.probe { r with lastFailure := some k }).setBus b idle := ⟨_, rfl⟩
    have responds : p.response b x reach = u.pollFailed q.probe reach := by
      rw [hu]
      exact (fails failed).trans (Part.failAttempt_second polls kept second ungrouped queue open_)
    have eqU : u = { p with prc := u.prc } := by rw [hu, Part.setBus_eq]; rfl
    have openU : u.jnc.closing = none := by rw [eqU]; exact open_
    have probeU : u.probe q.probe = { r with lastFailure := some k } := by
      rw [hu, Part.probe_setBus, Part.probe_setProbe_self]
    obtain ⟨accounted, stale, stays⟩ := Part.pollFailed_spec (n := q.probe) (reach := reach) openU
    rw [probeU] at accounted stale stays
    refine ⟨_, exec_of_powered rfl on responds, ?_, ?_, ?_, fun three said z bound => ?_, fun other => ?_⟩
    · have outsideU : p.sameOutside u := by rw [eqU]; exact ⟨rfl, rfl, rfl⟩
      exact outsideU.trans accounted.sameOutside
    · rw [Part.bus_pollFailed openU, hu, Part.bus_setBus_self]
    · rw [accounted.probe, Part.probe_setProbe_self]
    · exact stale three said z (by rw [eqU]; exact bound)
    · rw [stays other, eqU]
      exact ⟨rfl, rfl, rfl⟩

end Sys2Proof.Machine

/-! ## The checks of SET_ZONE -/

namespace Sys2Proof.Machine

/-! ### The configuration that the arguments give -/

/-- A field of a SET_ZONE of that kind lies out of its range (R50). -/
def ZoneArgs.outOfRange (a : ZoneArgs) (kind : ZoneKind) : Prop :=
  (a.probe ≠ 255 ∧ 32 ≤ a.probe) ∨ (kind = .dry ∧ a.dryThreshold ≠ 65535 ∧ 1000 < a.dryThreshold) ∨
    (kind = .line ∧ a.lineOutput ≠ 255 ∧ 8 ≤ a.lineOutput)

/-- The configuration that a SET_ZONE of that kind names (R47). -/
def ZoneArgs.names (a : ZoneArgs) (kind : ZoneKind) : ZoneConfig := {
  kind := kind, probe := finOf? 32 a.probe
  fixed := if a.probe = 255 then some (clampReading { temp := a.fixedTemp, rh := a.fixedRh }) else none
  reference := if kind = .dry then finOf? 64 a.reference else none
  dryThreshold := if kind = .dry then (if a.dryThreshold = 65535 then 100 else a.dryThreshold) else 0
  creditRate := if kind = .dry then a.creditRate else 0
  lineOutput := if kind = .line then finOf? 8 a.lineOutput else none }

theorem optField_of_range {n k : Nat} (few : n ≤ 255) (good : ¬ (k ≠ 255 ∧ n ≤ k)) : optField n k =
    some (finOf? n k) := by
  unfold optField
  split
  · next marks => rw [finOf?_eq_none.2 (by omega)]
  · next number =>
    rw [finOf?, dif_pos (by omega)]
    rfl

theorem optField_of_out {n k : Nat} (number : k ≠ 255) (out : n ≤ k) : optField n k = none := by
  rw [optField, if_neg number, finOf?_eq_none.2 out]
  rfl

/-- The threshold of a DRY zone, with its default (R47). -/
def dryThresholdOf (k : Nat) : Option Nat := if k = 65535 then some 100 else if k ≤ 1000 then some k else none

theorem zoneConfig_eq {kind : ZoneKind} (used : kind ≠ .unused) (a : ZoneArgs) : zoneConfig kind a =
    (optField 32 a.probe).bind fun probe =>
      (if kind = .dry then dryThresholdOf a.dryThreshold else some 0).bind fun threshold =>
        (if kind = .line then optField 8 a.lineOutput else some none).bind fun output => some {
          kind := kind, probe := probe
          fixed := if probe = none then some (clampReading { temp := a.fixedTemp, rh := a.fixedRh }) else none
          reference := if kind = .dry then (if a.reference = 255 then none else finOf? 64 a.reference) else none
          dryThreshold := threshold
          creditRate := if kind = .dry then a.creditRate else 0
          lineOutput := output } := by
  cases kind with
  | unused => exact absurd rfl used
  | floor | line | dry | oven =>
    unfold zoneConfig dryThresholdOf
    simp only [ne_eq, reduceCtorEq, not_false_eq_true, true_and, if_false, if_true]
    rfl

theorem zoneConfig_out {kind : ZoneKind} {a : ZoneArgs} (used : kind ≠ .unused) (out : a.outOfRange kind) :
    zoneConfig kind a = none := by
  rw [zoneConfig_eq used]
  obtain ⟨number, out⟩ | ⟨dry, unmarked, out⟩ | ⟨line, number, out⟩ := out
  · rw [optField_of_out number out]
    rfl
  · have none_ : dryThresholdOf a.dryThreshold = none := by
      rw [dryThresholdOf, if_neg unmarked, if_neg (by omega)]
    rw [if_pos dry, none_]
    cases optField 32 a.probe <;> rfl
  · rw [if_pos line, optField_of_out number out]
    simp

theorem zoneConfig_good {kind : ZoneKind} {a : ZoneArgs} (used : kind ≠ .unused) (good : ¬ a.outOfRange kind) :
    zoneConfig kind a = some (a.names kind) := by
  obtain ⟨probe, threshold, output⟩ := not_or.1 good |>.imp_right not_or.1
  have thresholds : (if kind = .dry then dryThresholdOf a.dryThreshold else some 0) =
      some (if kind = .dry then (if a.dryThreshold = 65535 then 100 else a.dryThreshold) else 0) := by
    split
    · next dry =>
      unfold dryThresholdOf
      split
      · rfl
      · next number => rw [if_pos (Nat.not_lt.1 fun out => threshold ⟨dry, number, out⟩)]
    · rfl
  have outputs : (if kind = .line then optField 8 a.lineOutput else some none) =
      some (if kind = .line then finOf? 8 a.lineOutput else none) := by
    split
    · next line => exact optField_of_range (by omega) fun out => output ⟨line, out.1, out.2⟩
    · rfl
  have fixed : finOf? 32 a.probe = none ↔ a.probe = 255 := by
    rw [finOf?_eq_none]
    omega
  have reference : (if a.reference = 255 then none else finOf? 64 a.reference) = finOf? 64 a.reference := by
    split
    · next marks => rw [finOf?_eq_none.2 (by omega)]
    · rfl
  rw [zoneConfig_eq used, optField_of_range (by omega) probe, thresholds, outputs, reference]
  simp only [Option.bind_some, fixed]
  rfl

/-! ### The checks in order -/

/-- A SET_ZONE names a reference that is none or no other FLOOR or LINE zone (R50). -/
def Part.badReference (p : Part) (z : Fin 64) (a : ZoneArgs) (kind : ZoneKind) : Prop :=
  kind = .dry ∧ a.reference ≠ 255 ∧ ∀ f : Fin 64, f.val = a.reference →
    f = z ∨ ((p.zone f).config.kind ≠ .floor ∧ (p.zone f).config.kind ≠ .line)

/-- A new kind for a zone with members, or one that a zone with a DRY follower cannot take (R50). -/
def Part.zoneInUse (p : Part) (z : Fin 64) (kind : ZoneKind) : Prop :=
  (kind ≠ (p.zone z).config.kind ∧ (p.zone z).members ≠ []) ∨ (p.dryZonesOf z ≠ [] ∧ (kind = .oven ∨ kind = .dry))

/-- Another LINE zone has the output (R50). -/
def Part.outputOfAnother (p : Part) (z : Fin 64) (a : ZoneArgs) (kind : ZoneKind) : Prop :=
  kind = .line ∧ ∃ (o : Fin 8) (y : Fin 64), o.val = a.lineOutput ∧ y ≠ z ∧ (p.zone y).config.kind = .line ∧
    (p.zone y).config.lineOutput = some o

theorem ZoneKind.walks_iff (k : ZoneKind) : k.walks = true ↔ k = .floor ∨ k = .line :=
    by cases k <;> simp [ZoneKind.walks]

theorem Part.referenceOk_iff {p : Part} {z : Fin 64} {a : ZoneArgs} : p.referenceOk z a = true ↔
    a.reference = 255 ∨ ∃ f : Fin 64, f.val = a.reference ∧ f ≠ z ∧ (p.zone f).config.kind.walks = true := by
  unfold Part.referenceOk
  rw [Bool.or_eq_true, beq_iff_eq]
  refine or_congr_right ?_
  cases number : finOf? 64 a.reference with
  | none =>
    have out := finOf?_eq_none.1 number
    exact ⟨nofun, fun ⟨f, at_, _⟩ => absurd at_ (by omega)⟩
  | some f =>
    have at_ := finOf?_eq_some.1 number
    rw [Bool.and_eq_true, bne_iff_ne]
    refine ⟨fun ⟨other, walks⟩ => ⟨f, at_, other, walks⟩, fun ⟨g, named, other, walks⟩ => ?_⟩
    obtain rfl : g = f := Fin.ext (named.trans at_.symm)
    exact ⟨other, walks⟩

theorem Part.badReference_iff {p : Part} {z : Fin 64} {a : ZoneArgs} {kind : ZoneKind} :
    p.badReference z a kind ↔ (kind != .dry || p.referenceOk z a) = false := by
  rw [Bool.or_eq_false_iff, bne_eq_false_iff_eq, ← Bool.not_eq_true, Part.referenceOk_iff, not_or]
  refine and_congr_right fun _ => and_congr_right fun _ => ?_
  simp only [ZoneKind.walks_iff, not_exists, not_and, not_or, ne_eq]
  exact forall_congr' fun f => ⟨fun bad named other => (bad named).resolve_left other, fun bad named => by tauto⟩

theorem Part.zoneInUse_iff {p : Part} {z : Fin 64} {kind : ZoneKind} (used : kind ≠ .unused) : p.zoneInUse z kind ↔
    ((kind == (p.zone z).config.kind || (p.zone z).members.isEmpty) && ((p.dryZonesOf z).isEmpty || kind.walks)) =
      false := by
  rw [Bool.and_eq_false_iff, Bool.or_eq_false_iff, Bool.or_eq_false_iff, beq_eq_false_iff_ne, List.isEmpty_eq_false_iff,
    List.isEmpty_eq_false_iff]
  refine or_congr_right (and_congr_right fun _ => ?_)
  cases kind <;> simp_all [ZoneKind.walks]

theorem Part.outputOfAnother_iff {p : Part} {z : Fin 64} {a : ZoneArgs} {kind : ZoneKind} :
    p.outputOfAnother z a kind ↔ (match (a.names kind).lineOutput with
      | some o => !p.outputTaken z o
      | none => true) = false := by
  unfold Part.outputOfAnother ZoneArgs.names
  dsimp only
  by_cases line : kind = .line
  · simp only [line, true_and, if_true]
    cases number : finOf? 8 a.lineOutput with
    | none =>
      have out := finOf?_eq_none.1 number
      exact ⟨fun ⟨o, _, at_, _⟩ => absurd at_ (by omega), nofun⟩
    | some o =>
      have at_ := finOf?_eq_some.1 number
      simp only [Bool.not_eq_false', Part.outputTaken, List.any_eq_true, List.mem_finRange, true_and, Bool.and_eq_true,
        bne_iff_ne, beq_iff_eq]
      refine ⟨fun ⟨o', y, named, other, kind, bound⟩ => ?_, fun ⟨y, ⟨other, kind⟩, bound⟩ => ⟨o, y, at_, other, kind,
        bound⟩⟩
      obtain rfl : o' = o := Fin.ext (named.trans at_.symm)
      exact ⟨y, ⟨other, kind⟩, bound⟩
  · simp only [line, false_and, if_false, reduceCtorEq]

/-- R50: the checks of a SET_ZONE of a used kind. -/
theorem Part.checkZone_used {p : Part} {z : Fin 64} {a : ZoneArgs} {kind : ZoneKind} (number : z.val = a.zone)
    (code : decodeKind a.kind = some kind) (used : kind ≠ .unused) :
    (a.outOfRange kind → p.checkZone a = .error .badArg) ∧
    (¬ a.outOfRange kind → p.badReference z a kind → p.checkZone a = .error .badZone) ∧
    (¬ a.outOfRange kind → ¬ p.badReference z a kind → p.zoneInUse z kind → p.checkZone a = .error .zoneInUse) ∧
    (¬ a.outOfRange kind → ¬ p.badReference z a kind → ¬ p.zoneInUse z kind → p.outputOfAnother z a kind →
      p.checkZone a = .error .duplicate) ∧
    (¬ a.outOfRange kind → ¬ p.badReference z a kind → ¬ p.zoneInUse z kind → ¬ p.outputOfAnother z a kind →
      p.checkZone a = .ok (z, a.names kind)) := by
  have named : finOf? 64 a.zone = some z := finOf?_eq_some.2 number
  refine ⟨fun out => ?_, fun good bad => ?_, fun good sound busy => ?_, fun good sound free taken => ?_,
    fun good sound free own => ?_⟩
  · simp only [Part.checkZone, named, code, zoneConfig_out used out]
  all_goals simp only [Part.checkZone, named, code, zoneConfig_good used good]
  · rw [Part.badReference_iff] at bad
    simp only [check, bad, Bool.false_eq_true, if_false]
  all_goals
    rw [Part.badReference_iff, Bool.not_eq_false] at sound
    simp only [check, sound, if_true]
  · rw [Part.zoneInUse_iff used, Bool.and_eq_false_iff] at busy
    obtain members | follows := busy
    · rw [if_neg (by simp only [members, Bool.false_eq_true, not_false_eq_true])]
    · split
      · rw [if_neg (by simp only [follows, Bool.false_eq_true, not_false_eq_true])]
      · rfl
  all_goals
    rw [Part.zoneInUse_iff used, Bool.not_eq_false, Bool.and_eq_true] at free
    simp only [free.1, free.2, if_true]
  · rw [Part.outputOfAnother_iff] at taken
    refine if_neg fun untaken => ?_
    exact Bool.false_ne_true (taken.symm.trans untaken)
  · rw [Part.outputOfAnother_iff, Bool.not_eq_false] at own
    refine if_pos ?_
    exact own

/-- A zone is no reference of its own (R50). -/
theorem Part.checkZone_reference {p : Part} {z : Fin 64} {a : ZoneArgs} {c : ZoneConfig} (number : z.val = a.zone)
    (passes : p.checkZone a = .ok (z, c)) (used : c.kind ≠ .unused) : ∃ kind, decodeKind a.kind = some kind ∧
      kind ≠ .unused ∧ c = a.names kind ∧ c.reference ≠ some z := by
  have named : finOf? 64 a.zone = some z := finOf?_eq_some.2 number
  cases code : decodeKind a.kind with
  | none => simp only [Part.checkZone, named, code, reduceCtorEq] at passes
  | some kind =>
    have kinds : kind ≠ .unused := by
      rintro rfl
      cases config : zoneConfig .unused a with
      | none => simp only [Part.checkZone, named, code, config, reduceCtorEq] at passes
      | some d =>
        simp only [Part.checkZone, named, code, config, check_eq_ok, Except.ok.injEq, Prod.mk.injEq] at passes
        obtain ⟨-, -, -, -, -, rfl⟩ := passes
        have unused : d.kind = .unused := by
          simp only [zoneConfig] at config
          simp at config
          rw [← config]
        exact used unused
    obtain ⟨out, reference, busy, taken, good⟩ := Part.checkZone_used (p := p) number code kinds
    by_cases h1 : a.outOfRange kind
    · exact nomatch (out h1).symm.trans passes
    by_cases h2 : p.badReference z a kind
    · exact nomatch (reference h1 h2).symm.trans passes
    by_cases h3 : p.zoneInUse z kind
    · exact nomatch (busy h1 h2 h3).symm.trans passes
    by_cases h4 : p.outputOfAnother z a kind
    · exact nomatch (taken h1 h2 h3 h4).symm.trans passes
    have eq := (good h1 h2 h3 h4).symm.trans passes
    simp only [Except.ok.injEq, Prod.mk.injEq, true_and] at eq
    refine ⟨kind, rfl, kinds, eq.symm, fun own => h2 ?_⟩
    rw [← eq] at own
    unfold ZoneArgs.names at own
    dsimp only at own
    split at own
    · next dry =>
      have at_ := finOf?_eq_some.1 own
      refine ⟨dry, by have := z.isLt; omega, fun f hf => .inl (Fin.ext (hf.trans at_.symm))⟩
    · cases own

end Sys2Proof.Machine

/-! ## SET_ZONE applied -/

namespace Sys2Proof.Machine

/-! ### The record written, and its output bound -/

/-- The part with the zone's record written, its line output rebound, and a rise of PROBE_STALE handed on. -/
def Part.zoneWritten (p : Part) (z : Fin 64) (c : ZoneConfig) : Part :=
  let w := (p.setZone z (p.rezoned z c)).rebindOutput z (p.zone z).config.lineOutput c.lineOutput
  if (p.rezoned z c).stale && !(p.zone z).stale then w.handRise else w

theorem Part.rebindOutput_eq (z : Fin 64) (old new : Option (Fin 8)) (p : Part) :
    ∃ holds, p.rebindOutput z old new = { p with dou := { p.dou with holds := holds } } := by
  unfold Part.rebindOutput
  split
  · exact ⟨p.dou.holds, rfl⟩
  · cases old <;> cases new <;> exact ⟨_, rfl⟩

theorem Part.zoneWritten_eq (p : Part) (z : Fin 64) (c : ZoneConfig) : ∃ marks rise cause messages holds,
    p.zoneWritten z c = { p.putZone z (p.rezoned z c) with
      exi := { p.exi with zoneMarks := marks, rise := rise, cause := cause, messages := messages }
      dou := { p.dou with holds := holds } } := by
  obtain ⟨marks, set⟩ := p.setZone_spec z (p.rezoned z c)
  obtain ⟨holds, bound⟩ := (p.setZone z (p.rezoned z c)).rebindOutput_eq z (p.zone z).config.lineOutput c.lineOutput
  unfold Part.zoneWritten
  rw [bound, set]
  dsimp only
  split
  · unfold Part.handRise
    split
    · exact ⟨_, _, _, _, _, rfl⟩
    · rw [Part.raise_eq]
      exact ⟨_, _, _, _, _, rfl⟩
  · exact ⟨_, _, _, _, _, rfl⟩

/-- What the written record leaves of the part. -/
structure Part.Rezones (z : Fin 64) (r : Zone) (p q : Part) : Prop where
  outside : p.sameOutside q
  prc : q.prc = p.prc
  jnc : q.jnc = p.jnc
  ctu : q.ctu = p.ctu
  lines : q.dou.lines = p.dou.lines
  inHand : q.exi.inHand = p.exi.inHand
  tables : p.sameTables q
  own : q.zone z = r
  others : ∀ y, y ≠ z → q.zone y = p.zone y

theorem Part.rezones_zoneWritten (p : Part) (z : Fin 64) (c : ZoneConfig) :
    p.Rezones z (p.rezoned z c) (p.zoneWritten z c) := by
  obtain ⟨marks, rise, cause, messages, holds, eq⟩ := p.zoneWritten_eq z c
  have zone (y : Fin 64) : (p.zoneWritten z c).zone y = (p.putZone z (p.rezoned z c)).zone y := by rw [eq]; rfl
  constructor
  case outside => rw [eq]; exact ⟨rfl, rfl, rfl⟩
  case prc => exact (congrArg Part.prc eq).trans rfl
  case jnc => exact (congrArg Part.jnc eq).trans rfl
  case ctu => exact (congrArg Part.ctu eq).trans rfl
  case lines => exact (congrArg (fun q : Part => q.dou.lines) eq).trans rfl
  case inHand => exact (congrArg (fun q : Part => q.exi.inHand) eq).trans rfl
  case tables =>
    unfold Part.sameTables
    rw [eq]
    rfl
  case own => rw [zone, Part.zone_putZone_self]
  case others =>
    intro y other
    rw [zone, Part.zone_putZone, if_neg other.symm]

/-! ### The steps after the zone's own trigger -/

/-- The zone's own ZONE_IMAGE, unless its trigger is held. -/
def Part.zoneImaged (z : Fin 64) (held : Bool) (p : Part) : Part :=
  if held then p else p.offerDocket (.zone z (p.zone z).image)

/-- A held reading that differs is passed to the members of an oven whose condition stands (R51 step 5). -/
def Part.heldPassed (z : Fin 64) (c : ZoneConfig) (old r : Zone) (p : Part) : Part :=
  if c.kind = old.config.kind ∧ r.held ≠ old.held ∧ (p.zone z).condition = old.condition then
    match r.held with
    | some v => p.passReading z v.temp p.now
    | none => p
  else p

theorem Part.applyZone_eq (z : Fin 64) (c : ZoneConfig) (p : Part) : p.applyZone z c =
    let w := p.zoneWritten z c
    let e := if c.kind = .unused then w else w.trigger .configuration z w.now true none
    let q := (Part.heldPassed z c (p.zone z) (p.rezoned z c) (e.zoneImaged z (p.rezoned z c).busy))
    let f := q.triggerFollowers z q.now none
    (f.finishDocket { result := .ok, first := (f.zone z).members.length, second := 0, value := 0 }).awaitTriggers
      (if (p.rezoned z c).busy then [z] else []) := rfl

theorem Part.heldPassed_renews (z : Fin 64) (c : ZoneConfig) (old r : Zone) {p : Part} (open_ : p.jnc.closing = none) :
    p.Renews (p.heldPassed z c old r) := by
  unfold Part.heldPassed
  split
  · split
    · exact Part.passReading_renews z _ _ open_
    · exact .refl p
  · exact .refl p

/-- With no member, nothing is passed. -/
theorem Part.heldPassed_empty {z : Fin 64} {c : ZoneConfig} {old r : Zone} {p : Part} (empty : (p.zone z).members =
    []) :
    p.heldPassed z c old r = p := by
  unfold Part.heldPassed
  split
  · split
    · unfold Part.passReading
      rw [empty]
      exact ite_self _
    · rfl
  · rfl

theorem Part.staged_bare {p q : Part} (h : p.staged q) (y : Fin 64) : (q.zone y).bare = (p.zone y).bare := by
  show (q.zone y).unmarked.bare = _
  rw [h.2.2.1]
  rfl

theorem Part.staged_zoneImaged (z : Fin 64) (held : Bool) {p : Part} (open_ : p.jnc.closing = none) :
    p.staged (p.zoneImaged z held) := by
  unfold Part.zoneImaged
  split
  · exact p.staged_refl
  · exact Part.staged_offerDocket _ open_

theorem Part.triggerFollowers_none {z : Fin 64} {t : Nat} {reach : Reach} {p : Part} (alone : p.dryZonesOf z = []) :
    p.triggerFollowers z t reach = p := by
  rw [Part.triggerFollowers, alone, List.foldl_nil]

theorem Part.dryZonesOf_congr {p q : Part} (h : ∀ y, (q.zone y).config = (p.zone y).config) (z : Fin 64) :
    q.dryZonesOf z = p.dryZonesOf z := by
  simp only [Part.dryZonesOf, h]

/-- The end of a docket that names the zones whose triggers it waits for. -/
theorem Part.finishAwaits_eq {d : InHand} {a : Answer} {zs : List (Fin 64)} {p : Part} (inHand : p.exi.inHand =
    some d) :
    (p.finishDocket a).awaitTriggers zs = p.setInHand (some { d with stage := .finished a, triggers := zs }) := by
  simp only [Part.finishDocket, inHand, Part.awaitTriggers, Part.setInHand]

/-- What a SET_ZONE leaves, from the zone's own trigger on: `e` is the part with that trigger evaluated or held. -/
theorem Part.zoneEnds {z : Fin 64} {c : ZoneConfig} {d : InHand} {p e : Part}
    (triggered : e = if c.kind = .unused then p.zoneWritten z c
      else (p.zoneWritten z c).trigger .configuration z p.now true none)
    (accounted : (p.zoneWritten z c).accounted e) (inHand : p.exi.inHand = some d) (open_ : p.jnc.closing = none)
    (alone : (p.zoneWritten z c).dryZonesOf z = []) :
    ∃ q, p.applyZone z c = q.setInHand (some { d with
        stage := .finished { result := .ok, first := (p.rezoned z c).members.length, second := 0, value := 0 }
        triggers := if (p.rezoned z c).busy then [z] else [] }) ∧
      q = Part.heldPassed z c (p.zone z) (p.rezoned z c) (e.zoneImaged z (p.rezoned z c).busy) ∧ e.accounted q ∧
      ∀ y, (q.zone y).bare = (e.zone y).bare := by
  have writes := p.rezones_zoneWritten z c
  have openE : e.jnc.closing = none := accounted.closing (by rw [writes.jnc]; exact open_)
  have images := Part.staged_zoneImaged z (p.rezoned z c).busy openE
  have imaged := Part.accounted_of_staged images
  have passes := Part.heldPassed_renews z c (p.zone z) (p.rezoned z c) (imaged.closing openE)
  obtain ⟨q, hq⟩ : ∃ q, q = Part.heldPassed z c (p.zone z) (p.rezoned z c) (e.zoneImaged z (p.rezoned z c).busy) :=
      ⟨_, rfl⟩
  rw [← hq] at passes
  have all := Part.accounted_trans (Part.accounted_trans accounted imaged) passes.accounted
  have members : (q.zone z).members = (p.rezoned z c).members := by rw [all.members, writes.own]
  have alone' : q.dryZonesOf z = [] := by rw [Part.dryZonesOf_congr all.config]; exact alone
  refine ⟨q, ?_, hq, Part.accounted_trans imaged passes.accounted,
    fun y => (passes.bare y).trans (Part.staged_bare images y)⟩
  have now : (p.zoneWritten z c).now = p.now := congrArg Tbu.counter writes.outside.2.2
  rw [Part.applyZone_eq]
  dsimp only
  rw [now, ← triggered, ← hq, Part.triggerFollowers_none alone', members]
  refine Part.finishAwaits_eq ?_
  rw [all.inHand, writes.inHand, inHand]

/-! ### The record that is evaluated -/

theorem Part.rezoned_config {p : Part} {z : Fin 64} {c : ZoneConfig} (used : c.kind ≠ .unused) :
    (p.rezoned z c).config = c := by
  unfold Part.rezoned
  dsimp only
  rw [if_neg used]
  split <;> rfl

theorem Part.rezoned_members (p : Part) (z : Fin 64) (c : ZoneConfig) : (p.rezoned z c).members =
    (p.zone z).members := by
  unfold Part.rezoned
  dsimp only
  split
  · rfl
  · split <;> rfl

theorem Part.rezoned_idle {p : Part} {z : Fin 64} {c : ZoneConfig} (idle : (p.zone z).busy = false) :
    (p.rezoned z c).busy = false := by
  unfold Part.rezoned
  dsimp only
  split
  · rfl
  · split
    · rfl
    · exact idle

theorem Part.obtainHeld_eq (p : Part) (c : ZoneConfig) : p.obtainHeld c = match c.probe with
    | none => c.fixed
    | some n => if (p.probe n).state = .fresh ∨ (p.probe n).state = .doubtful then (p.probe n).held else none := by
  unfold Part.obtainHeld
  cases c.probe with
  | none => rfl
  | some n => cases state : (p.probe n).state <;> simp [state]

/-- R51, R57: the held reading that a SET_ZONE leaves. -/
theorem Part.rezoned_held {p : Part} {z : Fin 64} {c : ZoneConfig} (used : c.kind ≠ .unused) : (p.rezoned z c).held =
    if c.kind ≠ (p.zone z).config.kind ∨ c.probe ≠ (p.zone z).config.probe ∨ c.fixed ≠ (p.zone z).config.fixed
      then p.obtainHeld c else (p.zone z).held := by
  unfold Part.rezoned
  dsimp only
  rw [if_neg used]
  by_cases other : c.kind ≠ (p.zone z).config.kind
  · simp only [other, if_true, true_or, not_false_eq_true, ne_eq]
  · simp only [other, if_false, false_or, Bool.or_eq_true, bne_iff_ne, ne_eq]

/-- The zone's new configuration makes it no follower of its own. -/
theorem Part.zoneWritten_alone {p : Part} {z : Fin 64} {c : ZoneConfig} (alone : p.dryZonesOf z = [])
    (own : (p.rezoned z c).config.reference ≠ some z) : (p.zoneWritten z c).dryZonesOf z = [] := by
  have writes := p.rezones_zoneWritten z c
  unfold Part.dryZonesOf allFin at alone ⊢
  rw [List.filter_eq_nil_iff] at alone ⊢
  intro y listed follows
  by_cases same : y = z
  · subst same
    rw [writes.own, Bool.and_eq_true, beq_iff_eq, beq_iff_eq] at follows
    exact own follows.2
  · rw [writes.others y same] at follows
    exact alone y listed follows

theorem Part.zoneWritten_evaluated {p : Part} {z : Fin 64} {c : ZoneConfig} (used : c.kind ≠ .unused)
    (own : c.reference ≠ some z) : ((p.zoneWritten z c).evaluated (p.rezoned z c)).2 =
      (p.evaluated (p.rezoned z c)).2 := by
  have writes := p.rezones_zoneWritten z c
  refine (Part.evaluated_congr writes.tables rfl fun f _ reference => ?_).1
  rw [Part.rezoned_config used] at reference
  have other : f ≠ z := fun same => own (same ▸ reference)
  simp only [Part.referenceRate, writes.others f other]

end Sys2Proof.Machine

/-! ## SET_ZONE -/

namespace Sys2Proof.Machine

theorem Part.rezoned_sameKind {p : Part} {z : Fin 64} {c : ZoneConfig} (used : c.kind ≠ .unused)
    (same : c.kind = (p.zone z).config.kind) : p.rezoned z c = { p.zone z with
      config := c, basis := false, held := (p.rezoned z c).held, stale := (p.rezoned z c).stale } := by
  have eq : p.rezoned z c = { p.zone z with
      config := c, basis := false
      held := if c.probe != (p.zone z).config.probe || c.fixed != (p.zone z).config.fixed then p.obtainHeld c
        else (p.zone z).held
      stale := if c.probe != (p.zone z).config.probe then p.probeStale c else (p.zone z).stale } := by
    unfold Part.rezoned
    dsimp only
    rw [if_neg used, if_neg (fun other => other same)]
  rw [eq]

/-- R67: a zone that is busy holds the trigger of its SET_ZONE. -/
theorem Part.applyZone_waits {z : Fin 64} {c : ZoneConfig} {d : InHand} {p : Part} (busy : (p.zone z).busy = true)
    (used : c.kind ≠ .unused) (same : c.kind = (p.zone z).config.kind) (own : c.reference ≠ some z)
    (alone : p.dryZonesOf z = []) (inHand : p.exi.inHand = some d) (open_ : p.jnc.closing = none) :
    ∃ q, p.applyZone z c = q ∧ p.sameOutside q ∧ (q.zone z).config = c ∧
      (q.zone z).condition = (p.zone z).condition ∧ (q.zone z).waitConfig = some { time := p.now, own := true } ∧
      (∀ y, y ≠ z → (q.zone y).config = (p.zone y).config) ∧ q.prc = p.prc ∧ q.dou.lines = p.dou.lines ∧
      ((p.zone z).members = [] → q.jnc.queue = p.jnc.queue) ∧
      q.finishes { d with triggers := [z] }
        { result := .ok, first := (p.zone z).members.length, second := 0, value := 0 } := by
  have writes := p.rezones_zoneWritten z c
  have record := Part.rezoned_sameKind used same
  have busy' : (p.rezoned z c).busy = true := by
    rw [record]
    exact busy
  obtain ⟨e, he⟩ : ∃ e, e = (p.zoneWritten z c).putZone z ((p.rezoned z c).wait .configuration p.now true) := ⟨_, rfl⟩
  have triggers : (p.zoneWritten z c).trigger .configuration z p.now true none = e := by
    unfold Part.trigger
    rw [writes.own, if_pos busy', he]
  have zoneE : e.zone z = (p.rezoned z c).wait .configuration p.now true := by rw [he, Part.zone_putZone_self]
  have accounted : (p.zoneWritten z c).accounted e := by
    have waits := (Part.reevaluates_wait .configuration z p.now true (p.zoneWritten z c)).accounted
    rw [writes.own, ← he] at waits
    exact waits
  obtain ⟨q, ends, passed, stands, bare⟩ := Part.zoneEnds (z := z) (c := c) (d := d) (p := p) (e := e)
    (by rw [if_neg used, triggers]) accounted inHand open_
    (Part.zoneWritten_alone alone (by rw [Part.rezoned_config used]; exact own))
  have own (y : Fin 64) : (q.zone z).bare = ((p.rezoned z c).wait .configuration p.now true).bare := by rw [bare, zoneE]
  have all := Part.accounted_trans accounted stands
  have waitConfig : (q.zone z).bare.waitConfig = some { time := p.now, own := true } := by rw [own z]; rfl
  have condition : (q.zone z).bare.condition = (p.zone z).condition := by
    rw [own z, record]
    rfl
  rw [Part.rezoned_members] at ends
  rw [if_pos busy'] at ends
  refine ⟨_, ends, writes.outside.trans all.sameOutside, ?_, condition, waitConfig, fun y other => ?_,
    all.prc.trans writes.prc, all.lines.trans writes.lines, fun empty => ?_, rfl⟩
  · exact (all.config z).trans (by rw [writes.own, Part.rezoned_config used])
  · exact (all.config y).trans (by rw [writes.others y other])
  · have imaged : e.zoneImaged z (p.rezoned z c).busy = e := if_pos busy'
    have members : (e.zone z).members = [] := by
      rw [accounted.members, writes.own, Part.rezoned_members]
      exact empty
    rw [imaged, Part.heldPassed_empty members] at passed
    show q.jnc.queue = _
    rw [passed, he]
    exact congrArg Jnc.queue writes.jnc

/-- The evaluation of an empty zone that its own SET_ZONE brings journals nothing. -/
theorem Part.evaluateOne_empty {z : Fin 64} {t : Nat} {reach : Reach} {p : Part} (empty : (p.zone z).members = []) :
    (p.evaluateOne z t true reach).1.jnc = p.jnc := by
  have set (r : Zone) : (p.setZone z r).jnc = p.jnc := by
    obtain ⟨marks, eq⟩ := p.setZone_spec z r
    rw [eq]
    rfl
  by_cases same : (p.evaluated (p.zone z)).2 = (p.zone z).condition
  · rw [Part.evaluateOne_same same]
    exact set _
  · have written : p.conditionWritten z t true = p.setZone z (p.changedRecord (p.zone z) t) := rfl
    have idle : ((p.conditionWritten z t true).zone z).change = none := by
      rw [written, Part.zone_setZone, if_pos rfl]
      show (if (p.zone z).members.isEmpty = true then none else _) = _
      rw [empty]
      rfl
    rw [Part.evaluateOne_changes same, Part.carryChange_idle idle, written]
    exact set _

/-- R51: the evaluation that a SET_ZONE gives its zone. -/
theorem Part.applyZone_evaluates {z : Fin 64} {c : ZoneConfig} {d : InHand} {p : Part} (idle : (p.zone z).busy = false)
    (used : c.kind ≠ .unused) (own : c.reference ≠ some z) (alone : p.dryZonesOf z = [])
      (inHand : p.exi.inHand = some d)
    (open_ : p.jnc.closing = none) : ∃ q, p.applyZone z c = q ∧ p.sameOutside q ∧ (q.zone z).config = c ∧
      (q.zone z).held = (p.rezoned z c).held ∧ (q.zone z).condition = (p.evaluated (p.rezoned z c)).2 ∧
      (q.zone z).conditionTime = (if (p.evaluated (p.rezoned z c)).2 = (p.rezoned z c).condition
        then (p.rezoned z c).conditionTime else max p.now (p.rezoned z c).conditionTime) ∧
      (∀ y, y ≠ z → (q.zone y).config = (p.zone y).config) ∧ q.prc = p.prc ∧ q.dou.lines = p.dou.lines ∧
      (p.journalTakes → (p.zone z).members = [] →
        q.jnc.queue = p.jnc.queue ++ p.stagedNow [.zoneImage z (q.zone z).image]) ∧
      q.finishes { d with triggers := [] }
        { result := .ok, first := (p.zone z).members.length, second := 0, value := 0 } := by
  have writes := p.rezones_zoneWritten z c
  have idle' := Part.rezoned_idle (c := c) idle
  have openW : (p.zoneWritten z c).jnc.closing = none := by rw [writes.jnc]; exact open_
  have alone' := Part.zoneWritten_alone alone (by rw [Part.rezoned_config used]; exact own)
  obtain ⟨e, he⟩ : ∃ e, e = ((p.zoneWritten z c).evaluateOne z p.now true none).1 := ⟨_, rfl⟩
  have triggers : (p.zoneWritten z c).trigger .configuration z p.now true none = e := by
    unfold Part.trigger
    rw [writes.own, if_neg (by rw [idle']; nofun), he, Part.evaluateZone_alone alone' openW]
  have evaluates := Part.evaluates_evaluateOne z p.now true none openW
  rw [← he] at evaluates
  have accounted := evaluates.accounted
  have decides := Part.zoneWritten_evaluated (p := p) used own
  obtain ⟨q, ends, passed, stands, bare⟩ := Part.zoneEnds (z := z) (c := c) (d := d) (p := p) (e := e)
    (by rw [if_neg used, triggers]) accounted inHand open_ alone'
  have ownQ : (q.zone z).bare = ((p.zoneWritten z c).renewed (p.rezoned z c) p.now).bare := by
    rw [bare, evaluates.own, writes.own]
  have held : (q.zone z).bare.held = (p.rezoned z c).held := by
    rw [ownQ]
    show ((p.zoneWritten z c).evaluated (p.rezoned z c)).1.held = _
    rw [Part.evaluated_frame]
  have condition : (q.zone z).bare.condition = (p.evaluated (p.rezoned z c)).2 := by
    rw [ownQ, ← decides]
    rfl
  have time : (q.zone z).bare.conditionTime = if (p.evaluated (p.rezoned z c)).2 = (p.rezoned z c).condition
      then (p.rezoned z c).conditionTime else max p.now (p.rezoned z c).conditionTime := by
    rw [ownQ, ← decides]
    rfl
  have all := Part.accounted_trans accounted stands
  rw [Part.rezoned_members] at ends
  rw [if_neg (by rw [idle']; nofun)] at ends
  refine ⟨_, ends, writes.outside.trans all.sameOutside, ?_, held, condition, time, fun y other => ?_,
    all.prc.trans writes.prc, all.lines.trans writes.lines, fun takes empty => ?_, rfl⟩
  · exact (all.config z).trans (by rw [writes.own, Part.rezoned_config used])
  · exact (all.config y).trans (by rw [writes.others y other])
  · have emptyE : (e.zone z).members = [] := by
      rw [accounted.members, writes.own, Part.rezoned_members]
      exact empty
    have jncE : e.jnc = p.jnc := by
      rw [he, Part.evaluateOne_empty (by rw [writes.own, Part.rezoned_members]; exact empty), writes.jnc]
    have nowE : e.now = p.now := congrArg Tbu.counter (writes.outside.trans accounted.sameOutside).2.2
    obtain ⟨j, offered, queue, -⟩ := Part.offerDocket_room (o := .zone z (e.zone z).image) (n := 5) (p := e)
      ((Part.hasRoom_congr jncE).2 takes) (by simp [Part.offerPayloads])
    have imaged : e.zoneImaged z (p.rezoned z c).busy = { e with jnc := j } := by
      rw [← offered]
      exact if_neg (by rw [idle']; nofun)
    rw [imaged, Part.heldPassed_empty (p := { e with jnc := j }) emptyE] at passed
    subst passed
    show j.queue = _
    rw [queue, jncE]
    unfold Part.stagedNow
    rw [nowE]
    rfl

/-! ### A zone made UNUSED -/

theorem Part.putZone_self (z : Fin 64) (p : Part) : p.putZone z (p.zone z) = p := by
  simp [Part.putZone, Part.zone]

/-- The ZONE_IMAGE of a zone that bears no journal-dirty mark changes the journal's own record alone. -/
theorem Part.offerDocket_cleanZone {z : Fin 64} {i : ZoneImage} {p : Part} (clean : (p.zone z).dirty = false)
    (open_ : p.jnc.closing = none) : ∃ j, p.offerDocket (.zone z i) = { p with jnc := j } := by
  have marks : p.clearMark (.zoneImage z i) = p := by
    unfold Part.clearMark
    split
    · show p.putZone z { p.zone z with dirty := false } = p
      rw [← clean]
      exact p.putZone_self z
    · rfl
  have queued : ∃ j, p.enqueue .docket [.zoneImage z i] = { p with jnc := j } ∧ j.closing = none := by
    refine ⟨{ p.jnc with queue := p.jnc.queue ++ [{ payload := .zoneImage z i, time := p.now, owner := .docket }] },
      ?_, open_⟩
    simp only [Part.enqueue, List.foldl_cons, List.foldl_nil, marks]
    rfl
  unfold Part.offerDocket
  split
  · exact ⟨p.jnc, rfl⟩
  · dsimp only
    split
    · obtain ⟨j, queued, closing⟩ := queued
      obtain ⟨j', pumped, -⟩ := Part.pump_open (p := { p with jnc := j }) closing
      refine ⟨j', ?_⟩
      show (p.enqueue .docket [.zoneImage z i]).pump = _
      rw [queued, pumped]
    · exact ⟨_, rfl⟩

/-- R51: an empty zone made UNUSED, with no line output. -/
theorem Part.applyZone_unused {z : Fin 64} {c : ZoneConfig} {d : InHand} {p : Part} (unused : c.kind = .unused)
    (unbound : c.lineOutput = none) (empty : (p.zone z).members = []) (output : (p.zone z).config.lineOutput = none)
    (alone : p.dryZonesOf z = []) (inHand : p.exi.inHand = some d) (open_ : p.jnc.closing = none) :
    ∃ q, p.applyZone z c = q ∧
      q.zone z = { Zone.unused with blocking := (p.zone z).blocking, warnedCount := (p.zone z).warnedCount } ∧
      (∀ y, y ≠ z → q.zone y = p.zone y) ∧ p.sameOutside q ∧ q.prc = p.prc ∧ q.dou = p.dou ∧ q.ctu = p.ctu ∧
      q.finishes { d with triggers := [] } { result := .ok, first := 0, second := 0, value := 0 } := by
  have writes := p.rezones_zoneWritten z c
  have record : p.rezoned z c =
      { Zone.unused with blocking := (p.zone z).blocking, warnedCount := (p.zone z).warnedCount } := by
    unfold Part.rezoned
    dsimp only
    rw [if_pos unused, empty]
    rfl
  have dou : (p.zoneWritten z c).dou = p.dou := by
    obtain ⟨marks, set⟩ := p.setZone_spec z (p.rezoned z c)
    unfold Part.zoneWritten
    rw [unbound, output, record]
    show (Part.setZone z _ p).dou = _
    rw [← record, set]
    rfl
  obtain ⟨q, ends, passed, -, -⟩ := Part.zoneEnds (z := z) (c := c) (d := d) (p := p) (e := p.zoneWritten z c)
    (by rw [if_pos unused]) (Part.accounted_refl _) inHand open_ (Part.zoneWritten_alone alone (by rw [record]; nofun))
  obtain ⟨j, offered⟩ := Part.offerDocket_cleanZone (z := z) (i := ((p.zoneWritten z c).zone z).image)
    (p := p.zoneWritten z c) (by rw [writes.own, record]; rfl) (by rw [writes.jnc]; exact open_)
  have imaged : (p.zoneWritten z c).zoneImaged z (p.rezoned z c).busy = { p.zoneWritten z c with jnc := j } := by
    rw [← offered]
    exact if_neg (by rw [record]; nofun)
  have emptyW : ((p.zoneWritten z c).zone z).members = [] := by rw [writes.own, record]; rfl
  rw [imaged, Part.heldPassed_empty (p := { p.zoneWritten z c with jnc := j }) emptyW] at passed
  rw [record] at ends
  subst passed
  refine ⟨_, ends, writes.own.trans record, fun y other => writes.others y other, writes.outside, writes.prc, dou,
    writes.ctu, rfl⟩

theorem Part.setZoneDocket_ok {a : ZoneArgs} {z : Fin 64} {c : ZoneConfig} {p : Part} (passes : p.checkZone a =
    .ok (z, c)) :
    p.setZoneDocket a = p.applyZone z c := by
  simp only [Part.setZoneDocket, passes]

theorem Part.setZoneDocket_refused {a : ZoneArgs} {d : InHand} {r : ResultCode} {p : Part} (inHand : p.exi.inHand =
    some d)
    (fails : p.checkZone a = .error r) : p.setZoneDocket a = p.refusedWith d r := by
  rw [Part.setZoneDocket, fails]
  exact Part.refuseDocket_spec inHand r

/-- An UNUSED zone that no DRY zone follows, and that has no member, passes every check. -/
theorem Part.checkZone_unused {a : ZoneArgs} {z : Fin 64} {p : Part} (number : z.val = a.zone) (code : a.kind = 0)
    (empty : (p.zone z).members = []) (alone : p.dryZonesOf z = []) :
    ∃ c, p.checkZone a = .ok (z, c) ∧ c.kind = .unused ∧ c.lineOutput = none := by
  have named : finOf? 64 a.zone = some z := finOf?_eq_some.2 number
  have config : zoneConfig .unused a = some { ZoneConfig.unused with kind := .unused } := by
    simp only [zoneConfig]
    rfl
  refine ⟨{ ZoneConfig.unused with kind := .unused }, ?_, rfl, rfl⟩
  simp only [Part.checkZone, named, code, decodeKind, config, check, empty, alone]
  exact (if_pos rfl).trans ((if_pos (Bool.or_true _)).trans ((if_pos rfl).trans (if_pos rfl)))

/-- Settles O40: the checks in order; then the zone's record is written, and its own trigger evaluated or held. -/
theorem setZoneConfiguresTheZone : Obligations.SetZoneConfiguresTheZone := by
  intro s d a z on hands p refused probe fixed number open_
  have inHand := hands.1
  have runs (q : Part) (h : p.setZoneDocket a = q) : exec .setZone s = .next (s.withPart q) :=
    (exec_setZone on hands).trans (by rw [show s.part = p from rfl, h])
  have refuses (x : ResultCode) (h : p.checkZone a = .error x) : refused x :=
      runs _ (Part.setZoneDocket_refused inHand h)
  refine ⟨fun kind code used => ?_, fun c busy alone passes used same => ?_, fun idle alone => ⟨fun out => ?_,
    fun c passes used => ?_, fun code empty output => ?_⟩⟩
  · intro badArg badReference inUse taken
    obtain ⟨out, reference, busy, another, good⟩ := Part.checkZone_used (p := p) number code used
    exact ⟨fun h => refuses _ (out h), fun h1 h2 => refuses _ (reference h1 h2),
      fun h1 h2 h3 => refuses _ (busy h1 h2 h3), fun h1 h2 h3 h4 => refuses _ (another h1 h2 h3 h4), good⟩
  · obtain ⟨kind, code, -, -, own⟩ := Part.checkZone_reference number passes used
    obtain ⟨q, applied, fields⟩ := Part.applyZone_waits busy used same own alone inHand open_
    exact ⟨q, runs q ((Part.setZoneDocket_ok passes).trans applied), fields⟩
  · have named : finOf? 64 a.zone = some z := finOf?_eq_some.2 number
    have code : decodeKind a.kind = none := by
      unfold decodeKind
      split
      any_goals omega
      rfl
    exact refuses _ (by simp only [Part.checkZone, named, code])
  · obtain ⟨kind, code, -, -, own⟩ := Part.checkZone_reference number passes used
    obtain ⟨q, applied, outside, config, held, fields⟩ := Part.applyZone_evaluates idle used own alone inHand open_
    have obtained := held.trans (Part.rezoned_held used)
    rw [Part.obtainHeld_eq] at obtained
    exact ⟨q, runs q ((Part.setZoneDocket_ok passes).trans applied), outside, config, obtained, fields⟩
  · obtain ⟨c, passes, unused, unbound⟩ := Part.checkZone_unused (p := p) number code empty alone
    obtain ⟨q, applied, fields⟩ := Part.applyZone_unused unused unbound empty output alone inHand open_
    exact ⟨q, runs q ((Part.setZoneDocket_ok passes).trans applied), fields⟩

end Sys2Proof.Machine

/-! ## A trigger of every zone -/

namespace Sys2Proof.Machine

/-! ### One zone's trigger -/

/-- Triggers at `t`: the zones' inputs stand, a busy zone stays busy under its condition, and an idle one stays idle. -/
structure Part.Retriggers (p q : Part) : Prop where
  reevaluates : p.Reevaluates q
  busy : ∀ y, (q.zone y).busy = (p.zone y).busy
  condition : ∀ y, (p.zone y).busy = true → (q.zone y).condition = (p.zone y).condition
  waits : ∀ y, (p.zone y).waitConfig ≠ none → (q.zone y).waitConfig ≠ none

theorem Part.Retriggers.refl (p : Part) : p.Retriggers p := ⟨.refl p, fun _ => rfl, fun _ _ => rfl, fun _ => id⟩

theorem Part.Retriggers.trans {p q r : Part} (h : p.Retriggers q) (k : q.Retriggers r) : p.Retriggers r :=
  ⟨h.reevaluates.trans k.reevaluates, fun y => (k.busy y).trans (h.busy y),
    fun y busy => (k.condition y ((h.busy y).trans busy)).trans (h.condition y busy),
      fun y w => k.waits y (h.waits y w)⟩

theorem Part.Retriggers.config {p q : Part} (h : p.Retriggers q) (y : Fin 64) : (q.zone y).config = (p.zone y).config :=
  h.reevaluates.accounted.config y

theorem Part.Retriggers.closing {p q : Part} (h : p.Retriggers q) (open_ : p.jnc.closing = none) : q.jnc.closing =
    none :=
  h.reevaluates.closing open_

theorem Zone.busy_bare (r : Zone) : r.busy = (r.change.isSome || r.bare.waitReading.isSome || r.bare.waitDoor.isSome ||
    r.bare.waitConfig.isSome) := rfl

theorem Zone.idle_iff (r : Zone) : r.busy = false ↔
    r.change = none ∧ r.waitReading = none ∧ r.waitDoor = none ∧ r.waitConfig = none := by
  simp [Zone.busy, and_assoc]

/-- The evaluation of a DRY zone reads its inputs and its reference's rate alone. -/
theorem Part.evaluated_dry {p q : Part} {r s : Zone} (dry : r.config.kind = .dry) (config : s.config = r.config)
    (inputs : s.inputs = r.inputs) (tables : p.sameTables q)
    (rate : ∀ f, r.config.reference = some f → q.referenceRate f = p.referenceRate f) :
    (q.evaluated s).2 = (p.evaluated r).2 := by
  simp only [Zone.inputs, Prod.mk.injEq] at inputs
  obtain ⟨held, stale, door, -⟩ := inputs
  have ceiling : q.znu.settings.ceiling = p.znu.settings.ceiling := by rw [tables]
  unfold Part.evaluated
  simp only [config, dry, held, stale, door, ceiling]
  split
  all_goals
    split
    · rfl
    · cases reference : r.config.reference with
      | none => rfl
      | some f =>
        dsimp only
        rw [rate f reference]

/-- What one trigger of a zone, its own evaluation alone, leaves. -/
structure Part.TriggersOne (z : Fin 64) (t : Nat) (p q : Part) : Prop where
  retriggers : p.Retriggers q
  others : ∀ y, y ≠ z → (q.zone y).bare = (p.zone y).bare
  waits : (p.zone z).busy = true → ∃ own, (q.zone z).waitConfig = some { time := t, own := own }
  evaluates : (p.zone z).busy = false → (q.zone z).bare = (p.renewed (p.zone z) t).bare

theorem Part.triggersOne_configuration (z : Fin 64) (t : Nat) {p : Part} (open_ : p.jnc.closing = none) :
    p.TriggersOne z t (p.triggerOne .configuration z t false none).1 := by
  have reevaluates := Part.reevaluates_triggerOne .configuration z t false none open_
  cases busy : (p.zone z).busy with
  | true =>
    have waits : p.triggerOne .configuration z t false none =
        (p.putZone z ((p.zone z).wait .configuration t false), false) := if_pos busy
    rw [waits] at reevaluates ⊢
    have zone (y : Fin 64) := Part.zone_putZone z y ((p.zone z).wait .configuration t false) p
    refine ⟨⟨reevaluates, fun y => ?_, fun y _ => ?_, fun y was => ?_⟩, fun y other => ?_, fun _ => ?_,
      fun idle => nomatch busy.symm.trans idle⟩
    all_goals rw [zone]
    · split
      · next same =>
        rw [← same, busy, Zone.busy, Zone.wait]
        simp
      · rfl
    · split
      · next same => rw [← same]; rfl
      · rfl
    · split
      · nofun
      · exact was
    · rw [if_neg other.symm]
    · rw [if_pos rfl]
      exact ⟨_, rfl⟩
  | false =>
    have evaluates : p.triggerOne .configuration z t false none = p.evaluateOne z t false none :=
      if_neg (by rw [busy]; nofun)
    rw [evaluates] at reevaluates ⊢
    have one := Part.evaluates_evaluateOne z t false none open_
    obtain ⟨change, reading, door, config⟩ := (Zone.idle_iff _).1 busy
    have dropped : ((p.evaluateOne z t false none).1.zone z).change = none := by
      by_cases same : (p.evaluated (p.zone z)).2 = (p.zone z).condition
      · rw [Part.evaluateOne_same same, Part.zone_setZone, if_pos rfl, Part.evaluated_frame]
        exact change
      · exact (Part.evaluateOne_whole same open_).1
    have idle : ((p.evaluateOne z t false none).1.zone z).busy = false := by
      rw [Zone.busy_bare, dropped, one.own]
      show (none.isSome || (p.evaluated (p.zone z)).1.waitReading.isSome ||
        (p.evaluated (p.zone z)).1.waitDoor.isSome || (p.evaluated (p.zone z)).1.waitConfig.isSome) = false
      rw [Part.evaluated_frame]
      dsimp only
      rw [reading, door, config]
      rfl
    refine ⟨⟨reevaluates, fun y => ?_, fun y was => ?_, fun y was => ?_⟩, fun y other => (one.others y other).1,
      fun was => (nomatch busy.symm.trans was), fun _ => one.own⟩
    · by_cases other : y = z
      · rw [other, idle, busy]
      · rw [Zone.busy_bare, Zone.busy_bare, (one.others y other).1, (one.others y other).2]
    · have other : y ≠ z := by
        rintro rfl
        exact nomatch busy.symm.trans was
      show ((p.evaluateOne z t false none).1.zone y).bare.condition = _
      rw [(one.others y other).1]
      rfl
    · have other : y ≠ z := fun same => was (same ▸ config)
      show ((p.evaluateOne z t false none).1.zone y).bare.waitConfig ≠ none
      rw [(one.others y other).1]
      exact was

theorem Part.condition_of_bare {p q : Part} {y : Fin 64} (h : (q.zone y).bare = (p.zone y).bare) :
    (q.zone y).condition = (p.zone y).condition := by
  show (q.zone y).bare.condition = _
  rw [h]
  rfl

theorem Part.referenceRate_of_bare {p q : Part} {y : Fin 64} (h : (q.zone y).bare = (p.zone y).bare) :
    q.referenceRate y = p.referenceRate y := by
  unfold Part.referenceRate
  rw [Part.condition_of_bare h]

/-! ### The zones that follow one whose rate changes -/

theorem Part.triggersOne_list (ys : List (Fin 64)) (t : Nat) {p : Part} (open_ : p.jnc.closing = none)
    (dry : ∀ y ∈ ys, (p.zone y).config.kind = .dry) :
    let q := ys.foldl (fun p y => (p.triggerOne .configuration y t false none).1) p
    p.Retriggers q ∧ (∀ y, y ∉ ys → (q.zone y).bare = (p.zone y).bare) ∧
      (∀ y ∈ ys, (p.zone y).busy = true → (q.zone y).waitConfig ≠ none) ∧
      ∀ y ∈ ys, (p.zone y).busy = false →
        (∀ f, (p.zone y).config.reference = some f → (p.zone f).config.kind ≠ .dry) →
        (q.zone y).condition = (q.evaluated (p.zone y)).2 := by
  induction ys generalizing p with
  | nil => exact ⟨.refl p, fun _ _ => rfl, nofun, nofun⟩
  | cons x xs ih =>
    have one := Part.triggersOne_configuration x t open_
    obtain ⟨u, hu⟩ : ∃ u, u = (p.triggerOne .configuration x t false none).1 := ⟨_, rfl⟩
    rw [List.foldl_cons, ← hu]
    rw [← hu] at one
    have retriggers := one.retriggers
    obtain ⟨rest, still, wait, evaluated⟩ := ih (p := u) (retriggers.closing open_)
      fun y listed => by rw [retriggers.config]; exact dry y (List.mem_cons_of_mem _ listed)
    obtain ⟨q, hq⟩ : ∃ q, q = xs.foldl (fun p y => (p.triggerOne .configuration y t false none).1) u := ⟨_, rfl⟩
    rw [← hq] at rest still wait evaluated ⊢
    have tables : p.sameTables q :=
      retriggers.reevaluates.accounted.sameTables.trans rest.reevaluates.accounted.sameTables
    refine ⟨retriggers.trans rest, fun y out => ?_, fun y listed busy => ?_, fun y listed idle walks => ?_⟩
    · rw [List.mem_cons, not_or] at out
      exact (still y out.2).trans (one.others y out.1)
    · obtain rfl | inside := List.mem_cons.1 listed
      · obtain ⟨own, waits⟩ := one.waits busy
        exact rest.waits y (by rw [waits]; nofun)
      · exact wait y inside ((retriggers.busy y).trans busy)
    · have reads : (q.evaluated (u.zone y)).2 = (q.evaluated (p.zone y)).2 :=
        Part.evaluated_dry (dry y listed) (retriggers.config y) (retriggers.reevaluates.inputs y) rfl fun _ _ => rfl
      by_cases inside : y ∈ xs
      · rw [← reads]
        refine evaluated y inside ((retriggers.busy y).trans idle) fun f reference => ?_
        rw [retriggers.config] at reference ⊢
        exact walks f reference
      · obtain rfl := (List.mem_cons.1 listed).resolve_right inside
        have condition : (q.zone y).condition = (p.evaluated (p.zone y)).2 := by
          rw [Part.condition_of_bare (still y inside)]
          show (u.zone y).bare.condition = _
          rw [one.evaluates idle]
          rfl
        rw [condition]
        refine (Part.evaluated_dry (dry y listed) rfl rfl tables fun f reference => ?_).symm
        have out : f ∉ y :: xs := fun inside => walks f reference (dry f inside)
        rw [List.mem_cons, not_or] at out
        exact Part.referenceRate_of_bare ((still f out.2).trans (one.others f out.1))

/-! ### A configuration trigger of one zone, with its followers -/

theorem Part.trigger_eq (z : Fin 64) (t : Nat) (p : Part) : p.trigger .configuration z t false none =
    let one := p.triggerOne .configuration z t false none
    if one.2 then one.1.triggerFollowers z (one.1.zone z).conditionTime none else one.1 := by
  unfold Part.trigger Part.triggerOne
  split
  · rfl
  · rfl

/-- The flag of a trigger says that the rate of a zone that walks has changed. -/
theorem Part.triggerOne_flag {z : Fin 64} {t : Nat} {p : Part} (open_ : p.jnc.closing = none)
    (walks : (p.zone z).config.kind.walks = true) : (p.triggerOne .configuration z t false none).2 = false →
      (p.triggerOne .configuration z t false none).1.referenceRate z = p.referenceRate z := by
  have one := Part.triggersOne_configuration z t open_
  intro flag
  unfold Part.referenceRate
  cases busy : (p.zone z).busy with
  | true => rw [one.retriggers.condition z busy]
  | false =>
    have evaluates : p.triggerOne .configuration z t false none = p.evaluateOne z t false none :=
      if_neg (by rw [busy]; nofun)
    have condition : ((p.triggerOne .configuration z t false none).1.zone z).condition = (p.evaluated (p.zone z)).2 :=
        by
      show ((p.triggerOne .configuration z t false none).1.zone z).bare.condition = _
      rw [one.evaluates busy]
      rfl
    rw [condition]
    by_cases same : (p.evaluated (p.zone z)).2 = (p.zone z).condition
    · rw [same]
    · rw [evaluates, Part.evaluateOne_changes same] at flag
      dsimp only at flag
      rw [walks, Bool.true_and, bne_eq_false_iff_eq] at flag
      exact flag

theorem Part.triggerOne_walks {z : Fin 64} {t : Nat} {p : Part} (flag :
    (p.triggerOne .configuration z t false none).2 = true) :
    (p.zone z).config.kind.walks = true := by
  unfold Part.triggerOne at flag
  split at flag
  · cases flag
  · by_cases same : (p.evaluated (p.zone z)).2 = (p.zone z).condition
    · rw [Part.evaluateOne_same same] at flag
      cases flag
    · rw [Part.evaluateOne_changes same] at flag
      dsimp only at flag
      rw [Bool.and_eq_true] at flag
      exact flag.1

theorem Part.mem_dryZonesOf {p : Part} {y z : Fin 64} :
    y ∈ p.dryZonesOf z ↔ (p.zone y).config.kind = .dry ∧ (p.zone y).config.reference = some z := by
  simp [Part.dryZonesOf, allFin]

theorem ZoneKind.not_dry_of_walks {k : ZoneKind} (h : k.walks = true) : k ≠ .dry := by
  rintro rfl
  cases h

/-- The reference of a DRY zone walks (R50). -/
def Part.referenceWalks (p : Part) (y : Fin 64) : Prop :=
  ∀ f, (p.zone y).config.reference = some f → (p.zone f).config.kind.walks = true

/-- What a configuration trigger of zone `z` leaves, its followers' with it. -/
structure Part.TriggersZone (z : Fin 64) (t : Nat) (p q : Part) : Prop where
  retriggers : p.Retriggers q
  others : ∀ y, y ≠ z → (p.zone y).config.kind ≠ .dry → (q.zone y).bare = (p.zone y).bare
  waits : (p.zone z).busy = true → (q.zone z).waitConfig ≠ none
  waitsNow : (p.zone z).busy = true → (p.zone z).config.kind ≠ .dry →
    ∃ own, (q.zone z).waitConfig = some { time := t, own := own }
  evaluates : (p.zone z).busy = false → (p.zone z).config.kind ≠ .dry → (q.zone z).bare = (p.renewed (p.zone z) t).bare
  dry : (p.zone z).busy = false → (p.zone z).config.kind = .dry → p.referenceWalks z →
    (q.zone z).condition = (q.evaluated (p.zone z)).2
  follow : ∀ y, y ≠ z → (p.zone y).busy = false → (p.zone y).config.kind = .dry → p.referenceWalks y →
    (p.zone y).condition = (p.evaluated (p.zone y)).2 → (q.zone y).condition = (q.evaluated (p.zone y)).2

theorem Part.triggersZone_one {z : Fin 64} {t : Nat} {p q : Part} (one : p.TriggersOne z t q)
    (rate : (p.zone z).config.kind.walks = true → q.referenceRate z = p.referenceRate z) : p.TriggersZone z t q := by
  have tables := one.retriggers.reevaluates.accounted.sameTables
  refine ⟨one.retriggers, fun y other _ => one.others y other, fun busy => ?_, fun busy _ => one.waits busy,
    fun idle _ => one.evaluates idle, fun idle dry walks => ?_, fun y other idle dry walks was => ?_⟩
  · obtain ⟨own, waits⟩ := one.waits busy
    rw [waits]
    nofun
  · have condition : (q.zone z).bare.condition = (p.evaluated (p.zone z)).2 := by
      rw [one.evaluates idle]
      rfl
    refine Eq.trans condition (Part.evaluated_dry dry rfl rfl tables fun f reference => ?_).symm
    have other : f ≠ z := fun same => ZoneKind.not_dry_of_walks (walks f reference) (same ▸ dry)
    exact Part.referenceRate_of_bare (one.others f other)
  · rw [Part.condition_of_bare (one.others y other), was]
    refine (Part.evaluated_dry dry rfl rfl tables fun f reference => ?_).symm
    by_cases same : f = z
    · subst same
      exact rate (walks f reference)
    · exact Part.referenceRate_of_bare (one.others f same)

theorem Part.triggersZone_trigger (z : Fin 64) (t : Nat) {p : Part} (open_ : p.jnc.closing = none) :
    p.TriggersZone z t (p.trigger .configuration z t false none) := by
  have one := Part.triggersOne_configuration z t open_
  rw [Part.trigger_eq]
  dsimp only
  obtain ⟨u, hu⟩ : ∃ u, u = (p.triggerOne .configuration z t false none).1 := ⟨_, rfl⟩
  rw [← hu] at one ⊢
  cases flag : (p.triggerOne .configuration z t false none).2 with
  | false =>
    refine Part.triggersZone_one one fun walks => ?_
    rw [hu]
    exact Part.triggerOne_flag open_ walks flag
  | true =>
    have walks := Part.triggerOne_walks flag
    have notDry := ZoneKind.not_dry_of_walks walks
    rw [if_pos rfl, Part.triggerFollowers]
    have members (y : Fin 64) : y ∈ u.dryZonesOf z ↔
        (p.zone y).config.kind = .dry ∧ (p.zone y).config.reference = some z := by
      rw [Part.mem_dryZonesOf, one.retriggers.config]
    obtain ⟨rest, still, -, evaluated⟩ := Part.triggersOne_list (u.dryZonesOf z) (u.zone z).conditionTime (p := u)
      (one.retriggers.closing open_) fun y listed => (Part.mem_dryZonesOf.1 listed).1
    obtain ⟨q, hq⟩ : ∃ q, q = (u.dryZonesOf z).foldl
      (fun p y => (p.triggerOne .configuration y (u.zone z).conditionTime false none).1) u := ⟨_, rfl⟩
    rw [← hq] at rest still evaluated ⊢
    have out {y : Fin 64} (notDry : (p.zone y).config.kind ≠ .dry) : y ∉ u.dryZonesOf z :=
      fun inside => notDry ((members y).1 inside).1
    have stillZ := still z (out notDry)
    have tables : p.sameTables q :=
      one.retriggers.reevaluates.accounted.sameTables.trans rest.reevaluates.accounted.sameTables
    have waits (busy : (p.zone z).busy = true) : ∃ own, (q.zone z).waitConfig = some { time := t, own := own } := by
      obtain ⟨own, waits⟩ := one.waits busy
      refine ⟨own, Eq.trans ?_ waits⟩
      show (q.zone z).bare.waitConfig = _
      rw [stillZ]
      rfl
    refine ⟨one.retriggers.trans rest, fun y other notDry => (still y (out notDry)).trans (one.others y other),
      fun busy => ?_, fun busy _ => waits busy, fun idle _ => stillZ.trans (one.evaluates idle),
      fun _ dry => absurd dry notDry, fun y other idle dry walksY was => ?_⟩
    · obtain ⟨own, eq⟩ := waits busy
      rw [eq]
      nofun
    · by_cases follows : y ∈ u.dryZonesOf z
      · have reads : (q.evaluated (u.zone y)).2 = (q.evaluated (p.zone y)).2 :=
          Part.evaluated_dry dry (one.retriggers.config y) (one.retriggers.reevaluates.inputs y) rfl fun _ _ => rfl
        rw [← reads]
        refine evaluated y follows ((one.retriggers.busy y).trans idle) fun f reference => ?_
        rw [one.retriggers.config] at reference ⊢
        exact ZoneKind.not_dry_of_walks (walksY f reference)
      · rw [Part.condition_of_bare ((still y follows).trans (one.others y other)), was]
        refine (Part.evaluated_dry dry rfl rfl tables fun f reference => ?_).symm
        have otherF : f ≠ z := fun same => follows ((members y).2 ⟨dry, same ▸ reference⟩)
        exact Part.referenceRate_of_bare
          ((still f (out (ZoneKind.not_dry_of_walks (walksY f reference)))).trans (one.others f otherF))

end Sys2Proof.Machine

/-! ## SET_ENGINE of the ceiling or a hysteresis, and SET_CONDITIONS -/

namespace Sys2Proof.Machine

/-! ### A trigger of every zone in use -/

theorem Zone.condition_of_bare {r s : Zone} (h : s.bare = r.bare) : s.condition = r.condition := by
  show s.bare.condition = _
  rw [h]
  rfl

theorem Zone.conditionTime_of_bare {r s : Zone} (h : s.bare = r.bare) : s.conditionTime = r.conditionTime := by
  show s.bare.conditionTime = _
  rw [h]
  rfl

theorem Part.renewed_congr {p q : Part} {r s : Zone} {t : Nat} (tables : p.sameTables q) (same : s.bare = r.bare)
    (rate : ∀ f, r.config.kind = .dry → r.config.reference = some f → q.referenceRate f = p.referenceRate f) :
    (q.renewed s t).bare = (p.renewed r t).bare := by
  obtain ⟨decided, fields⟩ := Part.evaluated_congr tables same rate
  have condition := Zone.condition_of_bare same
  have time := Zone.conditionTime_of_bare same
  have bares (u : Part) (x : Zone) : (u.renewed x t).bare = { (u.evaluated x).1.bare with
      condition := (u.evaluated x).2
      conditionTime := if (u.evaluated x).2 = x.condition then x.conditionTime else max t x.conditionTime } := rfl
  rw [bares, bares, decided, fields, condition, time]

/-- What triggers of the zones `done`, one after another, leave of the part `b`. -/
structure Part.TriggersAll (t : Nat) (done : List (Fin 64)) (b q : Part) : Prop where
  retriggers : b.Retriggers q
  untouched : ∀ y, y ∉ done → (b.zone y).config.kind ≠ .dry → (q.zone y).bare = (b.zone y).bare
  evaluates : ∀ y ∈ done, (b.zone y).busy = false → (b.zone y).config.kind ≠ .dry →
    (q.zone y).bare = (b.renewed (b.zone y) t).bare
  waits : ∀ y ∈ done, (b.zone y).busy = true → (q.zone y).waitConfig ≠ none
  waitsNow : ∀ y ∈ done, (b.zone y).busy = true → (b.zone y).config.kind ≠ .dry →
    ∃ own, (q.zone y).waitConfig = some { time := t, own := own }
  dry : ∀ y ∈ done, (b.zone y).busy = false → (b.zone y).config.kind = .dry → b.referenceWalks y →
    (q.zone y).condition = (q.evaluated (b.zone y)).2

theorem Part.triggersAll_cons {t : Nat} {done : List (Fin 64)} {z : Fin 64} {b q r : Part} (h : b.TriggersAll t done q)
    (fresh : z ∉ done) (k : q.TriggersZone z t r) : b.TriggersAll t (z :: done) r := by
  have config := h.retriggers.config
  have busy := h.retriggers.busy
  have tables := h.retriggers.reevaluates.accounted.sameTables
  have walks {y : Fin 64} (w : b.referenceWalks y) : q.referenceWalks y := fun f reference => by
    rw [config] at reference ⊢
    exact w f reference
  have reads (u : Part) {y : Fin 64} (dry : (b.zone y).config.kind = .dry) :
      (u.evaluated (q.zone y)).2 = (u.evaluated (b.zone y)).2 :=
    Part.evaluated_dry dry (config y) (h.retriggers.reevaluates.inputs y) rfl fun _ _ => rfl
  refine ⟨h.retriggers.trans k.retriggers, fun y out notDry => ?_, fun y listed idle notDry => ?_,
    fun y listed waiting => ?_,
    fun y listed waiting notDry => ?_, fun y listed idle dry sound => ?_⟩
  · rw [List.mem_cons, not_or] at out
    exact (k.others y out.1 (by rw [config]; exact notDry)).trans (h.untouched y out.2 notDry)
  · by_cases same : y = z
    · subst same
      rw [k.evaluates ((busy y).trans idle) (by rw [config]; exact notDry)]
      exact Part.renewed_congr tables (h.untouched y fresh notDry) fun f dry => absurd dry notDry
    · rw [k.others y same (by rw [config]; exact notDry)]
      exact h.evaluates y ((List.mem_cons.1 listed).resolve_left same) idle notDry
  · by_cases same : y = z
    · subst same
      exact k.waits ((busy y).trans waiting)
    · exact k.retriggers.waits y (h.waits y ((List.mem_cons.1 listed).resolve_left same) waiting)
  · by_cases same : y = z
    · subst same
      exact k.waitsNow ((busy y).trans waiting) (by rw [config]; exact notDry)
    · obtain ⟨own, eq⟩ := h.waitsNow y ((List.mem_cons.1 listed).resolve_left same) waiting notDry
      refine ⟨own, Eq.trans ?_ eq⟩
      show (r.zone y).bare.waitConfig = _
      rw [k.others y same (by rw [config]; exact notDry)]
      rfl
  · rw [← reads r dry]
    by_cases same : y = z
    · subst same
      exact k.dry ((busy y).trans idle) (by rw [config]; exact dry) (walks sound)
    · refine k.follow y same ((busy y).trans idle) (by rw [config]; exact dry) (walks sound) ?_
      rw [reads q dry]
      exact h.dry y ((List.mem_cons.1 listed).resolve_left same) idle dry sound

theorem Part.triggersAll_foldl (zs : List (Fin 64)) {done : List (Fin 64)} {b q : Part} (open_ : b.jnc.closing = none)
    (h : b.TriggersAll b.now done q) (distinct : zs.Nodup) (fresh : ∀ z ∈ zs, z ∉ done) :
    ∃ all, (∀ z, z ∈ all ↔ z ∈ zs ∨ z ∈ done) ∧
      b.TriggersAll b.now all (zs.foldl (fun p z => p.trigger .configuration z p.now false none) q) := by
  induction zs generalizing done q with
  | nil => exact ⟨done, by simp, h⟩
  | cons z zs ih =>
    have now : q.now = b.now := h.retriggers.reevaluates.accounted.now
    obtain ⟨notIn, distinct⟩ := List.nodup_cons.1 distinct
    have one := Part.triggersZone_trigger z q.now (h.retriggers.closing open_)
    rw [List.foldl_cons]
    rw [now] at one ⊢
    obtain ⟨all, members, triggers⟩ := ih (Part.triggersAll_cons h (fresh z List.mem_cons_self) one) distinct
      fun y listed inside => by
        obtain rfl | inside := List.mem_cons.1 inside
        · exact notIn listed
        · exact fresh y (List.mem_cons_of_mem _ listed) inside
    refine ⟨all, fun y => (members y).trans ?_, triggers⟩
    simp only [List.mem_cons]
    tauto

theorem Part.usedZones_nodup (p : Part) : p.usedZones.Nodup := List.Nodup.filter _ (List.nodup_finRange 64)

/-- R6, R55: a configuration trigger of every zone in use. -/
theorem Part.triggersAll_triggerAll {b : Part} (open_ : b.jnc.closing = none) : ∃ all,
    (∀ z, z ∈ all ↔ (b.zone z).config.kind ≠ .unused) ∧ b.TriggersAll b.now all b.triggerAll := by
  obtain ⟨all, members, triggers⟩ := Part.triggersAll_foldl (done := []) (b := b) (q := b) b.usedZones open_
    ⟨.refl b, fun _ _ _ => rfl, nofun, nofun, nofun, nofun⟩ b.usedZones_nodup (fun _ _ => nofun)
  refine ⟨all, fun z => (members z).trans ?_, triggers⟩
  simp [Part.usedZones, allFin]

/-! ### What the statement says of the zones -/

/-- The zones that a docket has triggered: `before` is the record that a zone's evaluation finds. -/
def Part.allTriggered (p : Part) (before : Fin 64 → Zone) (q : Part) : Prop := ∀ z,
  let r := p.zone z
  r.config.kind ≠ .unused →
  (r.busy = false →
    (r.config.kind = .dry → ∀ f, r.config.reference = some f → (p.zone f).config.kind.walks = true) →
    (q.zone z).condition = (q.evaluated (before z)).2 ∧ (q.zone z).busy = false ∧
    (r.config.kind ≠ .dry → (q.zone z).conditionTime =
      if (q.zone z).condition = r.condition then r.conditionTime else max p.now r.conditionTime)) ∧
  (r.busy = true → (q.zone z).condition = r.condition ∧ (q.zone z).waitConfig ≠ none ∧
    (r.config.kind ≠ .dry → ∃ own, (q.zone z).waitConfig = some { time := p.now, own := own }))

/-- The part `b` differs from `p` in the tables and in the zones' band bases. -/
structure Part.Retabled (p b : Part) : Prop where
  zone : ∀ z, b.zone z = { p.zone z with basis := (b.zone z).basis }
  now : b.now = p.now

theorem Part.Retabled.triggered {p b q : Part} {all : List (Fin 64)} (h : p.Retabled b)
    (members : ∀ z, z ∈ all ↔ (b.zone z).config.kind ≠ .unused) (k : b.TriggersAll b.now all q) :
    p.allTriggered b.zone q := by
  intro z r used
  have config : (b.zone z).config = r.config := by rw [h.zone]
  have busy : (b.zone z).busy = r.busy := by rw [h.zone]; rfl
  have condition : (b.zone z).condition = r.condition := by rw [h.zone]
  have time : (b.zone z).conditionTime = r.conditionTime := by rw [h.zone]
  have listed : z ∈ all := (members z).2 (by rw [config]; exact used)
  have tables := k.retriggers.reevaluates.accounted.sameTables
  refine ⟨fun idle walks => ?_, fun waiting => ?_⟩
  · have idle' := busy.trans idle
    refine ⟨?_, (k.retriggers.busy z).trans idle', fun notDry => ?_⟩
    · by_cases dry : r.config.kind = .dry
      · refine k.dry z listed idle' (by rw [config]; exact dry) fun f reference => ?_
        rw [config] at reference
        rw [h.zone]
        exact walks dry f reference
      · have notDry : (b.zone z).config.kind ≠ .dry := by rw [config]; exact dry
        have same : (q.zone z).condition = (b.evaluated (b.zone z)).2 :=
          Zone.condition_of_bare (k.evaluates z listed idle' notDry)
        rw [same]
        exact (Part.evaluated_congr tables rfl fun f dry => absurd dry notDry).1.symm
    · have bare := k.evaluates z listed idle' (by rw [config]; exact notDry)
      have decided : (q.zone z).condition = (b.evaluated (b.zone z)).2 := Zone.condition_of_bare bare
      refine Eq.trans (Zone.conditionTime_of_bare bare) ?_
      show (if (b.evaluated (b.zone z)).2 = (b.zone z).condition then (b.zone z).conditionTime
        else max b.now (b.zone z).conditionTime) = _
      rw [← decided, condition, time, h.now]
  · have waiting' := busy.trans waiting
    refine ⟨(k.retriggers.condition z waiting').trans condition, k.waits z listed waiting', fun notDry => ?_⟩
    rw [← h.now]
    exact k.waitsNow z listed waiting' (by rw [config]; exact notDry)

/-- What neither docket changes. -/
def Part.standsUnder (p q : Part) : Prop := p.sameOutside q ∧ (∀ z, (q.zone z).config = (p.zone z).config) ∧
  q.prc = p.prc ∧ q.dou.lines = p.dou.lines ∧ ∀ i, (q.slot i).map (·.id) = (p.slot i).map (·.id)

theorem Part.standsUnder_of_accounted {p q : Part} (h : p.accounted q) : p.standsUnder q := by
  refine ⟨h.sameOutside, h.config, h.prc, h.lines, fun i => ?_⟩
  have same := congrArg (Option.map Prod.fst) (h.2.1 i)
  rw [Option.map_map, Option.map_map] at same
  exact same

/-! ### The settings and the block written -/

theorem CellBlock.valid_iff (b : CellBlock) : b.valid = true ↔ (∀ k : Fin 48, b.cells[k].mult ≤ 1023) ∧
    (∀ k : Fin 5, -400 ≤ b.tempEdges[k] ∧ b.tempEdges[k] ≤ 1500) ∧ (∀ k : Fin 7, b.rhEdges[k] ≤ 1000) ∧
    (∀ j k : Fin 5, j < k → b.tempEdges[j] < b.tempEdges[k]) ∧ ∀ j k : Fin 7, j < k → b.rhEdges[j] < b.rhEdges[k] := by
  unfold CellBlock.valid
  simp only [Bool.and_eq_true, List.all_eq_true, decide_eq_true_eq, Vector.mem_toList_iff,
    Vector.forall_mem_iff_forall_getElem,
    List.pairwise_iff_getElem, Vector.length_toList, Vector.getElem_toList, Fin.forall_iff, Fin.mk_lt_mk,
      Fin.getElem_fin,
    and_assoc]
  refine and_congr_right fun _ => and_congr_right fun _ => and_congr_right fun _ => and_congr ?_ ?_
  all_goals exact ⟨fun h i hi j hj lt => h i j hi hj lt, fun h i j hi hj lt => h i hi j hj lt⟩

/-- The clearing of every zone's band basis. -/
theorem Part.clearBases_eq (zs : List (Fin 64)) (p : Part) : ∃ zones,
    zs.foldl (fun p z => p.putZone z { p.zone z with basis := false }) p =
      { p with znu := { p.znu with zones := zones } } ∧
      ∀ z, (zs.foldl (fun p z => p.putZone z { p.zone z with basis := false }) p).zone z =
        if z ∈ zs then { p.zone z with basis := false } else p.zone z := by
  induction zs generalizing p with
  | nil => exact ⟨p.znu.zones, rfl, fun _ => rfl⟩
  | cons y ys ih =>
    obtain ⟨zones, eq, zone⟩ := ih (p.putZone y { p.zone y with basis := false })
    refine ⟨zones, eq, fun z => ?_⟩
    rw [List.foldl_cons, zone, Part.zone_putZone]
    by_cases same : y = z
    · subst same
      simp
    · simp only [same, if_false, List.mem_cons, Ne.symm same, false_or]

/-- R55: every cell and edge written; a changed edge clears every band basis. -/
theorem Part.writeBlock_eq (b : CellBlock) (p : Part) : ∃ zones, p.writeBlock b = { p with znu := { p.znu with
      zones := zones, cells := b.cells, tempEdges := b.tempEdges, rhEdges := b.rhEdges } } ∧
    ∀ z, (p.writeBlock b).zone z = if b.tempEdges = p.znu.tempEdges ∧ b.rhEdges = p.znu.rhEdges then p.zone z
      else { p.zone z with basis := false } := by
  have edges : (b.tempEdges != p.znu.tempEdges || b.rhEdges != p.znu.rhEdges) = true ↔
      ¬ (b.tempEdges = p.znu.tempEdges ∧ b.rhEdges = p.znu.rhEdges) := by
    rw [Bool.or_eq_true, bne_iff_ne, bne_iff_ne]
    tauto
  unfold Part.writeBlock
  dsimp only
  by_cases same : b.tempEdges = p.znu.tempEdges ∧ b.rhEdges = p.znu.rhEdges
  · rw [if_neg (fun h => edges.1 h same)]
    exact ⟨p.znu.zones, rfl, fun z => by rw [if_pos same]; rfl⟩
  · rw [if_pos (edges.2 same)]
    obtain ⟨zones, eq, zone⟩ := Part.clearBases_eq (List.finRange 64) { p with znu := { p.znu with
      cells := b.cells, tempEdges := b.tempEdges, rhEdges := b.rhEdges } }
    refine ⟨zones, eq, fun z => ?_⟩
    rw [zone, if_pos (List.mem_finRange z), if_neg same]
    rfl

/-- The image of a setting part, and the docket's end with the zones it waits for. -/
theorem Part.offered_finished {d : InHand} {a : Answer} {zs : List (Fin 64)} {s : SettingPart} {p : Part}
    (open_ : p.jnc.closing = none) (inHand : p.exi.inHand = some d) : ∃ j,
    ((p.offerDocket (.part s)).finishDocket a).awaitTriggers zs = { p with
      jnc := j, exi := { p.exi with inHand := some { d with stage := .finished a, triggers := zs } } } := by
  obtain ⟨j, offered, -⟩ := Part.offerDocket_part s open_
  refine ⟨j, ?_⟩
  rw [offered, Part.finishAwaits_eq (p := { p with jnc := j }) inHand]
  rfl

theorem EngineArgs.names_of_reevaluates {a : EngineArgs} (h : a.reevaluates = true) : a.names = true := by
  unfold EngineArgs.names
  rw [bne_iff_ne]
  intro none_
  have bit (k : Nat) (low : k < 6) : a.mask.getLsbD k = false := by
    have := congrArg (fun v => v.getLsbD k) none_
    simpa [low] using this
  simp only [EngineArgs.reevaluates, bit 0 (by omega), bit 4 (by omega), bit 5 (by omega), Bool.or_self] at h
  cases h

end Sys2Proof.Machine

/-! ## SET_ENGINE and SET_CONDITIONS -/

namespace Sys2Proof.Machine

theorem Part.accounted_triggers {p q : Part} {all : List (Fin 64)} (h : p.TriggersAll p.now all q) : p.accounted q :=
  h.retriggers.reevaluates.accounted

/-- R6: the ceiling or a hysteresis written, and every zone in use triggered. -/
theorem Part.setEngineDocket_retriggers {a : EngineArgs} {d : InHand} {p : Part} (inHand : p.exi.inHand = some d)
    (reevaluates : a.reevaluates = true) (valid : (a.apply p.znu.settings).valid = true)
      (open_ : p.jnc.closing = none) :
    ∃ (q : Part) (f : InHand), p.setEngineDocket a = q ∧ p.standsUnder q ∧ p.allTriggered p.zone q ∧
      q.znu.settings = a.apply p.znu.settings ∧ q.znu.cells = p.znu.cells ∧
      q.exi.inHand = some { f with stage := .finished (plainAnswer .ok) } ∧ f.slot = d.slot ∧
      ∀ z, z ∈ f.triggers ↔ (q.zone z).waitConfig ≠ none := by
  obtain ⟨b, hb⟩ : ∃ b : Part, b = { p with znu := { p.znu with settings := a.apply p.znu.settings } } := ⟨_, rfl⟩
  have zones (z : Fin 64) : b.zone z = p.zone z := by rw [hb]; rfl
  have openB : b.jnc.closing = none := by rw [hb]; exact open_
  obtain ⟨all, members, triggers⟩ := Part.triggersAll_triggerAll openB
  have accounted := Part.accounted_triggers triggers
  have retabled : p.Retabled b := ⟨fun z => by rw [zones], by rw [hb]; rfl⟩
  have triggered := retabled.triggered members triggers
  have same : b.zone = p.zone := funext zones
  rw [same] at triggered
  have stands : p.standsUnder b.triggerAll := by
    have under := Part.standsUnder_of_accounted accounted
    rw [hb] at under ⊢
    exact under
  obtain ⟨j, ends⟩ := Part.offered_finished (d := d) (a := plainAnswer .ok) (zs := b.triggerAll.waitingZones)
      (s := .engine)
    (accounted.closing openB) (by rw [accounted.inHand, hb]; exact inHand)
  have goes : p.setEngineDocket a = ((b.triggerAll.offerDocket (.part .engine)).finishDocket (plainAnswer .ok)).awaitTriggers
      b.triggerAll.waitingZones := by
    simp only [Part.setEngineDocket, EngineArgs.names_of_reevaluates reevaluates, valid, reevaluates, Bool.not_true,
      Bool.false_eq_true, if_false, if_true]
    rw [← hb]
  have tables := accounted.sameConfig
  refine ⟨_, { d with triggers := b.triggerAll.waitingZones }, goes.trans ends, stands, triggered, ?_, ?_, rfl, rfl,
    fun z => ?_⟩
  · exact tables.2.2.2.2.trans (by rw [hb])
  · exact tables.2.1.trans (by rw [hb])
  · refine Iff.trans ?_ (Option.isSome_iff_ne_none (o := (b.triggerAll.zone z).waitConfig))
    simp [Part.waitingZones, allFin]

theorem Part.setConditionsDocket_valid {addr : HostAddr} {p : Part} (good : addrOk addr 64 = true)
    (valid : (decodeCellBlock (p.hostRead addr 120)).valid = true) :
    p.setConditionsDocket addr false = p.applyConditions (decodeCellBlock (p.hostRead addr 120)) := by
  simp only [Part.setConditionsDocket, good, valid, Bool.not_true, Bool.false_eq_true, if_false, if_true]

theorem Part.setConditionsDocket_refused {addr : HostAddr} {d : InHand} {p : Part} (inHand : p.exi.inHand = some d)
    (bad : addrOk addr 64 = false ∨ (decodeCellBlock (p.hostRead addr 120)).valid = false) :
    p.setConditionsDocket addr false = p.refusedWith d .badArg := by
  have refuses := Part.refuseDocket_spec inHand .badArg
  unfold Part.setConditionsDocket
  cases good : addrOk addr 64 with
  | false => exact refuses
  | true =>
    have invalid := bad.resolve_left (by rw [good]; nofun)
    simp only [invalid, Bool.not_true, Bool.false_eq_true, if_false]
    exact refuses

/-- R55: the block written, and every zone in use triggered. -/
theorem Part.applyConditions_retriggers {blk : CellBlock} {d : InHand} {p : Part} (inHand : p.exi.inHand = some d)
    (open_ : p.jnc.closing = none) : ∃ q, p.applyConditions blk = q ∧ p.standsUnder q ∧
      p.allTriggered (fun z => if blk.tempEdges = p.znu.tempEdges ∧ blk.rhEdges = p.znu.rhEdges then p.zone z
        else { p.zone z with basis := false }) q ∧
      q.znu.cells = blk.cells ∧ q.znu.tempEdges = blk.tempEdges ∧ q.znu.rhEdges = blk.rhEdges ∧
      q.znu.settings = p.znu.settings ∧
      ∃ (f : InHand) (a : Answer), q.exi.inHand = some { f with stage := .finished a } ∧ a.result = .ok ∧
        a.first = (allFin 64 fun z => (p.zone z).condition != (q.zone z).condition).length := by
  obtain ⟨zones, written, zone⟩ := p.writeBlock_eq blk
  obtain ⟨b, hb⟩ : ∃ b, b = p.writeBlock blk := ⟨_, rfl⟩
  rw [← hb] at written zone
  have openB : b.jnc.closing = none := by rw [written]; exact open_
  obtain ⟨all, members, triggers⟩ := Part.triggersAll_triggerAll openB
  have accounted := Part.accounted_triggers triggers
  have retabled : p.Retabled b := by
    refine ⟨fun z => ?_, by rw [written]; rfl⟩
    rw [zone]
    split <;> rfl
  have triggered := retabled.triggered members triggers
  rw [funext zone] at triggered
  have stands : p.standsUnder b.triggerAll := by
    obtain ⟨outside, config, prc, lines, slots⟩ := Part.standsUnder_of_accounted accounted
    refine ⟨?_, fun z => (config z).trans ?_, prc.trans ?_, lines.trans ?_, fun i => (slots i).trans ?_⟩
    · rw [written] at outside
      rw [hb] at written
      rw [written] at hb
      rw [hb]
      exact outside
    · rw [retabled.zone]
    all_goals rw [written]
    rfl
  obtain ⟨j, ends⟩ := Part.offered_finished (d := d) (s := .derating) (zs := b.triggerAll.waitingZones)
    (a := { result := .ok, first := conditionsChanged p b.triggerAll, second := 0, value := 0 })
    (accounted.closing openB) (by rw [accounted.inHand, written]; exact inHand)
  have tables := accounted.sameConfig
  have goes : p.applyConditions blk = ((b.triggerAll.offerDocket (.part .derating)).finishDocket
      { result := .ok, first := conditionsChanged p b.triggerAll, second := 0, value := 0 }).awaitTriggers
      b.triggerAll.waitingZones := by
    rw [hb]
    rfl
  refine ⟨_, goes.trans ends, stands, triggered, ?_, ?_, ?_, ?_, { d with triggers := b.triggerAll.waitingZones }, _,
    rfl, rfl, rfl⟩
  · exact tables.2.1.trans (by rw [written])
  · exact tables.2.2.1.trans (by rw [written])
  · exact tables.2.2.2.1.trans (by rw [written])
  · exact tables.2.2.2.2.trans (by rw [written])

theorem exec_setConditions {s : State} {addr : HostAddr} {d : InHand} {stores : Stores} (on : s.part.tbu.mainPower =
    true)
    (hands : (s.part.hostStores stores).hands d (.setConditions addr)) : exec (.setConditions stores) s =
      .next (s.withPart ((s.part.hostStores stores).setConditionsDocket addr false)) := by
  refine exec_of_powered (f := fun p =>
    let p := p.hostStores stores
    match p.handedRequest with
    | some (.setConditions addr) => p.setConditionsDocket addr false
    | _ => p) rfl on ?_
  simp only [Part.handedRequest_of_hands hands]

/-- Settles O39: the triggers of the zones in use, taken one after another, by induction on them. -/
theorem engineAndConditionsRetriggerZones : Obligations.EngineAndConditionsRetriggerZones := by
  refine ⟨CellBlock.valid_iff, fun s d on open_ => ?_⟩
  intro p stands triggered
  refine ⟨fun a hands reevaluates => ⟨fun invalid => ?_, fun valid => ?_⟩, fun addr stores hands => ?_⟩
  · refine (exec_setEngine on hands).trans ?_
    have refused : p.setEngineDocket a = p.refusedWith d .badArg := by
      simp only [Part.setEngineDocket, EngineArgs.names_of_reevaluates reevaluates, invalid, Bool.not_true,
        Bool.not_false,
        Bool.false_eq_true, if_false, if_true]
      exact Part.refuseDocket_spec hands.1 .badArg
    rw [← refused]
  · obtain ⟨q, f, goes, fields⟩ := Part.setEngineDocket_retriggers hands.1 reevaluates valid open_
    exact ⟨q, f, (exec_setEngine on hands).trans (by rw [← goes]), fields⟩
  · intro h b
    obtain ⟨host, stored⟩ : ∃ host, h = { p with host := host } := ⟨_, Part.hostStores_eq stores p⟩
    have handsH : h.hands d (.setConditions addr) := by rw [stored]; exact hands
    have zones : h.zone = p.zone := by rw [stored]; rfl
    have znu : h.znu = p.znu := by rw [stored]
    have now : h.now = p.now := by rw [stored]; rfl
    have runs (q : Part) (goes : h.setConditionsDocket addr false = q) :
        exec (.setConditions stores) s = .next (s.withPart q) := (exec_setConditions on handsH).trans (by rw [← goes])
    refine ⟨fun bad => runs _ (Part.setConditionsDocket_refused handsH.1 (.inl ?_)), fun nonzero aligned valid => ?_,
      fun nonzero aligned invalid => runs _ (Part.setConditionsDocket_refused handsH.1 (.inr invalid))⟩
    · rw [← Bool.not_eq_true, addrOk_iff]
      tauto
    · obtain ⟨q, applied, under, alls, cells, temp, rh, settings, f, a, inHand, ok, first⟩ :=
        Part.applyConditions_retriggers (blk := b) handsH.1 (by rw [stored]; exact open_)
      have goes := (Part.setConditionsDocket_valid (addrOk_iff.2 ⟨nonzero, aligned⟩) valid).trans applied
      unfold Part.allTriggered at alls
      rw [zones, znu, now] at alls
      rw [zones] at first
      exact ⟨q, runs q goes, under, alls, cells, temp, rh, settings.trans (by rw [znu]), f, a, inHand, ok, first⟩

end Sys2Proof.Machine

/-! ## SET_TIME and reconciliation -/

namespace Sys2Proof.Machine

/-! ### One container reconciled -/

/-- The seconds of the outage that a container settled before is charged (R21, R171). -/
def Container.outageSeconds (N tLast : Nat) (c : Container) : Option Nat → Nat
  | some D => N - max c.settled D
  | none => N - tLast

/-- R21, R171: the record `c'` is `c` settled to the last time of the journal, or to the drop time, and charged the
outage. -/
def Container.chargedAs (k : ClassDef) (rate N tLast : Nat) (drop : Option Nat) (c c' : Container) : Prop :=
  let c1 := (settleRecord k (drop.getD tLast) c).1
  let e := c1.exposure + c.outageSeconds N tLast drop * rate
  c'.id = c.id ∧ c'.cls = c.cls ∧ c'.zone = c.zone ∧ c'.bakeCount = c1.bakeCount ∧
    (c1.custody = .opened → (e < k.limit → c'.exposure = e ∧ c'.custody = .opened) ∧
      (k.limit ≤ e → c'.exposure = k.limit ∧ c'.custody = .expired)) ∧
    (c1.custody ≠ .opened → c'.exposure = c1.exposure ∧ c'.custody = c1.custody)

/-- The outage charge of a record settled before (R21 steps 2 and 3). -/
theorem chargeRecord_fields (k : ClassDef) (rate seconds N : Nat) (c : Container) :
    let c' := chargeRecord k rate seconds N c
    let e := c.exposure + seconds * rate
    c'.settled = N ∧ c'.id = c.id ∧ c'.cls = c.cls ∧ c'.zone = c.zone ∧ c'.bakeCount = c.bakeCount ∧
      (c.custody = .opened → (e < k.limit → c'.exposure = e ∧ c'.custody = .opened) ∧
        (k.limit ≤ e → c'.exposure = k.limit ∧ c'.custody = .expired)) ∧
      (c.custody ≠ .opened → c'.exposure = c.exposure ∧ c'.custody = c.custody) := by
  intro c' e
  by_cases opened : c.custody = .opened
  · have charged : c' = limitRule k { c with exposure := min k.limit e, settled := N } := if_pos opened
    have fields := limitRule_eq k { c with exposure := min k.limit e, settled := N }
    rw [← charged] at fields
    refine ⟨by rw [fields], by rw [fields], by rw [fields], by rw [fields], by rw [fields], fun _ => ⟨fun below => ?_,
      fun above => ?_⟩, fun h => absurd opened h⟩
    · have stays : c' = { c with exposure := min k.limit e, settled := N } :=
        charged.trans (if_neg fun h => absurd h.2 (by dsimp only; omega))
      rw [stays]
      exact ⟨Nat.min_eq_right below.le, opened⟩
    · have expires : c' = Container.expire { c with exposure := min k.limit e, settled := N } :=
        charged.trans (if_pos ⟨.inr opened, by dsimp only; omega⟩)
      rw [expires]
      exact ⟨Nat.min_eq_left above, rfl⟩
  · have charged : c' = { c with settled := N } := if_neg opened
    rw [charged]
    exact ⟨rfl, rfl, rfl, rfl, rfl, fun h => absurd h opened, fun _ => ⟨rfl, rfl⟩⟩

theorem reconcileRecord_charged (k : ClassDef) (rate N tLast : Nat) (drop : Option Nat) (c : Container) :
    c.chargedAs k rate N tLast drop (reconcileRecord k rate N tLast drop c) ∧
      (reconcileRecord k rate N tLast drop c).settled = N := by
  obtain ⟨w, hw⟩ : ∃ w, w = (warnRecord k (settleRecord k (drop.getD tLast) c).1).1 := ⟨_, rfl⟩
  have warned := warnRecord_eq k (settleRecord k (drop.getD tLast) c).1
  rw [← hw] at warned
  obtain ⟨id, cls, zone⟩ := settleRecord_ids k (drop.getD tLast) c
  have settled : w.settled = max c.settled (drop.getD tLast) := by
    rw [warned]
    exact settleRecord_settled_max ..
  have reconciled : reconcileRecord k rate N tLast drop c = chargeRecord k rate (c.outageSeconds N tLast drop) N w := by
    cases drop with
    | none =>
      rw [hw]
      rfl
    | some D =>
      rw [Container.outageSeconds, show max c.settled D = w.settled from settled.symm, hw]
      rfl
  obtain ⟨s', id', cls', zone', bakes, opened, closed⟩ := chargeRecord_fields k rate (c.outageSeconds N tLast drop) N w
  rw [← reconciled] at s' id' cls' zone' bakes opened closed
  have custody : w.custody = (settleRecord k (drop.getD tLast) c).1.custody := by rw [warned]
  have exposure : w.exposure = (settleRecord k (drop.getD tLast) c).1.exposure := by rw [warned]
  rw [custody, exposure] at opened closed
  refine ⟨⟨id'.trans ?_, cls'.trans ?_, zone'.trans ?_, bakes.trans ?_, opened, closed⟩, s'⟩
  · rw [warned]; exact id
  · rw [warned]; exact cls
  · rw [warned]; exact zone
  · rw [warned]

/-- The drop time that a container is settled to (R171 step 1). -/
def RestoreRecord.dropOf (r : RestoreRecord) (i : Fin 2048) : Option Nat :=
    if i ∈ r.imagedAfter then none else r.openDrop

theorem Part.reconcileSlot_spec {N : Nat} {r : RestoreRecord} {i : Fin 2048} {c : Container} {p : Part}
    (live : p.slot i = some c) : ∃ c', p.Commits i c c' (p.reconcileSlot N r i) ∧ p.accounted (p.reconcileSlot N r i) ∧
      c'.settled = N ∧ c.chargedAs (p.classDef c.cls) p.znu.settings.outage N r.tLast (r.dropOf i) c' := by
  obtain ⟨c1, h1⟩ : ∃ c1, c1 = reconcileRecord (p.classDef c.cls) p.znu.settings.outage N r.tLast (r.dropOf i) c :=
      ⟨_, rfl⟩
  obtain ⟨charged, settled⟩ := reconcileRecord_charged (p.classDef c.cls) p.znu.settings.outage N r.tLast (r.dropOf i) c
  rw [← h1] at charged settled
  obtain ⟨id, cls, zone, custody, exposure, settles, -, bakes⟩ := Part.deriveRecord_fields true c1 p
  have slot : p.reconcileSlot N r i = p.commitRecord i c { (p.deriveRecord true c1).1 with
      dirty := c.dirty || changedBeyondS c (p.deriveRecord true c1).1 } := by
    cases dropped : r.openDrop <;>
      simp only [Part.reconcileSlot, live, dropped, h1, RestoreRecord.dropOf, List.contains_iff_mem, ite_self]
  rw [slot]
  obtain ⟨id1, cls1, zone1, bakes1, opened, closed⟩ := charged
  refine ⟨_, Part.commits_commitRecord .., Part.accounted_commitRecord live ?_, settles.trans settled, ?_⟩
  · simp only [Container.identity, id, id1, cls, cls1, zone, zone1]
  refine ⟨id.trans id1, cls.trans cls1, zone.trans zone1, bakes.trans bakes1, fun h => ?_, fun h => ?_⟩
  · obtain ⟨below, above⟩ := opened h
    exact ⟨fun l => ⟨exposure.trans (below l).1, custody.trans (below l).2⟩,
      fun l => ⟨exposure.trans (above l).1, custody.trans (above l).2⟩⟩
  · exact ⟨exposure.trans (closed h).1, custody.trans (closed h).2⟩

/-! ### The table reconciled -/

/-- What a reconciliation leaves of a part but its containers. -/
structure Part.Reconciles (N : Nat) (r : RestoreRecord) (is : List (Fin 2048)) (p q : Part) : Prop where
  accounted : p.accounted q
  jnc : q.jnc = p.jnc
  still : ∀ j, j ∉ is → q.slot j = p.slot j
  charged : ∀ i ∈ is, ∀ c, p.slot i = some c → ∃ c', q.slot i = some c' ∧ c'.settled = N ∧
    c.chargedAs (p.classDef c.cls) p.znu.settings.outage N r.tLast (r.dropOf i) c'

theorem Part.reconcileSlots_spec (N : Nat) (r : RestoreRecord) (is : List (Fin 2048)) {p : Part} (distinct : is.Nodup) :
    p.Reconciles N r is (is.foldl (fun p i => p.reconcileSlot N r i) p) := by
  induction is generalizing p with
  | nil => exact ⟨p.accounted_refl, rfl, fun _ _ => rfl, nofun⟩
  | cons i is ih =>
    obtain ⟨fresh, distinct⟩ := List.nodup_cons.1 distinct
    have rest := ih (p := p.reconcileSlot N r i) distinct
    rw [List.foldl_cons]
    cases live : p.slot i with
    | none =>
      have skips : p.reconcileSlot N r i = p := by simp only [Part.reconcileSlot, live]
      rw [skips] at rest ⊢
      refine ⟨rest.accounted, rest.jnc, fun j out => rest.still j fun h => out (List.mem_cons_of_mem _ h),
        fun j listed c was => ?_⟩
      obtain rfl | inside := List.mem_cons.1 listed
      · exact nomatch live.symm.trans was
      · exact rest.charged j inside c was
    | some c =>
      obtain ⟨c', commits, accounted, settled, charged⟩ := Part.reconcileSlot_spec (N := N) (r := r) live
      refine ⟨Part.accounted_trans accounted rest.accounted, rest.jnc.trans commits.jnc, fun j out => ?_,
        fun j listed d was => ?_⟩
      · rw [List.mem_cons, not_or] at out
        exact (rest.still j out.2).trans (commits.others j out.1)
      · obtain rfl | inside := List.mem_cons.1 listed
        · obtain rfl := Option.some.inj (live.symm.trans was)
          exact ⟨c', (rest.still j fresh).trans commits.own, settled, charged⟩
        · have other : j ≠ i := fun same => fresh (same ▸ inside)
          obtain ⟨d', now, settles, charges⟩ := rest.charged j inside d ((commits.others j other).trans was)
          rw [accounted.classDef, accounted.sameConfig.2.2.2.2] at charges
          exact ⟨d', now, settles, charges⟩

theorem Part.reconcileMark_eq {N : Nat} {p : Part} (open_ : p.jnc.closing = none) : ∃ j header,
    p.reconcileMark N = { p with jnc := j, exi := { p.exi with headerMark := header } } ∧ j.engine = p.jnc.engine := by
  unfold Part.reconcileMark
  split
  · dsimp only
    split
    · obtain ⟨w, hw⟩ : ∃ w, w = ((p.onJnc fun j => { j with journal := .resync, dropTime := some N }).postHeader).stageDropMark
        N := ⟨_, rfl⟩
      have eq : w = { p with jnc := w.jnc, exi := { p.exi with headerMark := true } } ∧ w.jnc.closing = none ∧
          w.jnc.engine = p.jnc.engine := by
        rw [hw]
        unfold Part.stageDropMark
        rw [Part.enqueue_eq (.inr (by simp [Payload.isImage]))]
        exact ⟨rfl, open_, rfl⟩
      obtain ⟨eq, closing, engine⟩ := eq
      obtain ⟨j, pumped, -⟩ := Part.pump_open closing
      obtain ⟨-, -, engine', -⟩ := Part.pump_jnc closing
      rw [pumped] at engine'
      rw [← hw, pumped]
      refine ⟨j, true, ?_, engine'.trans engine⟩
      rw [eq]
    · exact ⟨_, true, rfl, rfl⟩
  · exact ⟨p.jnc, p.exi.headerMark, rfl, rfl⟩

theorem Part.liveSlots_nodup (p : Part) : p.liveSlots.Nodup := List.Nodup.filter _ (List.nodup_finRange 2048)

theorem Part.mem_liveSlots {p : Part} {i : Fin 2048} : i ∈ p.liveSlots ↔ p.slot i ≠ none := by
  simp [Part.liveSlots, allFin, Option.isSome_iff_ne_none]

/-- R171: reconciliation at the restore time `N`. -/
theorem Part.reconcile_spec {N : Nat} {r : RestoreRecord} {p : Part} (found : p.jnc.restore = some r)
    (open_ : p.jnc.closing = none) : ∃ u j header, p.Reconciles N r p.liveSlots u ∧
      p.reconcile N = { u with jnc := j, exi := { u.exi with headerMark := header } } ∧ j.engine = p.jnc.engine ∧
      j.outage = (if N - r.tLast ≤ Config.timeNone then N - r.tLast else 0) ∧
      j.restore = some { r with reconciled := true } := by
  have slots := Part.reconcileSlots_spec N r p.liveSlots (p := p) p.liveSlots_nodup
  obtain ⟨u, hu⟩ : ∃ u, u = p.liveSlots.foldl (fun p i => p.reconcileSlot N r i) p := ⟨_, rfl⟩
  rw [← hu] at slots
  obtain ⟨j, header, marked, engine⟩ := Part.reconcileMark_eq (N := N) (slots.accounted.closing open_)
  have goes : p.reconcile N = ((u.reconcileMark N).onJnc fun j => { j with
      outage := if N - r.tLast ≤ Config.timeNone then N - r.tLast else 0
      restore := some { r with reconciled := true } }).postHeader := by
    simp only [Part.reconcile, found, ← hu]
  rw [goes, marked]
  exact ⟨u, _, true, slots, rfl, engine.trans (by rw [slots.jnc]), rfl, rfl⟩

/-! ### The docket -/

/-- The TIME_MARK of a docket changes the journal's own record alone, and in it neither the engine state nor what
restore
keeps. -/
theorem Part.offerDocket_timeMark {p : Part} (open_ : p.jnc.closing = none) : ∃ j,
    p.offerDocket .timeMark = { p with jnc := j } ∧ j.closing = none ∧ j.engine = p.jnc.engine ∧
      j.restore = p.jnc.restore := by
  unfold Part.offerDocket
  split
  · exact ⟨p.jnc, rfl, open_, rfl, rfl⟩
  · dsimp only
    split
    · rw [Part.enqueue_eq (.inr (by simp [Part.offerPayloads, Payload.isImage]))]
      generalize hq : ({ p with jnc := { p.jnc with
        queue := p.jnc.queue ++ p.stamped .docket (p.offerPayloads .timeMark)
        sinceMark := sinceMarkAfter (p.offerPayloads .timeMark) p.jnc.sinceMark } } : Part) = q
      have openQ : q.jnc.closing = none := by rw [← hq]; exact open_
      obtain ⟨j, pumped, -⟩ := Part.pump_open openQ
      obtain ⟨-, -, engine, -, closes, -, -, restore, -⟩ := Part.pump_jnc openQ
      rw [pumped] at engine closes restore ⊢
      subst hq
      exact ⟨j, rfl, closes, engine, restore⟩
    · exact ⟨_, rfl, open_, rfl, rfl⟩

/-- R171, R172: the clock set in AWAIT_TIME, and the tables reconciled. -/
theorem Part.setTimeDocket_awaits {t : Nat} {d : InHand} {r : RestoreRecord} {p : Part} (inHand : p.exi.inHand = some d)
    (awaits : p.jnc.engine = .awaitTime) (found : p.jnc.restore = some r) (open_ : p.jnc.closing = none)
    (later : r.tLast ≤ t) (number : t < Config.timeNone) : ∃ q, p.setTimeDocket t = q ∧
      q.tbu = { p.tbu with counter := t, timeValid := true } ∧ q.flash = p.flash ∧ q.host = p.host ∧ q.prc = p.prc ∧
      q.jnc.engine = .awaitTime ∧ q.jnc.outage = t - r.tLast ∧
      (∃ r', q.jnc.restore = some r' ∧ r'.reconciled = true) ∧ (∀ i c, q.slot i = some c → c.settled = t) ∧
      (∀ i, q.slot i = none ↔ p.slot i = none) ∧
      (∀ i c c', p.slot i = some c → q.slot i = some c' →
        c.chargedAs (p.classDef c.cls) p.znu.settings.outage t r.tLast (r.dropOf i) c') ∧
      q.finishes { d with awaitRunning := true } { result := .ok, first := 0, second := 0, value := t - r.tLast } := by
  obtain ⟨j, offered, openJ, engine, restore⟩ := Part.offerDocket_timeMark (p := p.setClock t) open_
  obtain ⟨w, hw⟩ : ∃ w, w = (p.setClock t).offerDocket .timeMark := ⟨_, rfl⟩
  have eqW : w = { p.setClock t with jnc := j } := hw.trans offered
  have jncW : w.jnc = j := by rw [eqW]
  have slots (i : Fin 2048) : w.slot i = p.slot i := by rw [eqW]; rfl
  have classes : w.classDef = p.classDef := by rw [eqW]; rfl
  have settings : w.znu.settings = p.znu.settings := by rw [eqW]; rfl
  obtain ⟨u, j', header, reconciles, eq, engine', outage, restored⟩ := Part.reconcile_spec (N := t) (r := r) (p := w)
    (by rw [jncW, restore]; exact found) (by rw [jncW]; exact openJ)
  have accounted := reconciles.accounted
  have outside := accounted.sameOutside
  have inHandU : u.exi.inHand = some d := by
    rw [accounted.inHand, eqW]
    exact inHand
  have goes : p.setTimeDocket t = ((w.reconcile t).finishDocket
      { result := .ok, first := 0, second := 0, value := t - r.tLast }).awaitRun := by
    simp only [Part.setTimeDocket, awaits, found]
    rw [if_neg (by simp only [Config.lastSecond, Config.timeNone] at number ⊢; omega), ← hw]
  have ends : ((w.reconcile t).finishDocket { result := .ok, first := 0, second := 0, value := t - r.tLast }).awaitRun =
      (w.reconcile t).setInHand (some { d with
        stage := .finished { result := .ok, first := 0, second := 0, value := t - r.tLast }, awaitRunning :=
          true }) := by
    have held : (w.reconcile t).exi.inHand = some d := by rw [eq]; exact inHandU
    simp only [Part.finishDocket, held, Part.awaitRun, Part.setInHand]
  have slotQ (i : Fin 2048) : (w.reconcile t).slot i = u.slot i := by rw [eq]; rfl
  have dead (i : Fin 2048) : u.slot i = none ↔ p.slot i = none := by
    have same := accounted.2.1 i
    rw [slots] at same
    rw [← Option.map_eq_none_iff (f := Container.identity), same, Option.map_eq_none_iff]
  have charged {i : Fin 2048} {c : Container} (live : p.slot i = some c) : ∃ c', u.slot i = some c' ∧ c'.settled = t ∧
      c.chargedAs (p.classDef c.cls) p.znu.settings.outage t r.tLast (r.dropOf i) c' := by
    rw [← classes, ← settings]
    exact reconciles.charged i (Part.mem_liveSlots.2 (by rw [slots, live]; nofun)) c ((slots i).trans live)
  refine ⟨_, goes.trans ends, ?_, ?_, ?_, ?_, ?_, ?_, ⟨{ r with reconciled := true }, ?_, rfl⟩, fun i c' now => ?_,
    fun i => ?_, fun i c c' was now => ?_, rfl⟩
  · show (w.reconcile t).tbu = _
    rw [eq]
    exact outside.2.2.trans (by rw [eqW]; rfl)
  · show (w.reconcile t).flash = _
    rw [eq]
    exact outside.2.1.trans (by rw [eqW]; rfl)
  · show (w.reconcile t).host = _
    rw [eq]
    exact outside.1.trans (by rw [eqW]; rfl)
  · show (w.reconcile t).prc = _
    rw [eq]
    exact accounted.prc.trans (by rw [eqW]; rfl)
  · show (w.reconcile t).jnc.engine = _
    rw [eq]
    exact engine'.trans (by rw [jncW, engine]; exact awaits)
  · show (w.reconcile t).jnc.outage = _
    rw [eq]
    exact outage.trans (if_pos (by omega))
  · show (w.reconcile t).jnc.restore = _
    rw [eq]
    exact restored
  · rw [Part.slot_setInHand, slotQ] at now
    cases was : p.slot i with
    | none => exact nomatch ((dead i).2 was).symm.trans now
    | some c =>
      obtain ⟨x, own, settled, -⟩ := charged was
      rwa [Option.some.inj (now.symm.trans own)]
  · rw [Part.slot_setInHand, slotQ]
    exact dead i
  · rw [Part.slot_setInHand, slotQ] at now
    obtain ⟨x, own, -, charges⟩ := charged was
    rwa [Option.some.inj (now.symm.trans own)]

/-- Settles O46. -/
theorem setTimeSetsTheClock : Obligations.SetTimeSetsTheClock := by
  intro s d t on hands p clock
  have inHand := hands.1
  have runs (q : Part) (h : p.setTimeDocket t = q) : exec .setTime s = .next (s.withPart q) :=
    (exec_setTime on hands).trans (by rw [← h])
  refine ⟨fun wrong => ?_, fun blank none_ => ?_, fun blank number => ?_, fun r awaits found open_ => ?_⟩
  · refine runs _ ?_
    obtain state | state := wrong <;> simp only [Part.setTimeDocket, state] <;> exact Part.refuseDocket_spec inHand _
  · refine runs _ ?_
    simp only [Part.setTimeDocket, blank]
    rw [if_pos (by rw [none_]; decide)]
    exact Part.refuseDocket_spec inHand _
  · refine runs _ ?_
    have inHand' : (p.setClock t).exi.inHand = some d := inHand
    simp only [Part.setTimeDocket, blank]
    rw [if_neg (by simp only [Config.lastSecond, Config.timeNone] at number ⊢; omega)]
    simp only [Part.finishDocket, inHand']
    rfl
  · intro drop charged
    refine ⟨fun early => runs _ ?_, fun later number => ?_⟩
    · simp only [Part.setTimeDocket, awaits, found]
      rw [if_pos (.inr early)]
      exact Part.refuseDocket_spec inHand _
    · obtain ⟨q, goes, tbu, flash, host, prc, engine, outage, restored, settled, dead, charges, ends⟩ :=
        Part.setTimeDocket_awaits inHand awaits found open_ later number
      refine ⟨q, runs q goes, tbu, flash, host, prc, engine, outage, restored, settled, dead,
        fun i c c' was now => ?_, ends⟩
      have charge := charges i c c' was now
      have dropped : drop i = r.dropOf i := rfl
      show _ ∧ _
      unfold Container.chargedAs at charge
      rw [← dropped] at charge
      cases case : drop i <;> rw [case] at charge <;> exact charge

end Sys2Proof.Machine

/-! ## FORMAT (O47) -/

namespace Sys2Proof.Machine

/-! ### The docket -/

theorem exec_format {s : State} {d : InHand} {id : Byte} (on : s.part.tbu.mainPower = true)
    (h : s.part.hands d .format) :
    exec (.format id) s =
      .next (s.withPart (Part.formatDocket { s.part with flash := { s.part.flash with idByte := id } })) :=
  exec_of_powered rfl on (by simp only [Part.handedRequest_of_hands h])

theorem Flash.identified_iff (f : Flash) : f.identified = true ↔ f.idByte ≠ 0x00#8 ∧ f.idByte ≠ 0xFF#8 := by
  simp [Flash.identified]

theorem Part.liveSlots_isEmpty (p : Part) : p.liveSlots.isEmpty = true ↔ ∀ i, p.slot i = none := by
  rw [List.isEmpty_iff, List.eq_nil_iff_forall_not_mem]
  exact forall_congr' fun i => by rw [Part.mem_liveSlots, not_not]

theorem Part.mayFormat_iff (p : Part) : p.mayFormat = true ↔
    (p.jnc.engine = .blank ∨ (p.jnc.engine = .running ∧ ∀ i, p.slot i = none)) ∧ p.tbu.timeValid = true ∧
      p.flash.idByte ≠ 0x00#8 ∧ p.flash.idByte ≠ 0xFF#8 := by
  simp only [Part.mayFormat, Bool.and_eq_true, Bool.or_eq_true, beq_iff_eq, Part.liveSlots_isEmpty,
    Flash.identified_iff,
    and_assoc]

theorem Part.formatDocket_refused {d : InHand} {p : Part} (inHand : p.exi.inHand = some d)
    (bars : p.mayFormat = false) :
    p.formatDocket = p.refusedWith d .wrongState := by
  rw [← Part.refuseDocket_spec inHand]
  exact if_neg (by simp [bars])

/-- A FORMAT at its first step, with nothing to commit and the port free, begins its erases. -/
theorem Part.pump_formats {f : FormatRecord} {p : Part} (formats : p.jnc.format = some f) (drains : f.stage = .drain)
    (free : p.jnc.port.job = none) (whole : p.jnc.port.suspended = none) (empty : p.jnc.queue = []) :
    p.pump = { p with jnc := { p.jnc with
      format := some { f with stage := .erasing }, compaction := .idle, failures := 0
      port := { p.jnc.port with job := some (.erase (.format 0)), since := p.now, elapsed := 0, timedOut := false } } } := by
  have marks : p.closingMark = p := by
    unfold Part.closingMark
    cases p.jnc.closing with
    | none => rfl
    | some c => simp [formats]
  have stops : p.stopStaging =
      p.onJnc fun j => { j with format := some { f with stage := .stopped }, compaction := .idle } := by
    simp [Part.stopStaging, formats, drains, empty]
  unfold Part.pump
  simp [marks, stops, free, whole, Part.arbitrateFormat, Part.onJnc, Part.startJob, Part.onPort]
  rfl

theorem Part.formatDocket_begins {d : InHand} {p : Part} (inHand : p.exi.inHand = some d) (may : p.mayFormat = true)
    (free : p.jnc.port.job = none) (whole : p.jnc.port.suspended = none) (empty : p.jnc.queue = []) :
    p.formatDocket = { p with
      jnc := { p.jnc with
        format := some { stage := .erasing, serial := p.flash.newSerial, time := p.now }, compaction := .idle,
          failures := 0
        port := { p.jnc.port with job := some (.erase (.format 0)), since := p.now, elapsed := 0, timedOut := false } }
      exi := { p.exi with inHand := some { d with stage := .working } } } := by
  have works : Part.workDocket (p.onJnc fun j => { j with
      format := some { stage := .drain, serial := p.flash.newSerial, time := p.now } }) = { p with
        jnc := { p.jnc with format := some { stage := .drain, serial := p.flash.newSerial, time := p.now } }
        exi := { p.exi with inHand := some { d with stage := .working } } } := by
    simp [Part.workDocket, Part.onJnc, Part.setInHand, inHand]
  refine (if_pos may).trans ?_
  rw [works]
  exact Part.pump_formats (f := { stage := .drain, serial := p.flash.newSerial, time := p.now })
    (p := { p with
      jnc := { p.jnc with format := some { stage := .drain, serial := p.flash.newSerial, time := p.now } }
      exi := { p.exi with inHand := some { d with stage := .working } } }) rfl rfl free whole empty

/-! ### The tables -/

/-- A bus as the statement of O47 has it at FORMAT. -/
def ProbeBus.atFormat (r : ProbeBus) : ProbeBus := match r.poll with
  | some q => if r.phase.underWay then { r with fast := false, queue := [], poll := some { q with discarded := true } }
              else ProbeBus.reset
  | none => ProbeBus.reset

theorem ProbeBus.formatted_eq (r : ProbeBus) : r.formatted = r.atFormat := by
  obtain ⟨fast, attemptFast, queue, phase, poll, sent, pulses⟩ := r
  cases poll with
  | none => cases phase <;> rfl
  | some q => cases phase <;> rfl

theorem DoorLine.defaults_eq (high : Bool) : DoorLine.defaults high =
    { DoorLine.reset with high := high, timer := if high then some 50 else none } := by
  cases high <;> rfl

/-- The tables of `q` are those that a FORMAT of `p` leaves, the groups switched on or not, and the whole board is
marked. -/
def Part.Formatted (on : Bool) (p q : Part) : Prop := q.ctu = Ctu.reset ∧ q.znu = Znu.reset ∧ q.dlu = Dlu.reset ∧
  q.prc = { probes := Vector.replicate 32 Probe.off, busA := p.prc.busA.atFormat, busB := p.prc.busB.atFormat
            groups := Vector.replicate 4 { PowerGroup.reset with on := on } } ∧
  q.dou = { Dou.reset with lines := Vector.ofFn fun n => { DoorLine.reset with
    high := (p.line n).high, timer := if (p.line n).high then some 50 else none } } ∧
  q.tbu = p.tbu ∧ q.host = p.host ∧ q.exi.headerMark = true ∧ q.exi.zoneMarks = List.finRange 64 ∧
  q.exi.slotMarks = List.finRange 2048

theorem Part.formatTables_eq (p : Part) : p.formatTables = { p with
    ctu := Ctu.reset
    znu := Znu.reset
    dlu := Dlu.reset
    prc := { probes := Vector.replicate 32 Probe.off, busA := p.prc.busA.atFormat, busB := p.prc.busB.atFormat
             groups := Vector.replicate 4 PowerGroup.reset }
    dou := { Dou.reset with lines := Vector.ofFn fun n => { DoorLine.reset with
      high := (p.line n).high, timer := if (p.line n).high then some 50 else none } } } := by
  simp only [Part.formatTables, Dou.defaults, DoorLine.defaults_eq, ProbeBus.formatted_eq]
  rfl

theorem Part.switchOnSteady_reset {p : Part} (reset : p.prc.groups = Vector.replicate 4 PowerGroup.reset) :
    p.switchOnSteady =
      { p with prc := { p.prc with groups := Vector.replicate 4 { PowerGroup.reset with on := true } } } := by
  have same : p = { p with prc := { p.prc with groups := Vector.replicate 4 PowerGroup.reset } } := by rw [← reset]
  rw [same]
  rfl

/-- Entering an engine state changes, outside the state itself, the header's mark and the causes alone. -/
theorem Part.setEngine_eq (e : EngineState) (p : Part) : p.setEngine e = { p with
    jnc := { p.jnc with engine := e }
    exi := { p.exi with headerMark := (p.setEngine e).exi.headerMark, cause := (p.setEngine e).exi.cause
                        messages := (p.setEngine e).exi.messages } } := by
  by_cases same : p.jnc.engine = e
  · subst same
    rw [show p.setEngine p.jnc.engine = p from if_pos rfl]
  · obtain ⟨cause, messages, raised⟩ : ∃ cause messages, p.setEngine e = { p with
        jnc := { p.jnc with engine := e }
        exi := { p.exi with headerMark := true, cause := cause, messages := messages } } :=
      ⟨_, _, (if_neg same).trans (Part.raise_eq _ _)⟩
    rw [raised]

theorem Part.setEngine_cause (e : EngineState) (p : Part) :
    (p.jnc.engine = e → (p.setEngine e).exi.cause = p.exi.cause) ∧
    (p.jnc.engine ≠ e ∨ p.exi.cause.getLsbD 2 = true → (p.setEngine e).exi.cause.getLsbD 2 = true) := by
  unfold Part.setEngine
  split
  case isTrue same => exact ⟨fun _ => rfl, fun h => h.elim (absurd same) id⟩
  case isFalse differs => exact ⟨fun same => absurd same differs, fun _ => Part.raise_sets .engine _⟩

/-! ### The erases and the programs -/

theorem Part.eraseComplete_format {n : Nat} {p : Part} (job : p.jnc.port.job = some (.erase (.format n)))
    (prompt : p.jnc.port.timedOut = false) : p.eraseComplete .done = Part.eraseDone (.format n)
      { p with flash := { p.flash with cells := p.flash.cells.clear (n * 4096) 4096 } } := by
  rw [Part.eraseComplete_done job prompt, Flash.eraseSector_eq]
  rfl

theorem Part.eraseDone_format {n : Nat} {f : FormatRecord} {p : Part} (formats : p.jnc.format = some f) :
    let done : Jnc := { p.jnc with failures := 0, notErased := p.jnc.notErased.filter (· != n) }
    let starts (job : FlashJob) : FlashPort :=
      { p.jnc.port with job := some job, since := p.now, elapsed := 0, timedOut := false }
    (n < 1023 → p.eraseDone (.format n) = { p with jnc := { done with port := starts (.erase (.format (n + 1))) } }) ∧
    (n = 1023 → p.eraseDone (.format n) = { p with jnc := { done with
      format := some { f with stage := .entry }, port := starts (.program .formatBody) } }) := by
  refine ⟨fun more => ?_, fun last => ?_⟩
  · exact (if_pos more).trans rfl
  · have entry : p.jnc.format.map (fun f => { f with stage := .entry }) = some { f with stage := .entry } := by
      rw [formats]
      rfl
    rw [← entry]
    exact (if_neg (by omega)).trans rfl

theorem Part.programTarget_formatBody {f : FormatRecord} {p : Part} (formats : p.jnc.format = some f) :
    p.programTarget .formatBody = (0, entryBody (.formatEntry f.serial) false 0 f.time) := by
  simp only [Part.programTarget, formats]

/-! ### The end -/

theorem Part.formatDone_spec {n : Nat} {d : InHand} {p : Part} (inHand : p.exi.inHand = some d) :
    let q := p.formatDone n
    p.Formatted true q ∧ (p.jnc.engine = .running → q.exi.cause = p.exi.cause) ∧
      (p.jnc.engine ≠ .running → q.exi.cause.getLsbD 2 = true) ∧ q.flash = p.flash ∧
      q.jnc = { Jnc.reset with engine := .running, serial := BitVec.ofNat 32 n, notErased := []
                               closing := p.jnc.closing, resetWaits := p.jnc.resetWaits } ∧
      q.finishes d { result := .ok, first := 1022, second := 0, value := (BitVec.ofNat 32 n).toNat } := by
  intro q
  obtain ⟨t, ht⟩ : ∃ t : Part, t = Part.switchOnSteady (Part.formatTables { p with jnc := { Jnc.reset with
    engine := p.jnc.engine, serial := BitVec.ofNat 32 n, notErased := []
    closing := p.jnc.closing, resetWaits := p.jnc.resetWaits } }) := ⟨_, rfl⟩
  have run : q = ((t.setEngine .running).postAll.finishDocket
      { result := .ok, first := 1022, second := 0, value := (BitVec.ofNat 32 n).toNat }) := by rw [ht]; rfl
  rw [Part.formatTables_eq, Part.switchOnSteady_reset rfl] at ht
  have held : (t.setEngine .running).postAll.exi.inHand = some d := by
    rw [Part.setEngine_eq, ht]
    exact inHand
  obtain ⟨same, sets⟩ := Part.setEngine_cause .running t
  rw [run, Part.finishDocket_spec held]
  refine ⟨?_, fun was => ?_, fun was => ?_, ?_, ?_, rfl⟩
  · have tables : t.setEngine .running = { t with
        jnc := (t.setEngine .running).jnc, exi := (t.setEngine .running).exi } := by rw [Part.setEngine_eq]
    refine ⟨?_, ?_, ?_, ?_, ?_, ?_, ?_, rfl, rfl, by simp only [Part.postAll]⟩
    all_goals
      rw [tables, ht]
      rfl
  · refine (same (by rw [ht]; exact was)).trans ?_
    rw [ht]
  · exact sets (.inl (by rw [ht]; exact was))
  · rw [Part.setEngine_eq, ht]
    rfl
  · rw [Part.setEngine_eq, ht]
    rfl

theorem Part.formatFailed_spec {d : InHand} {p : Part} (inHand : p.exi.inHand = some d)
    (raised : p.exi.cause.getLsbD 2 = true) : let q := p.formatFailed
    p.Formatted false q ∧ q.exi.cause.getLsbD 2 = true ∧ q.flash = p.flash ∧
      q.jnc = { p.jnc with engine := .blank, format := none, dropTime := none, markStaged := false, dropMarkAt := none
                           endStaged := false, outage := 0 } ∧
      q.finishes d (plainAnswer .wrongState) := by
  intro q
  obtain ⟨t, ht⟩ : ∃ t : Part, t = Part.formatTables { p with jnc := { p.jnc with
    format := none, dropTime := none, markStaged := false, dropMarkAt := none, endStaged := false
    outage := 0 } } := ⟨_, rfl⟩
  have run : q = (t.setEngine .blank).postAll.refuseDocket .wrongState := by rw [ht]; rfl
  rw [Part.formatTables_eq] at ht
  have held : (t.setEngine .blank).postAll.exi.inHand = some d := by
    rw [Part.setEngine_eq, ht]
    exact inHand
  obtain ⟨-, sets⟩ := Part.setEngine_cause .blank t
  rw [run, Part.refuseDocket_spec held]
  refine ⟨?_, sets (.inr (by rw [ht]; exact raised)), ?_, ?_, rfl⟩
  · have tables : t.setEngine .blank = { t with
        jnc := (t.setEngine .blank).jnc, exi := (t.setEngine .blank).exi } := by rw [Part.setEngine_eq]
    refine ⟨?_, ?_, ?_, ?_, ?_, ?_, ?_, rfl, rfl, by simp only [Part.refusedWith, Part.postAll]⟩
    all_goals
      rw [tables, ht]
      rfl
  · rw [Part.setEngine_eq, ht]
    rfl
  · rw [Part.setEngine_eq, ht]
    rfl

/-- The journal just formatted calls for nothing. -/
theorem Part.pump_formatted {p : Part} {n : BitVec 32} {waits : Bool} (fresh : p.jnc = { Jnc.reset with
    engine := .running, serial := n, notErased := [], resetWaits := waits }) : p.pump = p := by
  obtain ⟨open_, unformatted, free, whole, empty, intact⟩ : p.jnc.closing = none ∧ p.jnc.format = none ∧
      p.jnc.port.job = none ∧ p.jnc.port.suspended = none ∧ p.jnc.queue = [] ∧ p.jnc.journal = .ok := by
    rw [fresh]
    exact ⟨rfl, rfl, rfl, rfl, rfl, rfl⟩
  have place : p.jnc.headPos < 64 ∧ p.jnc.sectorCounted = true := by
    rw [fresh]
    exact ⟨Nat.zero_lt_succ _, rfl⟩
  rw [Part.pump_arbitrates open_ unformatted free (by rw [intact]; decide)]
  exact Part.arbitrate_rests (Part.commitDue_empty empty place.1 fun _ => place.2) whole open_

/-- R165, R173: the failure of the journal ends a FORMAT that was erasing or writing its entry. -/
theorem Part.failJournal_format {d : InHand} {f : FormatRecord} {p : Part} (inHand : p.exi.inHand = some d)
    (formats : p.jnc.format = some f) (stage : f.stage = .erasing ∨ f.stage = .entry) (open_ : p.jnc.closing = none) :
    let q := p.failJournal
    p.Formatted false q ∧ q.exi.cause.getLsbD 2 = true ∧ q.flash = p.flash ∧ q.jnc.engine = .blank ∧
      q.jnc.journal = .failed ∧ q.jnc.format = none ∧ q.jnc.queue = [] ∧ q.finishes d (plainAnswer .wrongState) := by
  intro q
  obtain ⟨t, ht⟩ : ∃ t : Part, t = Part.raise .engine (Part.postHeader (p.onJnc fun j =>
    { j with journal := .failed, queue := [], waiting := [], compaction := .idle, port := .reset })) := ⟨_, rfl⟩
  have undecided : p.markDurable = p := by
    unfold Part.markDurable
    split
    · exact if_neg fun ⟨_, none_⟩ => by rw [formats] at none_; cases none_
    · rfl
  have raised : t.exi.cause.getLsbD 2 = true := by
    rw [ht]
    exact Part.raise_sets .engine _
  have made := ht.symm
  rw [Part.raise_eq] at ht
  have later : ¬ (f.stage = .drain ∨ f.stage = .stopped) := by
    rcases stage with h | h <;> rw [h] <;> decide
  obtain ⟨formats', open', held⟩ : t.jnc.format = some f ∧ t.jnc.closing = none ∧ t.exi.inHand = some d := by
    rw [ht]
    exact ⟨formats, open_, inHand⟩
  obtain ⟨tables, cause, flash, jnc, ends⟩ := Part.formatFailed_spec held raised
  have closed : t.formatFailed.jnc.closing = none := by rw [jnc]; exact open'
  have run : q = t.formatFailed := by
    show p.failJournal = _
    unfold Part.failJournal
    simp only [undecided, made, formats', if_neg later, closed]
  rw [run, jnc]
  refine ⟨?_, cause, flash.trans (by rw [ht]; rfl), rfl, by rw [ht]; rfl, rfl, by rw [ht]; rfl, ends⟩
  rw [ht] at tables ⊢
  exact tables

/-! ### The obligation -/

/-- A failed operation of a FORMAT, the second failure in a row. -/
theorem Part.countFailure_format {d : InHand} {f : FormatRecord} {p : Part} (inHand : p.exi.inHand = some d)
    (formats : p.jnc.format = some f) (stage : f.stage = .erasing ∨ f.stage = .entry) (open_ : p.jnc.closing = none)
    (again : 1 ≤ p.jnc.failures) (retry : Part → Part) : let q := p.countFailure retry
    p.Formatted false q ∧ q.exi.cause.getLsbD 2 = true ∧ q.flash = p.flash ∧ q.jnc.engine = .blank ∧
      q.jnc.journal = .failed ∧ q.jnc.format = none ∧ q.jnc.queue = [] ∧ q.finishes d (plainAnswer .wrongState) := by
  have fails : p.countFailure retry = Part.failJournal { p with jnc := { p.jnc with failures := 2 } } :=
    if_pos (by omega)
  rw [fails]
  exact Part.failJournal_format (p := { p with jnc := { p.jnc with failures := 2 } }) inHand formats stage open_

/-- Settles O47. -/
theorem formatErasesFromSectorZero : Obligations.FormatErasesFromSectorZero := by
  refine ⟨?_, ?_⟩
  · intro s d id on hands p
    have inHand : p.exi.inHand = some d := hands.1
    refine ⟨fun bars => ?_, fun known known' valid state free whole empty => ?_⟩
    · rw [exec_format on hands]
      refine next_congr (Part.formatDocket_refused inHand (Bool.eq_false_iff.2 fun may => ?_))
      obtain ⟨state, valid, known, known'⟩ := (Part.mayFormat_iff p).1 may
      rcases bars with h | h | h | h | h | ⟨h, i, live⟩
      · exact known h
      · exact known' h
      · rw [valid] at h; cases h
      · rw [h] at state; simp at state
      · rw [h] at state; simp at state
      · rw [h] at state; simp at state; exact live (state i)
    · intro serial
      rw [exec_format on hands]
      exact next_congr (Part.formatDocket_begins inHand ((Part.mayFormat_iff p).2 ⟨state, valid, known, known'⟩)
        free whole empty)
  · intro s d f on p j starts body bus tables inHand formats open_ prompt
    refine ⟨fun n job => ⟨fun more => ?_, fun last => ?_⟩, fun job length blank => ?_, fun job => ?_,
      fun again stage => ?_⟩
    · rw [exec_eraseComplete on, Part.eraseComplete_format job prompt]
      exact next_congr ((Part.eraseDone_format
        (p := { p with flash := { p.flash with cells := p.flash.cells.clear (n * 4096) 4096 } }) formats).1 more)
    · rw [exec_eraseComplete on, Part.eraseComplete_format job prompt]
      exact next_congr ((Part.eraseDone_format
        (p := { p with flash := { p.flash with cells := p.flash.cells.clear (n * 4096) 4096 } }) formats).2 last)
    · rw [exec_programComplete on,
        Part.programComplete_blank job prompt (Part.programTarget_formatBody formats) length blank]
      rfl
    · obtain ⟨r, hr⟩ : ∃ r : Part, r = Part.freePort (Part.onJnc (fun j => { j with failures := 0 })
        { p with flash := { p.flash with cells := p.flash.cells.write flashBlank 63 [0] } }) := ⟨_, rfl⟩
      obtain ⟨inHand', formats', open'⟩ : r.exi.inHand = some d ∧ r.jnc.format = some f ∧ r.jnc.closing = none := by
        rw [hr]
        exact ⟨inHand, formats, open_⟩
      have runs : s.part.programComplete .done = (r.formatDone f.serial).pump := by
        rw [Part.programComplete_mark (a := 63) job prompt rfl, hr]
        simp only [Part.programDone, Part.freePort, Part.onPort, Part.onJnc]
        rw [show s.part.jnc.format = some f from formats]
      obtain ⟨ends, same, sets, flash, jnc, finishes⟩ := Part.formatDone_spec (n := f.serial) inHand'
      rw [open'] at jnc
      rw [Part.pump_formatted (waits := r.jnc.resetWaits) jnc] at runs
      refine ⟨_, exec_programComplete on, ?_⟩
      rw [runs]
      rw [hr] at *
      exact ⟨ends, same, sets, flash, jnc, finishes⟩
    · intro failed
      refine ⟨fun n job => ⟨_, exec_eraseComplete on, ?_⟩, fun job => ⟨_, exec_programComplete on, ?_⟩⟩
      · rw [Part.eraseComplete_latch job prompt]
        exact Part.countFailure_format inHand formats stage open_ again _
      · rcases job with job | job
        · rw [Part.programComplete_latch job prompt]
          exact Part.countFailure_format inHand formats stage open_ again _
        · rw [Part.programComplete_latch job prompt]
          exact Part.countFailure_format inHand formats stage open_ again _

end Sys2Proof.Machine

/-! ## Replay of one entry (O27) -/

namespace Sys2Proof.Machine

/-! ### Tables changed record by record -/

/-- What a run over distinct numbers leaves alone. -/
theorem foldl_keeps {ι β : Type} {step : Part → ι → Part} {K : Part → β} (keeps : ∀ p i, K (step p i) = K p)
    (is : List ι) (p : Part) : K (is.foldl step p) = K p := by
  induction is generalizing p with
  | nil => rfl
  | cons i is ih => rw [List.foldl_cons, ih, keeps]

/-- A run over distinct numbers that changes the record of each, by what it leaves alone, has changed each once. -/
theorem foldl_each {n : Nat} {α β : Type} {get : Part → Fin n → α} {step : Part → Fin n → Part} {K : Part → β}
    {f : β → Fin n → α → α} (keeps : ∀ p i, K (step p i) = K p)
    (each : ∀ p i j, get (step p i) j = if i = j then f (K p) i (get p i) else get p j) (is : List (Fin n))
    (distinct : is.Nodup) (p : Part) (j : Fin n) :
    get (is.foldl step p) j = if j ∈ is then f (K p) j (get p j) else get p j := by
  induction is generalizing p with
  | nil => simp
  | cons i is ih =>
    obtain ⟨fresh, distinct⟩ := List.nodup_cons.1 distinct
    rw [List.foldl_cons, ih distinct, each, keeps]
    by_cases same : i = j
    · subst same
      simp [fresh]
    · simp [same, Ne.symm same]

/-- The part with every slot free: what a change of slots leaves alone. -/
def Part.emptied (p : Part) : Part := { p with ctu := { p.ctu with slots := Vector.replicate 2048 none } }

/-- Every live record changed in place. -/
def Part.mapSlots (F : Part → Container → Container) (p : Part) : Part :=
  p.liveSlots.foldl (fun p i => match p.slot i with
    | some c => p.setSlot i (some (F p c))
    | none => p) p

theorem Part.mapSlots_spec {F : Part → Container → Container} (blind : ∀ p c, F p.emptied c = F p c) (p : Part) :
    (p.mapSlots F).emptied = p.emptied ∧ ∀ j, (p.mapSlots F).slot j = (p.slot j).map (F p) := by
  have keeps (p : Part) (i : Fin 2048) : Part.emptied (match p.slot i with
      | some c => p.setSlot i (some (F p c))
      | none => p) = p.emptied := by
    cases p.slot i <;> rfl
  refine ⟨foldl_keeps keeps p.liveSlots p, fun j => ?_⟩
  have each (p : Part) (i j : Fin 2048) : Part.slot (match p.slot i with
      | some c => p.setSlot i (some (F p c))
      | none => p) j = if i = j then (p.slot i).map (F p.emptied) else p.slot j := by
    cases live : p.slot i with
    | none =>
      by_cases same : i = j
      · rw [if_pos same, ← same]
        exact live
      · rw [if_neg same]
    | some c =>
      dsimp only
      rw [Part.slot_setSlot, Option.map_some, blind]
  have run := foldl_each (f := fun e _ => Option.map (F e)) keeps each p.liveSlots p.liveSlots_nodup p j
  rw [show F p.emptied = F p from funext (blind p)] at run
  refine run.trans ?_
  by_cases live : p.slot j = none
  · rw [live]
    simp
  · rw [if_pos (Part.mem_liveSlots.2 live)]

section
variable {p q : Part}

theorem Part.zone_of_emptied (h : q.emptied = p.emptied) (z : Fin 64) : q.zone z = p.zone z := by
  show q.emptied.zone z = p.emptied.zone z
  rw [h]

theorem Part.eq_of_emptied (h : q.emptied = p.emptied) :
    q = { p with ctu := { p.ctu with slots := q.ctu.slots } } := by
  show { q.emptied with ctu := { q.emptied.ctu with slots := q.ctu.slots } } = _
  rw [h]
  rfl
end

/-! ### A container image and a retire entry -/

theorem Part.withMode_eq (p : Part) (c : Container) : p.withMode c = { c with
    mode := (p.withMode c).mode, bakeRunStart := (p.withMode c).bakeRunStart } := rfl

theorem limitRule_custody (k : ClassDef) (c : Container) : (limitRule k c).custody =
    if (c.custody = .opened ∨ c.custody = .sealed) ∧ k.limit ≤ c.exposure then .expired else c.custody := by
  unfold limitRule
  by_cases limit : (c.custody = .opened ∨ c.custody = .sealed) ∧ k.limit ≤ c.exposure
  · rw [if_pos limit, if_pos ⟨limit.1.symm, limit.2⟩]
    rfl
  · rw [if_neg limit, if_neg fun h => limit ⟨h.1.symm, h.2⟩]

/-- The record that a container image gives (R44). -/
theorem ContainerImage.record_spec (k : ClassDef) (i : ContainerImage) : i.record k =
    { id := i.id, cls := i.cls, custody := (i.record k).custody, zone := i.zone
      mode := (i.record k).mode, exposure := i.exposure, settled := i.settled, zoneEntry := i.zoneEntry
      lastMove := i.lastMoveZone.map fun z => (z, i.zoneEntry), warned := i.warned, bakeCount := i.bakeCount
      bakedThisStay := i.bakedThisStay, bakeProgress := none, bakeRunStart := none
      quarantineCause := i.quarantineCause, parent := i.parent, enrolled := i.enrolled, warnDue := none
      expireDue := none, dirty := false } := limitRule_eq k _

theorem ContainerImage.record_custody (k : ClassDef) (i : ContainerImage) : (i.record k).custody =
    (let base := if i.custody = .baking then Custody.opened else i.custody
     if (base = .opened ∨ base = .sealed) ∧ k.limit ≤ i.exposure then .expired else base) := limitRule_custody k _

theorem Part.replayImage_spec {i : ContainerImage} {p : Part} (unique : p.idsUnique) :
    (p.replayImage i).slot i.slot = some (p.withMode (i.record (p.classDef i.cls))) ∧
    ∀ j, j ≠ i.slot → (i.id ≠ 0 ∧ p.holdsId j i.id → (p.replayImage i).slot j = none) ∧
      (i.id = 0 ∨ ¬p.holdsId j i.id → (p.replayImage i).slot j = p.slot j) := by
  have enters (q : Part) (c : Container) (j : Fin 2048) (other : j ≠ i.slot) :
      (q.setSlot i.slot (some c)).slot j = q.slot j := Part.slot_setSlot_of_ne other.symm ..
  cases found : p.findId i.id with
  | none =>
    have run : p.replayImage i = p.setSlot i.slot (some (p.withMode (i.record (p.classDef i.cls)))) := by
      simp only [Part.replayImage, found]
    have holds (j : Fin 2048) (named : i.id ≠ 0) : ¬p.holdsId j i.id :=
      Part.not_holdsId_of_findId (by rw [found]; rfl) named j
    rw [run]
    exact ⟨Part.slot_setSlot_self .., fun j other =>
      ⟨fun ⟨named, held⟩ => absurd held (holds j named), fun _ => enters _ _ j other⟩⟩
  | some k =>
    obtain ⟨named, d, live, same⟩ := Part.findId_some found
    have only (j : Fin 2048) (held : p.holdsId j i.id) : j = k := by
      obtain ⟨c, here, id⟩ := held
      exact unique j k c d here live (id.trans same.symm) (id ▸ named)
    by_cases there : k = i.slot
    · have run : p.replayImage i = p.setSlot i.slot (some (p.withMode (i.record (p.classDef i.cls)))) := by
        simp only [Part.replayImage, found, there, if_true]
      rw [run]
      exact ⟨Part.slot_setSlot_self .., fun j other =>
        ⟨fun ⟨_, held⟩ => absurd ((only j held).trans there) other, fun _ => enters _ _ j other⟩⟩
    · have run : p.replayImage i =
          (p.setSlot k none).setSlot i.slot (some (p.withMode (i.record (p.classDef i.cls)))) := by
        simp only [Part.replayImage, found, there, if_false]
        rfl
      rw [run]
      refine ⟨Part.slot_setSlot_self .., fun j other => ⟨fun ⟨_, held⟩ => ?_, fun unheld => ?_⟩⟩
      · rw [enters _ _ j other, only j held, Part.slot_setSlot_self]
      · have differs : k ≠ j := fun at_ => unheld.elim named fun no => no (at_ ▸ ⟨d, live, same⟩)
        rw [enters _ _ j other, Part.slot_setSlot_of_ne differs]

theorem Part.replayRetire_spec (i : Fin 2048) (id : ContainerId) (p : Part) :
    (p.holdsId i id → (p.replayRetire i id).slot i = none) ∧
    (¬p.holdsId i id → (p.replayRetire i id).slot i = p.slot i) ∧
    ∀ j, j ≠ i → (p.replayRetire i id).slot j = p.slot j := by
  by_cases held : p.holdsId i id
  · obtain ⟨c, live, same⟩ := held
    have run : p.replayRetire i id = p.setSlot i none := by simp only [Part.replayRetire, live, same, if_true]
    rw [run]
    exact ⟨fun _ => Part.slot_setSlot_self .., fun no => absurd ⟨c, live, same⟩ no,
      fun j other => Part.slot_setSlot_of_ne other.symm ..⟩
  · have run : p.replayRetire i id = p := by
      unfold Part.replayRetire
      split
      · next c live => exact if_neg fun same => held ⟨c, live, same⟩
      · rfl
    rw [run]
    exact ⟨fun h => absurd h held, fun _ => rfl, fun _ _ => rfl⟩

/-! ### A zone image and a ZONE_CONDITION -/

/-- The record that a replayed condition change of zone `z` at `t` leaves of a container (R71). -/
def Part.conditionChanged (z : Fin 64) (t : Nat) (keep : Bool) (p : Part) (c : Container) : Container :=
  if c.zone = z then
    { (p.deriveRecord keep (settleRecord (p.classDef c.cls) t c).1).1 with warnDue := none, expireDue := none }
  else c

theorem Part.setSlot_same {i : Fin 2048} {c : Container} {p : Part} (live : p.slot i = some c) :
    p.setSlot i (some c) = p := by
  have same : p.ctu.slots.set i (some c) = p.ctu.slots := by
    rw [← live]
    exact Vector.set_getElem_self ..
  unfold Part.setSlot
  rw [same]

theorem Part.replayChange_eq (z : Fin 64) (t : Nat) (condition : Option Condition) (p : Part) :
    p.replayChange z t condition =
      (p.putZone z { p.zone z with condition := condition, conditionTime := t }).mapSlots
        (Part.conditionChanged z t (staysDrying (p.zone z).condition condition)) := by
  unfold Part.replayChange Part.mapSlots
  dsimp only
  congr 1
  funext q i
  cases live : q.slot i with
  | none => rfl
  | some c =>
    by_cases inside : c.zone = z
    · exact (if_pos inside).trans (congrArg (fun c => q.setSlot i (some c)) (if_pos inside).symm)
    · exact (if_neg inside).trans ((Part.setSlot_same live).symm.trans
        (congrArg (fun c => q.setSlot i (some c)) (if_neg inside).symm))

/-- A replayed condition change writes the zone's condition and carries it to the records of the zone. -/
theorem Part.replayChange_spec (z : Fin 64) (t : Nat) (condition : Option Condition) (p : Part) :
    let p' := p.putZone z { p.zone z with condition := condition, conditionTime := t }
    (p.replayChange z t condition).emptied = p'.emptied ∧ ∀ j, (p.replayChange z t condition).slot j =
      (p.slot j).map (Part.conditionChanged z t (staysDrying (p.zone z).condition condition) p') := by
  rw [Part.replayChange_eq]
  exact Part.mapSlots_spec (fun _ _ => rfl) _

theorem Part.replayZone_spec (z : Fin 64) (i : ZoneImage) (p : Part) : let y := (p.replayZone z i).zone z
    y.config = i.config ∧ y.condition = i.condition ∧ y.conditionTime = i.conditionTime.getD 0 ∧ y.held = i.held ∧
      y.bands = i.bands ∧ y.walked = i.walked ∧ y.doorOpen = i.doorOpen := by
  intro y
  obtain ⟨q, hq⟩ : ∃ q, q = p.putZone z { p.zone z with
    config := i.config, doorOpen := i.doorOpen, held := i.held, bands := i.bands, walked := i.walked } := ⟨_, rfl⟩
  have record : q.zone z = { p.zone z with
      config := i.config, doorOpen := i.doorOpen, held := i.held, bands := i.bands, walked := i.walked } := by
    rw [hq, Part.zone_putZone_self]
  by_cases same : i.condition = (p.zone z).condition
  · have run : p.replayZone z i = q.putZone z { q.zone z with conditionTime := i.conditionTime.getD 0 } := by
      rw [hq]
      exact if_pos same
    have now : y = { q.zone z with conditionTime := i.conditionTime.getD 0 } := by
      show (p.replayZone z i).zone z = _
      rw [run, Part.zone_putZone_self]
    rw [now, record, same]
    exact ⟨rfl, rfl, rfl, rfl, rfl, rfl, rfl⟩
  · have run : p.replayZone z i = q.replayChange z (i.conditionTime.getD 0) i.condition := by
      rw [hq]
      exact if_neg same
    have now : y = { q.zone z with condition := i.condition, conditionTime := i.conditionTime.getD 0 } := by
      show (p.replayZone z i).zone z = _
      rw [run, Part.zone_of_emptied (Part.replayChange_spec ..).1, Part.zone_putZone_self]
    rw [now, record]
    exact ⟨rfl, rfl, rfl, rfl, rfl, rfl, rfl⟩

/-- A record of the zone, settled to the time of the change, with the mode that the new condition gives it. -/
theorem Part.conditionChanged_spec {z : Fin 64} {t : Nat} {keep : Bool} {p : Part} {c : Container} (inside : c.zone =
    z) :
    let c' := p.conditionChanged z t keep c
    c'.id = c.id ∧ c'.settled = max c.settled t ∧ c'.exposure = (settleRecord (p.classDef c.cls) t c).1.exposure ∧
      ∀ m, c'.custody = .opened → (p.zone z).condition = some (.exposing m) → c'.mode = .accrue m := by
  intro c'
  have record : c' = { (p.deriveRecord keep (settleRecord (p.classDef c.cls) t c).1).1 with
      warnDue := none, expireDue := none } := if_pos inside
  obtain ⟨id, cls, zone⟩ := settleRecord_ids (p.classDef c.cls) t c
  rw [record, Part.deriveRecord_eq]
  refine ⟨id, settleRecord_settled_max .., rfl, fun m opened exposing => ?_⟩
  show deriveMode _ _ _ _ _ = _
  rw [zone, inside, exposing]
  exact if_pos (.inl opened)

theorem Part.replayCondition_spec (z : Fin 64) (i : ZoneConditionImage) (p : Part) :
    let y := (p.replayCondition z i).zone z
    (y.config = (p.zone z).config ∧ y.condition = i.condition ∧ y.conditionTime = i.time ∧ y.held = i.held) ∧
    ∀ j c, p.slot j = some c → (c.zone ≠ z → (p.replayCondition z i).slot j = some c) ∧
      (c.zone = z → ∃ c', (p.replayCondition z i).slot j = some c' ∧ c'.id = c.id ∧ c'.settled = max c.settled i.time ∧
        c'.exposure = (settleRecord (p.classDef c.cls) i.time c).1.exposure ∧
        ∀ m, c'.custody = .opened → i.condition = some (.exposing m) → c'.mode = .accrue m) := by
  intro y
  obtain ⟨q, hq⟩ : ∃ q, q = p.putZone z { p.zone z with held := i.held, bands := i.bands, walked := i.walked } :=
    ⟨_, rfl⟩
  have record : q.zone z = { p.zone z with held := i.held, bands := i.bands, walked := i.walked } := by
    rw [hq, Part.zone_putZone_self]
  have run : p.replayCondition z i = q.replayChange z i.time i.condition := by rw [hq]; rfl
  obtain ⟨frame, slots⟩ := q.replayChange_spec z i.time i.condition
  obtain ⟨r, hr⟩ : ∃ r, r = q.putZone z { q.zone z with condition := i.condition, conditionTime := i.time } := ⟨_, rfl⟩
  rw [← run, ← hr] at frame slots
  have changed : r.zone z = { q.zone z with condition := i.condition, conditionTime := i.time } := by
    rw [hr, Part.zone_putZone_self]
  refine ⟨?_, fun j c live => ?_⟩
  · have now : y = r.zone z := Part.zone_of_emptied frame z
    rw [now, changed, record]
    exact ⟨rfl, rfl, rfl, rfl⟩
  · have before : q.slot j = some c := by rw [hq]; exact live
    have classDef : r.classDef c.cls = p.classDef c.cls := by rw [hr, hq]; rfl
    have now := slots j
    rw [before, Option.map_some] at now
    refine ⟨fun outside => ?_, fun inside => ⟨_, now, ?_⟩⟩
    · rw [now, Part.conditionChanged, if_neg outside]
    · obtain ⟨id, settled, exposure, mode⟩ := Part.conditionChanged_spec (t := i.time) (p := r)
        (keep := staysDrying (q.zone z).condition i.condition) inside
      rw [classDef] at exposure
      exact ⟨id, settled, exposure, fun m opened exposing => mode m opened (by rw [changed]; exact exposing)⟩

/-! ### The groups and the outputs -/

theorem Part.replayGroups_spec (v : GroupsImage) (p : Part) :
    (∀ g : Fin 4, ((p.replayGroups v).group g).cycled = v.modes[g] ∧ ((p.replayGroups v).group g).lead = v.leads[g]) ∧
    (p.replayGroups v).prc.busA.fast = v.fastA ∧ (p.replayGroups v).prc.busB.fast = v.fastB := by
  refine ⟨fun g => ?_, rfl, rfl⟩
  have run := foldl_each (get := Part.group) (K := fun _ => ()) (fun _ _ => rfl)
    (step := fun p n => p.setGroup n { p.group n with cycled := v.modes[n], lead := v.leads[n] })
    (f := fun _ n r => { r with cycled := v.modes[n], lead := v.leads[n] })
    (fun p i j => Part.group_setGroup i j _ p) (List.finRange 4) (List.nodup_finRange 4) p g
  rw [if_pos (List.mem_finRange g)] at run
  have now : (p.replayGroups v).group g = { p.group g with cycled := v.modes[g], lead := v.leads[g] } := run
  rw [now]
  exact ⟨rfl, rfl⟩

theorem Part.replayOutputs_spec (v : OutputsImage) (p : Part) : let o := p.replayOutputs v
    (∀ n : Fin 8, (o.lineHold n).override = v.overrides[n] ∧ (o.lamp n).zone = v.lampZones[n]) ∧
      o.dou.calm = v.calm ∧ o.dou.warn = v.warn ∧ o.dou.hold = v.hold ∧ o.dou.stepPeriod = v.stepPeriod := by
  intro o
  refine ⟨fun n => ?_, rfl, rfl, rfl, rfl⟩
  obtain ⟨q, hq⟩ : ∃ q, q = (List.finRange 8).foldl
    (fun p n => Part.setLineHold n { p.lineHold n with override := v.overrides[n] } p) p := ⟨_, rfl⟩
  have hold := foldl_each (get := Part.lineHold) (K := fun _ => ()) (fun _ _ => rfl)
    (step := fun p n => p.setLineHold n { p.lineHold n with override := v.overrides[n] })
    (f := fun _ n r => { r with override := v.overrides[n] })
    (fun p i j => Part.lineHold_setLineHold i j _ p) (List.finRange 8) (List.nodup_finRange 8) p n
  have lamp := foldl_each (get := Part.lamp) (K := fun _ => ()) (fun _ _ => rfl)
    (step := fun p n => p.setLamp n { p.lamp n with zone := v.lampZones[n] })
    (f := fun _ n r => { r with zone := v.lampZones[n] })
    (fun p i j => Part.lamp_setLamp i j _ p) (List.finRange 8) (List.nodup_finRange 8) q n
  have holds := foldl_keeps (K := Part.lineHold) (step :=
      fun p n => p.setLamp n { p.lamp n with zone := v.lampZones[n] })
    (fun _ _ => rfl) (List.finRange 8) q
  rw [if_pos (List.mem_finRange n)] at hold lamp
  rw [← hq] at hold
  have now : o.lineHold n = q.lineHold n := by
    rw [hq] at holds ⊢
    exact congrFun holds n
  have now' : o.lamp n = { q.lamp n with zone := v.lampZones[n] } := by
    rw [hq] at lamp ⊢
    exact lamp
  rw [now, now', hold]
  exact ⟨rfl, rfl⟩

/-! ### One entry -/

theorem Replay.derating_eq (r : Replay) (pl : Payload) : r.derating pl = { r with
    part := (r.derating pl).part, lower := (r.derating pl).lower, upper := (r.derating pl).upper } := by
  unfold Replay.derating
  split
  case h_3 => split <;> rfl
  all_goals rfl

/-- Only the edges, the last part of a derating image, reach the tables. -/
theorem Replay.derating_part {r : Replay} {pl : Payload} (other : ∀ t h, pl ≠ .edgesImage t h) :
    (r.derating pl).part = r.part := by
  unfold Replay.derating
  split
  case h_3 t h => exact absurd rfl (other t h)
  all_goals rfl

theorem Replay.marks_eq (r : Replay) (sector : Nat) (pl : Payload) : r.marks sector pl = { r with
    openDrop := (r.marks sector pl).openDrop, dropAt := (r.marks sector pl).dropAt
    imagedAfter := (r.marks sector pl).imagedAfter } := by
  cases pl <;> rfl

theorem Replay.step_skips {r : Replay} {sector : Nat} {pl : Payload} {read : EntryRead} (older : read.seq ≤ r.last) :
    r.step (sector, pl, read) = r := if_pos older

/-- What an entry applied leaves before the parts of a derating image and the marks of a resync are looked at. -/
def Replay.entered (r : Replay) (sector : Nat) (pl : Payload) (read : EntryRead) : Replay := { r with
  part := (r.part.replayEntry pl).onJnc fun j => { j with newest := match pl.object with
    | some o => (o, sector) :: j.newest.filter fun x => x.1 != o
    | none => j.newest }
  last := read.seq
  tLast := max r.tLast read.time }

theorem Replay.step_applies {r : Replay} {sector : Nat} {pl : Payload} {read : EntryRead} (newer : r.last < read.seq) :
    r.step (sector, pl, read) = ((r.entered sector pl read).derating pl).marks sector pl :=
  if_neg (Nat.not_le.2 newer)

theorem Replay.step_fields {r : Replay} {sector : Nat} {pl : Payload} {read : EntryRead} (newer : r.last < read.seq) :
    (r.step (sector, pl, read)).last = read.seq ∧ (r.step (sector, pl, read)).tLast = max r.tLast read.time := by
  rw [Replay.step_applies newer, Replay.marks_eq, Replay.derating_eq]
  exact ⟨rfl, rfl⟩

theorem Replay.step_part {r : Replay} {sector : Nat} {pl : Payload} {read : EntryRead} (newer : r.last < read.seq)
    (other : ∀ t h, pl ≠ .edgesImage t h) :
    ∃ j, (r.step (sector, pl, read)).part = { r.part.replayEntry pl with jnc := j } := by
  rw [Replay.step_applies newer, Replay.marks_eq]
  exact ⟨_, Replay.derating_part other⟩

/-- R162: the three parts of a derating image are applied together. -/
theorem Replay.step_derating {r : Replay} {sector : Nat} {read second third : EntryRead} (newer : r.last < read.seq)
    (later : read.seq < second.seq) (last : second.seq < third.seq) (lower upper : Vector Cell 24) (temp : Vector Int 5)
    (rh : Vector Nat 7) :
    let both := (r.step (sector, .cellsImage false lower, read)).step (sector, .cellsImage true upper, second)
    let whole := (both.step (sector, .edgesImage temp rh, third)).part.znu
    both.part.znu = r.part.znu ∧ whole.cells = lower ++ upper ∧ whole.tempEdges = temp ∧ whole.rhEdges = rh := by
  have first : r.step (sector, .cellsImage false lower, read) = { r.entered sector (.cellsImage false lower) read with
      lower := some lower, upper := none } := Replay.step_applies newer
  rw [first]
  have both : Replay.step { r.entered sector (.cellsImage false lower) read with lower := some lower, upper := none }
      (sector, .cellsImage true upper, second) = { Replay.entered
        { r.entered sector (.cellsImage false lower) read with lower := some lower, upper := none } sector
          (.cellsImage true upper) second with upper := some upper } := Replay.step_applies later
  rw [both]
  refine ⟨rfl, ?_⟩
  rw [Replay.step_applies last]
  exact ⟨rfl, rfl, rfl⟩

end Sys2Proof.Machine

/-! ## Replay and the tables rebuilt (O27) -/

namespace Sys2Proof.Machine

/-! ### What replay leaves alone -/

/-- No container is BAKING. -/
def Part.noneBakes (p : Part) : Prop := ∀ i c, p.slot i = some c → c.custody ≠ .baking

/-- Replay reaches the tables alone, with the record of the newest entries, and puts no container into a bake (R44). -/
structure Part.Replays (p q : Part) : Prop where
  outside : p.sameOutside q
  exi : q.exi = p.exi
  jnc : q.jnc = { p.jnc with newest := q.jnc.newest }
  noneBakes : p.noneBakes → q.noneBakes

theorem Part.Replays.refl (p : Part) : p.Replays p := ⟨⟨rfl, rfl, rfl⟩, rfl, rfl, id⟩

theorem Part.Replays.trans {p q r : Part} (h : p.Replays q) (k : q.Replays r) : p.Replays r := by
  obtain ⟨host, flash, tbu⟩ := h.outside
  obtain ⟨host', flash', tbu'⟩ := k.outside
  refine ⟨⟨host'.trans host, flash'.trans flash, tbu'.trans tbu⟩, k.exi.trans h.exi, ?_, k.noneBakes ∘ h.noneBakes⟩
  rw [k.jnc, h.jnc]

theorem Part.Replays.foldl {ι : Type} {step : Part → ι → Part} (each : ∀ (p : Part) i, p.Replays (step p i))
    (is : List ι)
    (p : Part) : p.Replays (is.foldl step p) := by
  induction is generalizing p with
  | nil => exact .refl p
  | cons i is ih => exact (each p i).trans (ih _)

theorem Part.replays_of_slots {p q : Part} (outside : p.sameOutside q) (exi : q.exi = p.exi) (jnc : q.jnc = p.jnc)
    (slots : ∀ i, q.slot i = p.slot i) : p.Replays q :=
  ⟨outside, exi, by rw [jnc], fun calm i c live => calm i c (slots i ▸ live)⟩

theorem Part.replays_setSlot {i : Fin 2048} {o : Option Container} (p : Part) (calm : ∀ c, o = some c →
    c.custody ≠ .baking) :
    p.Replays (p.setSlot i o) := by
  refine ⟨⟨rfl, rfl, rfl⟩, rfl, rfl, fun before j c live => ?_⟩
  rw [Part.slot_setSlot] at live
  split at live
  · exact calm c live
  · exact before j c live

theorem Part.replays_frees (i : Fin 2048) (p : Part) : p.Replays (p.setSlot i none) :=
  p.replays_setSlot fun _ same => nomatch same

theorem Part.replays_setCls (n : Fin 16) (r : ClassRecord) (p : Part) : p.Replays (p.setCls n r) :=
  Part.replays_of_slots ⟨rfl, rfl, rfl⟩ rfl rfl fun _ => rfl

theorem Part.replays_setGroup (n : Fin 4) (r : PowerGroup) (p : Part) : p.Replays (p.setGroup n r) :=
  Part.replays_of_slots ⟨rfl, rfl, rfl⟩ rfl rfl fun _ => rfl

theorem Part.replays_setBus (b : Bus) (r : ProbeBus) (p : Part) : p.Replays (p.setBus b r) := by
  cases b <;> exact Part.replays_of_slots ⟨rfl, rfl, rfl⟩ rfl rfl fun _ => rfl

theorem Part.replays_setLineHold (n : Fin 8) (r : LineHold) (p : Part) : p.Replays (p.setLineHold n r) :=
  Part.replays_of_slots ⟨rfl, rfl, rfl⟩ rfl rfl fun _ => rfl

theorem Part.replays_setLamp (n : Fin 8) (r : Lamp) (p : Part) : p.Replays (p.setLamp n r) :=
  Part.replays_of_slots ⟨rfl, rfl, rfl⟩ rfl rfl fun _ => rfl

theorem Part.replays_dou (d : Dou) (p : Part) : p.Replays { p with dou := d } :=
  Part.replays_of_slots ⟨rfl, rfl, rfl⟩ rfl rfl fun _ => rfl

theorem Part.replays_putZone (z : Fin 64) (r : Zone) (p : Part) : p.Replays (p.putZone z r) :=
  Part.replays_of_slots ⟨rfl, rfl, rfl⟩ rfl rfl fun _ => rfl

theorem ContainerImage.record_calm (k : ClassDef) (i : ContainerImage) : (i.record k).custody ≠ .baking := by
  obtain ⟨base, hbase⟩ : ∃ base, base = if i.custody = .baking then Custody.opened else i.custody := ⟨_, rfl⟩
  have calm : base ≠ .baking := by
    rw [hbase]
    split
    · decide
    · assumption
  rw [ContainerImage.record_custody, ← hbase]
  dsimp only
  split
  · decide
  · exact calm

theorem Part.replays_replayImage (i : ContainerImage) (p : Part) : p.Replays (p.replayImage i) := by
  have enters (q : Part) : q.Replays (q.setSlot i.slot (some (q.withMode (i.record (q.classDef i.cls))))) :=
    q.replays_setSlot fun c same => by
      obtain rfl := Option.some.inj same
      exact ContainerImage.record_calm _ i
  unfold Part.replayImage
  dsimp only
  split
  · split
    · exact enters p
    · exact (p.replays_frees _).trans (enters _)
  · exact enters p

theorem Part.replays_replayRetire (i : Fin 2048) (id : ContainerId) (p : Part) : p.Replays (p.replayRetire i id) := by
  unfold Part.replayRetire
  split
  · split
    · exact p.replays_frees i
    · exact .refl p
  · exact .refl p

theorem settleRecord_calm {k : ClassDef} {T : Nat} {c : Container} (calm : c.custody ≠ .baking) :
    (settleRecord k T c).1.custody ≠ .baking := by
  unfold settleRecord
  split
  · exact calm
  · dsimp only
    split
    case h_1 =>
      split
      · exact nofun
      · exact calm
    case h_5 =>
      split
      · exact nofun
      · exact calm
    all_goals exact calm

theorem Part.conditionChanged_calm {z : Fin 64} {t : Nat} {keep : Bool} {p : Part} {c : Container}
    (calm : c.custody ≠ .baking) : (p.conditionChanged z t keep c).custody ≠ .baking := by
  unfold Part.conditionChanged
  split
  · show (p.deriveRecord keep (settleRecord (p.classDef c.cls) t c).1).1.custody ≠ _
    rw [(Part.deriveRecord_spec ..).2.2]
    exact settleRecord_calm calm
  · exact calm

theorem Part.replays_replayChange (z : Fin 64) (t : Nat) (condition : Option Condition) (p : Part) :
    p.Replays (p.replayChange z t condition) := by
  obtain ⟨frame, slots⟩ := p.replayChange_spec z t condition
  have eq := Part.eq_of_emptied frame
  refine ⟨?_, ?_, ?_, fun calm j c live => ?_⟩
  · rw [eq]
    exact ⟨rfl, rfl, rfl⟩
  · rw [eq]
    rfl
  · rw [eq]
    rfl
  · rw [slots] at live
    obtain ⟨d, before, rfl⟩ := Option.map_eq_some_iff.1 live
    exact Part.conditionChanged_calm (calm j d before)

theorem Part.replays_replayZone (z : Fin 64) (i : ZoneImage) (p : Part) : p.Replays (p.replayZone z i) := by
  unfold Part.replayZone
  dsimp only
  split
  · exact (p.replays_putZone _ _).trans (Part.replays_putZone ..)
  · exact (p.replays_putZone _ _).trans (Part.replays_replayChange ..)

theorem Part.replays_replayCondition (z : Fin 64) (i : ZoneConditionImage) (p : Part) :
    p.Replays (p.replayCondition z i) := by
  unfold Part.replayCondition
  exact (p.replays_putZone _ _).trans (Part.replays_replayChange ..)

theorem Part.replays_replayGroups (g : GroupsImage) (p : Part) : p.Replays (p.replayGroups g) := by
  unfold Part.replayGroups
  exact ((Part.Replays.foldl (fun p n => p.replays_setGroup _ _) _ p).trans
    (Part.replays_setBus ..)).trans (Part.replays_setBus ..)

theorem Part.replays_replayOutputs (o : OutputsImage) (p : Part) : p.Replays (p.replayOutputs o) := by
  unfold Part.replayOutputs
  exact ((Part.Replays.foldl (fun p n => p.replays_setLineHold _ _) _ p).trans
    (Part.Replays.foldl (fun p n => p.replays_setLamp _ _) _ _)).trans (Part.replays_dou ..)

theorem Part.replays_replayEntry (pl : Payload) (p : Part) : p.Replays (p.replayEntry pl) := by
  cases pl
  case containerImage i => exact p.replays_replayImage i
  case retireEntry i id => exact p.replays_replayRetire i id
  case zoneImage z i => exact p.replays_replayZone z i
  case zoneCondition z i => exact p.replays_replayCondition z i
  case groupsImage g => exact p.replays_replayGroups g
  case outputsImage o => exact p.replays_replayOutputs o
  case classImage n i => exact p.replays_setCls _ _
  case engineImage v => exact Part.replays_of_slots ⟨rfl, rfl, rfl⟩ rfl rfl fun _ => rfl
  case probeImage n c => exact Part.replays_of_slots ⟨rfl, rfl, rfl⟩ rfl rfl fun _ => rfl
  case doorImage n d => exact Part.replays_of_slots ⟨rfl, rfl, rfl⟩ rfl rfl fun _ => rfl
  all_goals exact .refl p

theorem Replay.step_replays (r : Replay) (e : Nat × Payload × EntryRead) : r.part.Replays (r.step e).part := by
  obtain ⟨sector, pl, read⟩ := e
  by_cases older : read.seq ≤ r.last
  · rw [Replay.step_skips older]
    exact .refl _
  · rw [Replay.step_applies (Nat.not_le.1 older), Replay.marks_part]
    have enters : r.part.Replays (r.entered sector pl read).part :=
      (r.part.replays_replayEntry pl).trans ⟨⟨rfl, rfl, rfl⟩, rfl, rfl, id⟩
    refine enters.trans ?_
    unfold Replay.derating
    split
    case h_3 =>
      split
      · exact Part.replays_of_slots ⟨rfl, rfl, rfl⟩ rfl rfl fun _ => rfl
      · exact .refl _
    all_goals exact .refl _

theorem Replay.foldl_replays (es : List (Nat × Payload × EntryRead)) (r : Replay) :
    r.part.Replays (es.foldl Replay.step r).part := by
  induction es generalizing r with
  | nil => exact .refl _
  | cons e es ih => exact (r.step_replays e).trans (ih _)

theorem Part.replays_seedClasses (es : List (Nat × Payload × EntryRead)) (p : Part) : p.Replays (p.seedClasses es) := by
  refine Part.Replays.foldl (fun p e => ?_) es p
  split
  · exact p.replays_setCls _ _
  · exact .refl p

theorem Part.findJournal_frame (serial : Nat) (p : Part) : ∃ j, (p.findJournal serial).1 = { p with jnc := j } ∧
    j.engine = p.jnc.engine ∧ j.closing = p.jnc.closing := by
  unfold Part.findJournal
  dsimp only
  split
  · exact ⟨_, rfl, rfl, rfl⟩
  · exact ⟨_, rfl, rfl, rfl⟩

/-! ### The tables rebuilt -/

/-- A step of the rebuilding: use counts, working parts of zones, drives, shown patterns and alert counts. -/
structure Part.Rebuilds (p q : Part) : Prop where
  eq : q = { p with ctu := { p.ctu with classes := q.ctu.classes }, znu := { p.znu with zones := q.znu.zones }
                    dou := { p.dou with holds := q.dou.holds, lamps := q.dou.lamps }, dlu := q.dlu }
  defn : ∀ n, (q.cls n).defn = (p.cls n).defn
  zones : ∀ z, (q.zone z).config = (p.zone z).config ∧ (q.zone z).condition = (p.zone z).condition ∧
    (q.zone z).conditionTime = (p.zone z).conditionTime ∧ (q.zone z).held = (p.zone z).held
  override : ∀ n, (q.lineHold n).override = (p.lineHold n).override

theorem Part.Rebuilds.refl (p : Part) : p.Rebuilds p := ⟨rfl, fun _ => rfl, fun _ => ⟨rfl, rfl, rfl, rfl⟩, fun _ => rfl⟩

theorem Part.Rebuilds.trans {p q r : Part} (h : p.Rebuilds q) (k : q.Rebuilds r) : p.Rebuilds r := by
  refine ⟨?_, fun n => (k.defn n).trans (h.defn n), fun z => ?_, fun n => (k.override n).trans (h.override n)⟩
  · rw [k.eq, h.eq]
  · obtain ⟨config, condition, time, held⟩ := h.zones z
    obtain ⟨config', condition', time', held'⟩ := k.zones z
    exact ⟨config'.trans config, condition'.trans condition, time'.trans time, held'.trans held⟩

theorem Part.Rebuilds.foldl {ι : Type} {step : Part → ι → Part} (each : ∀ (p : Part) i, p.Rebuilds (step p i))
    (is : List ι)
    (p : Part) : p.Rebuilds (is.foldl step p) := by
  induction is generalizing p with
  | nil => exact .refl p
  | cons i is ih => exact (each p i).trans (ih _)

theorem Part.rebuilds_setCls {n : Fin 16} {r : ClassRecord} {p : Part} (same : r.defn = (p.cls n).defn) :
    p.Rebuilds (p.setCls n r) := by
  refine ⟨rfl, fun m => ?_, fun _ => ⟨rfl, rfl, rfl, rfl⟩, fun _ => rfl⟩
  rw [Part.cls_setCls]
  split
  · next at_ => rw [← at_, same]
  · rfl

theorem Part.rebuilds_useCount (n : Fin 16) (k : Nat)
    (p : Part) : p.Rebuilds (p.setCls n { p.cls n with useCount := k }) :=
  Part.rebuilds_setCls rfl

theorem Part.rebuilds_putZone (z : Fin 64) (records : List (Fin 2048 × Container)) (p : Part) :
    p.Rebuilds (p.putZone z ((p.zone z).rebuilt z records)) := by
  refine ⟨rfl, fun _ => rfl, fun y => ?_, fun _ => rfl⟩
  rw [Part.zone_putZone]
  split
  · next at_ =>
    rw [← at_]
    exact ⟨rfl, rfl, rfl, rfl⟩
  · exact ⟨rfl, rfl, rfl, rfl⟩

theorem Part.rebuilds_setLineHold {n : Fin 8} {r : LineHold} {p : Part} (same : r.override = (p.lineHold n).override) :
    p.Rebuilds (p.setLineHold n r) := by
  refine ⟨rfl, fun _ => rfl, fun _ => ⟨rfl, rfl, rfl, rfl⟩, fun m => ?_⟩
  rw [Part.lineHold_setLineHold]
  split
  · next at_ => rw [← at_, same]
  · rfl

theorem Part.rebuilds_deriveHold (n : Fin 8) (p : Part) : p.Rebuilds (p.deriveHold n) := Part.rebuilds_setLineHold rfl

theorem Part.rebuilds_deriveLamp (n : Fin 8) (p : Part) : p.Rebuilds (p.deriveLamp n) := by
  have sets (r : Lamp) : p.Rebuilds (p.setLamp n r) := ⟨rfl, fun _ => rfl, fun _ => ⟨rfl, rfl, rfl, rfl⟩, fun _ => rfl⟩
  unfold Part.deriveLamp
  dsimp only
  split
  · exact sets _
  · split
    · exact .refl p
    · exact sets _

theorem Part.rebuilds_bindOutput (z : Fin 64) (p : Part) : p.Rebuilds (p.bindOutput z) := by
  unfold Part.bindOutput
  split
  · exact Part.rebuilds_setLineHold rfl
  · exact .refl p

theorem Part.rebuilds_withRecords (records : List (Fin 2048 × Container)) (p : Part) :
    p.Rebuilds (p.withRecords records) := by
  unfold Part.withRecords
  refine .trans (Part.Rebuilds.foldl (fun p n => p.rebuilds_useCount n _) _ p)
    (Part.Rebuilds.foldl (fun p z => (p.rebuilds_putZone z records).trans ?_) _ _)
  exact Part.rebuilds_bindOutput z _

theorem Part.rebuilds_withDrives (p : Part) : p.Rebuilds p.withDrives :=
  Part.Rebuilds.foldl (fun p n => (p.rebuilds_deriveHold n).trans (Part.rebuilds_deriveLamp n (p.deriveHold n))) _ p

theorem Part.rebuilds_withLevels (records : List (Fin 2048 × Container)) (p : Part) :
    p.Rebuilds (p.withLevels records) := by
  unfold Part.withLevels
  exact ⟨rfl, fun _ => rfl, fun _ => ⟨rfl, rfl, rfl, rfl⟩, fun _ => rfl⟩

theorem Part.withModes_eq (p : Part) : p.withModes = p.mapSlots Part.withMode := by
  unfold Part.withModes Part.mapSlots
  congr 1

/-- The tables rebuilt: every live container has taken its mode, and the board is marked whole. -/
theorem Part.rebuild_frame (p : Part) : ∃ q w : Part, q.emptied = p.emptied ∧
    (∀ i, q.slot i = (p.slot i).map p.withMode) ∧ q.Rebuilds w ∧ p.rebuild = w.postAll := by
  obtain ⟨frame, slots⟩ := Part.mapSlots_spec (F := Part.withMode) (fun _ _ => rfl) p
  rw [← Part.withModes_eq] at frame slots
  refine ⟨p.withModes, _, frame, slots, ?_, p.rebuild_eq⟩
  exact ((Part.rebuilds_withRecords _ _).trans (Part.rebuilds_withDrives _)).trans (Part.rebuilds_withLevels _ _)

/-! ### The whole replay -/

/-- What the tables of `q` keep of those that replay left in `r`: all but the modes, and the working parts rebuilt. -/
structure Part.Restores (r q : Part) : Prop where
  slots : ∀ i, q.slot i = (r.slot i).map r.withMode
  settings : q.znu.settings = r.znu.settings
  cells : q.znu.cells = r.znu.cells
  tempEdges : q.znu.tempEdges = r.znu.tempEdges
  rhEdges : q.znu.rhEdges = r.znu.rhEdges
  defn : ∀ n, (q.cls n).defn = (r.cls n).defn
  probe : ∀ n, (q.probe n).config = (r.probe n).config
  zones : ∀ z, (q.zone z).config = (r.zone z).config ∧ (q.zone z).condition = (r.zone z).condition ∧
    (q.zone z).conditionTime = (r.zone z).conditionTime ∧ (q.zone z).held = (r.zone z).held
  line : ∀ n, (q.line n).zone = (r.line n).zone
  override : ∀ n, (q.lineHold n).override = (r.lineHold n).override

/-- Every door line awaits its sample (R95). -/
def Part.awaitSamples (p : Part) : Part := (List.finRange 16).foldl (fun p n => p.setLine n (p.line n).awaitSample) p

theorem Part.awaitSamples_spec (p : Part) :
    p.awaitSamples = { p with dou := { p.dou with lines := p.awaitSamples.dou.lines } } ∧
    ∀ n, p.awaitSamples.line n = (p.line n).awaitSample := by
  have frame := foldl_keeps (K := fun p => { p with dou := { p.dou with lines := Vector.replicate 16 DoorLine.reset } })
    (step := fun p n => Part.setLine n (p.line n).awaitSample p) (fun _ _ => rfl) (List.finRange 16) p
  refine ⟨?_, fun n => ?_⟩
  · have eq : { p.awaitSamples with dou := { p.awaitSamples.dou with lines := Vector.replicate 16 DoorLine.reset } } =
        { p with dou := { p.dou with lines := Vector.replicate 16 DoorLine.reset } } := frame
    obtain ⟨q, hq⟩ : ∃ q, q = p.awaitSamples := ⟨_, rfl⟩
    rw [← hq] at eq ⊢
    exact congrArg (fun p : Part => { p with dou := { p.dou with lines := q.dou.lines } }) eq
  · have run := foldl_each (get := Part.line) (K := fun _ => ()) (fun _ _ => rfl)
      (step := fun p n => Part.setLine n (p.line n).awaitSample p) (f := fun _ _ l => l.awaitSample)
      (fun p i j => Part.line_setLine i j _ p) (List.finRange 16) (List.nodup_finRange 16) p n
    rwa [if_pos (List.mem_finRange n)] at run

/-- What replay starts from. -/
def Part.replayStart (serial formatTime : Nat) (p : Part) : Replay :=
  { part := (p.findJournal serial).1.seedClasses (p.findJournal serial).2, last := 0, tLast := formatTime
    openDrop := none, dropAt := none, imagedAfter := [], lower := none, upper := none }

/-- What replay leaves once every committed entry found has been applied in order. -/
def Part.replayed (serial formatTime : Nat) (p : Part) : Replay :=
  (p.findJournal serial).2.foldl Replay.step (p.replayStart serial formatTime)

theorem Part.postAll_congr {p q : Part} (same : q.exi = p.exi) : q.postAll.exi = p.postAll.exi := by
  simp only [Part.postAll, same]

theorem Part.replayAll_spec {serial formatTime : Nat} {p : Part} (empty : ∀ i, p.slot i = none) :
    let r := p.replayed serial formatTime
    let q := p.replayAll serial formatTime
    p.sameOutside q ∧ q.noneBakes ∧ r.part.Restores q ∧
      (∀ n, (q.line n).sample = some (q.line n).filterTime ∧ (q.line n).timer = none) ∧ q.exi = p.postAll.exi ∧
      q.jnc.engine = p.jnc.engine ∧ q.jnc.closing = p.jnc.closing ∧
      q.jnc.restore = some { tLast := r.tLast, openDrop := r.openDrop, imagedAfter := r.imagedAfter, reconciled := false } := by
  intro r q
  obtain ⟨j, found, engine, closing⟩ := p.findJournal_frame serial
  have replays : { p with jnc := j }.Replays r.part := by
    rw [← found]
    exact (Part.replays_seedClasses _ _).trans (Replay.foldl_replays _ (p.replayStart serial formatTime))
  obtain ⟨u, w, frame, slots, rebuilds, rebuilt⟩ := r.part.rebuild_frame
  obtain ⟨v, hv⟩ : ∃ v, v = w.postAll.onJnc fun j => { j with
    dropMarkAt := r.dropAt
    restore := some { tLast := r.tLast, openDrop := r.openDrop, imagedAfter := r.imagedAfter, reconciled := false } } :=
    ⟨_, rfl⟩
  have run : q = v.awaitSamples := by
    rw [hv, ← rebuilt]
    rfl
  clear_value q r
  obtain ⟨awaits, lines⟩ := v.awaitSamples_spec
  rw [← run] at awaits lines
  have own : v.jnc = { w.jnc with
      dropMarkAt := r.dropAt
      restore := some { tLast := r.tLast, openDrop := r.openDrop, imagedAfter := r.imagedAfter
                        reconciled := false } } := by rw [hv]; rfl
  have fromW : q = { w.postAll with jnc := v.jnc, dou := { w.dou with lines := q.dou.lines } } := by
    rw [awaits, hv]
    rfl
  have fromU := rebuilds.eq
  have fromR := Part.eq_of_emptied frame
  have lineOf (n : Fin 16) : q.line n = (r.part.line n).awaitSample := by
    rw [lines, show v.line n = w.line n by rw [hv]; rfl, fromU, fromR]
    rfl
  have slotOf (i : Fin 2048) : q.slot i = u.slot i := by
    rw [fromW, fromU]
    rfl
  have outer : q.host = r.part.host ∧ q.flash = r.part.flash ∧ q.tbu = r.part.tbu ∧ q.exi = r.part.postAll.exi ∧
      w.jnc = r.part.jnc := by
    rw [fromW, fromU, fromR]
    exact ⟨rfl, rfl, rfl, rfl, rfl⟩
  obtain ⟨host, flash, tbu, exi, jnc⟩ := outer
  obtain ⟨host', flash', tbu'⟩ := replays.outside
  have journal : q.jnc = v.jnc := by rw [fromW]
  refine ⟨⟨host.trans host', flash.trans flash', tbu.trans tbu'⟩, fun i c live => ?_, ?_, fun n => ?_, exi.trans ?_,
    ?_, ?_, ?_⟩
  · rw [slotOf, slots] at live
    obtain ⟨d, before, rfl⟩ := Option.map_eq_some_iff.1 live
    exact replays.noneBakes (fun i c live => nomatch (empty i).symm.trans live) i d before
  · refine ⟨fun i => (slotOf i).trans (slots i), ?_, ?_, ?_, ?_, fun n => ?_, fun n => ?_, fun z => ?_, fun n => ?_,
      fun n => ?_⟩
    · rw [fromW, fromU, fromR]; rfl
    · rw [fromW, fromU, fromR]; rfl
    · rw [fromW, fromU, fromR]; rfl
    · rw [fromW, fromU, fromR]; rfl
    · have defn := rebuilds.defn n
      rw [fromR] at defn
      rw [fromW]
      exact defn
    · rw [fromW, fromU, fromR]; rfl
    · have zones := rebuilds.zones z
      rw [fromR] at zones
      rw [fromW]
      exact zones
    · rw [lineOf]; rfl
    · have override := rebuilds.override n
      rw [fromR] at override
      rw [fromW]
      exact override
  · rw [lineOf]
    exact ⟨rfl, rfl⟩
  · exact Part.postAll_congr replays.exi
  · rw [journal, own, jnc, replays.jnc]
    exact engine
  · rw [journal, own, jnc, replays.jnc]
    exact closing
  · rw [journal, own]

end Sys2Proof.Machine

/-! ## RESTORE (O27) -/

namespace Sys2Proof.Machine

theorem exec_restore {s : State} {input : RestoreInput} (on : s.part.tbu.mainPower = true) :
    exec (.restore input) s = .next (s.withPart ((s.part.hostStores input.stores).restore input.idReply)) :=
  exec_of_powered (f := fun p => (p.hostStores input.stores).restore input.idReply) rfl on rfl

/-- No sweep has been asked for in RESTORING. -/
theorem Part.leaveRestoring_quiet {p : Part} (quiet : p.exi.extraPass = false) : p.leaveRestoring = p := by
  have none_ : p.dueSweep = none := if_neg fun ⟨_, _, asked, _⟩ => by rw [quiet] at asked; cases asked
  rw [Part.leaveRestoring, none_]

theorem Part.restore_quiet {id : Byte} {p : Part} (restoring : p.jnc.engine = .restoring) (first : p.jnc.restore = none)
    (quiet : (p.restored id).exi.extraPass = false) : p.restore id = p.restored id := by
  have may : p.mayRestore = true := by simp [Part.mayRestore, restoring, first]
  exact (if_pos may).trans (Part.leaveRestoring_quiet quiet)

/-! ### The whole board stays marked -/

/-- Every zone and every slot is marked. -/
def Part.allPosted (p : Part) : Prop := p.exi.zoneMarks = List.finRange 64 ∧ p.exi.slotMarks = List.finRange 2048

theorem insertFin_of_mem {n : Nat} {x : Fin n} {xs : List (Fin n)} (sorted : xs.Pairwise (· < ·)) (inside : x ∈ xs) :
    insertFin x xs = xs := by
  induction xs with
  | nil => cases inside
  | cons y ys ih =>
    obtain ⟨first, sorted⟩ := List.pairwise_cons.1 sorted
    obtain rfl | later := List.mem_cons.1 inside
    · simp [insertFin]
    · have above : y < x := first x later
      simp only [insertFin, not_lt.2 above.le, above.ne', if_false, ih sorted later]

theorem insertFin_finRange {n : Nat} (x : Fin n) : insertFin x (List.finRange n) = List.finRange n :=
  insertFin_of_mem (List.sortedLT_finRange n).pairwise (List.mem_finRange x)

theorem Part.allPosted_postZone {p : Part} (all : p.allPosted) (z : Fin 64) : (p.postZone z).allPosted := by
  obtain ⟨zones, slots⟩ := all
  refine ⟨?_, slots⟩
  show insertFin z p.exi.zoneMarks = _
  rw [zones]
  exact insertFin_finRange z

theorem Part.allPosted_postSlot {p : Part} (all : p.allPosted) (i : Fin 2048) : (p.postSlot i).allPosted := by
  obtain ⟨zones, slots⟩ := all
  refine ⟨zones, ?_⟩
  show insertFin i p.exi.slotMarks = _
  rw [slots]
  exact insertFin_finRange i

theorem Part.reportCounts_exi (z : Fin 64) (p : Part) : (p.reportCounts z).exi = p.exi := by
  have same : p.reportCounts z = { p with dou := (p.reportCounts z).dou } := Part.sameButDou_reportCounts z p
  rw [same]

theorem Part.allPosted_moveCounts {p : Part} (all : p.allPosted) (z : Fin 64) (a b c d : Bool) :
    (p.moveCounts z a b c d).allPosted := by
  unfold Part.moveCounts
  split
  · exact all
  · dsimp only
    rw [Part.allPosted, Part.reportCounts_exi]
    unfold Part.setZone
    dsimp only
    split
    · exact all
    · exact Part.allPosted_postZone (p := p.putZone z _) all z

theorem Part.allPosted_commitRecord {p : Part} (all : p.allPosted) (i : Fin 2048) (old c : Container) :
    (p.commitRecord i old c).allPosted := by
  obtain ⟨d, placed, -⟩ := (p.setSlot i (some c)).placeDue_eq i c
  have moved := Part.allPosted_moveCounts (p := { p.setSlot i (some c) with dlu := d }) all c.zone old.blocks
    old.countsWarned c.blocks c.countsWarned
  obtain ⟨q, hq⟩ : ∃ q, q = Part.moveCounts c.zone old.blocks old.countsWarned c.blocks c.countsWarned
    { p.setSlot i (some c) with dlu := d } := ⟨_, rfl⟩
  have commit : p.commitRecord i old c = (q.reportLevel old.level c.level).postIfChanged i (some old) (some c) := by
    rw [hq, ← placed]
    rfl
  obtain ⟨rise, cause, messages, reported, -⟩ := q.reportLevel_eq old.level c.level
  rw [← hq] at moved
  have level : (q.reportLevel old.level c.level).allPosted := by
    rw [reported]
    exact moved
  rw [commit]
  unfold Part.postIfChanged
  split
  · exact level
  · exact Part.allPosted_postSlot level i

theorem Part.allPosted_reconcileSlot {p : Part} (all : p.allPosted) (N : Nat) (r : RestoreRecord) (i : Fin 2048) :
    (p.reconcileSlot N r i).allPosted := by
  unfold Part.reconcileSlot
  split
  · exact Part.allPosted_commitRecord all ..
  · exact all

theorem Part.reconcile_marks {N : Nat} {r : RestoreRecord} {p : Part} (found : p.jnc.restore = some r)
    (open_ : p.jnc.closing = none) (all : p.allPosted) :
    (p.reconcile N).exi.headerMark = true ∧ (p.reconcile N).allPosted := by
  have slots (is : List (Fin 2048)) (p : Part) (all : p.allPosted) :
      (is.foldl (fun p i => p.reconcileSlot N r i) p).allPosted := by
    induction is generalizing p with
    | nil => exact all
    | cons i is ih => exact ih _ (Part.allPosted_reconcileSlot all N r i)
  obtain ⟨u, hu⟩ : ∃ u, u = p.liveSlots.foldl (fun p i => p.reconcileSlot N r i) p := ⟨_, rfl⟩
  have posted := slots p.liveSlots p all
  have closing := (Part.reconcileSlots_spec N r p.liveSlots (p := p) p.liveSlots_nodup).accounted.closing open_
  rw [← hu] at posted closing
  obtain ⟨j, header, marked, -⟩ := Part.reconcileMark_eq (N := N) closing
  have goes : p.reconcile N = ((u.reconcileMark N).onJnc fun j => { j with
      outage := if N - r.tLast ≤ Config.timeNone then N - r.tLast else 0
      restore := some { r with reconciled := true } }).postHeader := by
    simp only [Part.reconcile, found, ← hu]
  rw [goes, marked]
  exact ⟨rfl, posted⟩

/-! ### The ends of RESTORE -/

/-- R169: the engine is BLANK, the header posted and ENGINE set. -/
theorem Part.setEngine_enters {e : EngineState} {p : Part} (differs : p.jnc.engine ≠ e) :
    (p.setEngine e).exi.cause.getLsbD 2 = true ∧ p.setEngine e = { p with
      jnc := { p.jnc with engine := e }
      exi := { p.exi with headerMark := true, cause := (p.setEngine e).exi.cause
                          messages := (p.setEngine e).exi.messages } } := by
  have run : p.setEngine e = Part.raise .engine (Part.postHeader { p with jnc := { p.jnc with engine := e } }) :=
    if_neg differs
  rw [run]
  exact ⟨Part.raise_sets .engine _, Part.raise_eq ..⟩

theorem Part.restoreFlash_unidentified {p : Part} (restoring : p.jnc.engine = .restoring) (open_ : p.jnc.closing = none)
    (unformatted : p.jnc.format = none) (unread : p.flash.identified = false) : let q := p.restoreFlash
    q.exi.cause.getLsbD 2 = true ∧ p.handAfterFailure q ∧ q = { p with
      jnc := { p.jnc with engine := .blank, journal := .failed, queue := [], waiting := [], compaction := .idle
                          port := .reset }
      exi := { p.exi with inHand := q.exi.inHand, headerMark := true, cause := q.exi.cause
                          messages := q.exi.messages } } := by
  intro q
  have run : q = p.failJournal.setEngine .blank := if_pos (by rw [unread]; rfl)
  obtain ⟨hand, -, failed⟩ := Part.failJournal_spec open_ unformatted
  obtain ⟨w, hw⟩ : ∃ w, w = p.failJournal := ⟨_, rfl⟩
  rw [← hw] at failed hand run
  have before : w.jnc.engine ≠ .blank := by
    rw [failed]
    show p.jnc.engine ≠ .blank
    rw [restoring]
    decide
  obtain ⟨cause, entered⟩ := Part.setEngine_enters before
  rw [← run] at cause entered
  have held : q.exi.inHand = w.exi.inHand := by rw [entered]
  refine ⟨cause, ?_, ?_⟩
  · rw [Part.handAfterFailure, held]
    exact hand
  · refine entered.trans ?_
    rw [held, failed]

theorem Part.restoreFlash_unformatted {p : Part} (restoring : p.jnc.engine = .restoring)
    (read : p.flash.identified = true)
    (none_ : p.flash.formatEntry = none) : let q := p.restoreFlash
    q.exi.cause.getLsbD 2 = true ∧ q = { p with
      jnc := { p.jnc with engine := .blank }
      exi := { p.exi with headerMark := true, cause := q.exi.cause, messages := q.exi.messages } } := by
  intro q
  have run : q = p.setEngine .blank := by
    show p.restoreFlash = _
    unfold Part.restoreFlash
    simp only [read, none_, Bool.not_true, Bool.false_eq_true, if_false]
  rw [run]
  exact Part.setEngine_enters (by rw [restoring]; decide)

theorem Part.restoreFlash_replays {f : Nat × Nat} {p : Part} (read : p.flash.identified = true)
    (formatted : p.flash.formatEntry = some f) : p.restoreFlash =
      let q := (p.replayAll f.1 f.2).pump
      if q.tbu.timeValid then q.reconcile q.now else q.setEngine .awaitTime := by
  unfold Part.restoreFlash
  simp only [read, formatted, Bool.not_true, Bool.false_eq_true, if_false]

/-- What RESTORE leaves of a journal with a FORMAT entry, in whatever state it leaves the engine (R170). -/
structure Part.Restored (p q : Part) : Prop where
  outside : p.sameOutside q
  noneBakes : q.noneBakes
  lines : ∀ n, (q.line n).sample = some (q.line n).filterTime ∧ (q.line n).timer = none
  header : q.exi.headerMark = true
  posted : q.allPosted
  quiet : q.exi.extraPass = p.exi.extraPass

theorem Container.chargedAs.calm {k : ClassDef} {rate N tLast : Nat} {drop : Option Nat} {c c' : Container}
    (charged : c.chargedAs k rate N tLast drop c') (calm : c.custody ≠ .baking) : c'.custody ≠ .baking := by
  obtain ⟨-, -, -, -, opened, closed⟩ := charged
  obtain ⟨e, he⟩ : ∃ e, e = (settleRecord k (drop.getD tLast) c).1.exposure + c.outageSeconds N tLast drop * rate :=
    ⟨_, rfl⟩
  rw [← he] at opened
  by_cases open_ : (settleRecord k (drop.getD tLast) c).1.custody = .opened
  · obtain ⟨below, above⟩ := opened open_
    rcases Nat.lt_or_ge e k.limit with less | more
    · rw [(below less).2]
      decide
    · rw [(above more).2]
      decide
  · rw [(closed open_).2]
    exact settleRecord_calm calm

section
variable {f : Nat × Nat} {p : Part} (restoring : p.jnc.engine = .restoring) (open_ : p.jnc.closing = none)
  (empty : ∀ i, p.slot i = none)
include restoring open_ empty

/-- The part once the journal has been replayed and the port served. -/
theorem Part.replayAll_pump : let r := p.replayed f.1 f.2
    let q := (p.replayAll f.1 f.2).pump
    p.Restored q ∧ r.part.Restores q ∧ q.jnc.engine = .restoring ∧ q.jnc.closing = none ∧
      q.jnc.restore = some { tLast := r.tLast, openDrop := r.openDrop, imagedAfter := r.imagedAfter, reconciled := false } := by
  intro r q
  obtain ⟨outside, noneBakes, restores, lines, exi, engine, closing, record⟩ :=
    Part.replayAll_spec (serial := f.1) (formatTime := f.2) empty
  obtain ⟨w, hw⟩ : ∃ w, w = p.replayAll f.1 f.2 := ⟨_, rfl⟩
  have run : q = w.pump := by rw [hw]
  rw [← hw] at outside noneBakes restores lines exi engine closing record
  have open' : w.jnc.closing = none := closing.trans open_
  obtain ⟨j, pumped, -⟩ := Part.pump_open open'
  obtain ⟨-, -, engine', -, closing', -, -, record', -⟩ := Part.pump_jnc open'
  rw [run]
  refine ⟨?_, ?_, engine'.trans (engine.trans restoring), closing', record'.trans record⟩
  · rw [pumped]
    refine ⟨outside, noneBakes, lines, ?_, ⟨?_, ?_⟩, ?_⟩
    · show w.exi.headerMark = true
      rw [exi, Part.postAll]
    · show w.exi.zoneMarks = _
      rw [exi, Part.postAll]
    · show w.exi.slotMarks = _
      rw [exi, Part.postAll]
    · show w.exi.extraPass = _
      rw [exi, Part.postAll]
  · rw [pumped]
    exact ⟨restores.slots, restores.settings, restores.cells, restores.tempEdges, restores.rhEdges, restores.defn,
      restores.probe, restores.zones, restores.line, restores.override⟩

theorem Part.restoreFlash_awaits (read : p.flash.identified = true) (formatted : p.flash.formatEntry = some f)
    (invalid : p.tbu.timeValid = false) : let r := p.replayed f.1 f.2
    let q := p.restoreFlash
    p.Restored q ∧ r.part.Restores q ∧ q.jnc.engine = .awaitTime ∧ q.exi.cause.getLsbD 2 = true ∧
      q.jnc.restore = some { tLast := r.tLast, openDrop := r.openDrop, imagedAfter := r.imagedAfter, reconciled := false } := by
  intro r q
  obtain ⟨restored, restores, engine, -, record⟩ := Part.replayAll_pump (f := f) restoring open_ empty
  obtain ⟨w, hw⟩ : ∃ w, w = (p.replayAll f.1 f.2).pump := ⟨_, rfl⟩
  rw [← hw] at restored restores engine record
  have run : q = w.setEngine .awaitTime := by
    show p.restoreFlash = _
    rw [Part.restoreFlash_replays read formatted, ← hw]
    exact if_neg (by rw [restored.outside.2.2, invalid]; decide)
  obtain ⟨cause, entered⟩ := Part.setEngine_enters (e := .awaitTime) (p := w) (by rw [engine]; decide)
  rw [← run] at cause entered
  refine ⟨?_, ?_, by rw [entered], cause, by rw [entered]; exact record⟩
  · rw [entered]
    exact ⟨restored.outside, restored.noneBakes, restored.lines, rfl, restored.posted, restored.quiet⟩
  · rw [entered]
    exact ⟨restores.slots, restores.settings, restores.cells, restores.tempEdges, restores.rhEdges, restores.defn,
      restores.probe, restores.zones, restores.line, restores.override⟩

theorem Part.restoreFlash_reconciles (read : p.flash.identified = true) (formatted : p.flash.formatEntry = some f)
    (valid : p.tbu.timeValid = true) : let q := p.restoreFlash
    p.Restored q ∧ q.jnc.engine = .restoring ∧ ∀ i c, q.slot i = some c → c.settled = p.now := by
  intro q
  obtain ⟨restored, -, engine, closing, record⟩ := Part.replayAll_pump (f := f) restoring open_ empty
  obtain ⟨w, hw⟩ : ∃ w, w = (p.replayAll f.1 f.2).pump := ⟨_, rfl⟩
  rw [← hw] at restored engine closing record
  have now : w.now = p.now := by
    show w.tbu.counter = p.tbu.counter
    rw [restored.outside.2.2]
  have run : q = w.reconcile p.now := by
    show p.restoreFlash = _
    rw [Part.restoreFlash_replays read formatted, ← hw, ← now]
    exact if_pos (by rw [restored.outside.2.2, valid])
  obtain ⟨header, posted⟩ := Part.reconcile_marks (N := p.now) record closing restored.posted
  obtain ⟨u, j, header', reconciles, reconciled, engine', -⟩ := Part.reconcile_spec (N := p.now) record closing
  rw [← run] at header posted reconciled
  have charged (i : Fin 2048) (c : Container) (live : u.slot i = some c) : c.settled = p.now ∧ c.custody ≠ .baking := by
    by_cases before : w.slot i = none
    · have still := reconciles.still i fun listed => Part.mem_liveSlots.1 listed before
      exact nomatch live.symm.trans (still.trans before)
    · obtain ⟨d, was⟩ := Option.ne_none_iff_exists'.1 before
      obtain ⟨c', after, settled, charged⟩ := reconciles.charged i (Part.mem_liveSlots.2 before) d was
      obtain rfl := Option.some.inj (live.symm.trans after)
      exact ⟨settled, charged.calm (restored.noneBakes i d was)⟩
  have slots (i : Fin 2048) : q.slot i = u.slot i := by
    rw [reconciled]
    rfl
  have lines (n : Fin 16) : q.line n = w.line n := by
    rw [reconciled, reconciles.accounted.1]
    rfl
  obtain ⟨host, flash, tbu⟩ := restored.outside
  refine ⟨⟨?_, fun i c live => (charged i c ((slots i).symm.trans live)).2, fun n => ?_, header, posted, ?_⟩, ?_,
    fun i c live => (charged i c ((slots i).symm.trans live)).1⟩
  · rw [reconciled, reconciles.accounted.1]
    exact ⟨host, flash, tbu⟩
  · rw [lines]
    exact restored.lines n
  · rw [reconciled, reconciles.accounted.1]
    exact restored.quiet
  · rw [reconciled]
    exact engine'.trans engine

end

/-- Settles O27. -/
theorem restoreReplaysOrIsBlank : Obligations.RestoreReplaysOrIsBlank := by
  refine ⟨?_, ?_, ?_⟩
  · intro s id stores on h p restoring first open_ unformatted quiet blank
    have runs (same : p.restoreFlash.exi.extraPass = false) :
        exec (.restore ⟨id, stores⟩) s = .next (s.withPart p.restoreFlash) := by
      rw [exec_restore on]
      exact next_congr (Part.restore_quiet (p := h) restoring first same)
    refine ⟨fun unread => ?_, fun known known' none_ => ?_⟩
    · have unknown : p.flash.identified = false := Bool.eq_false_iff.2 fun read => by
        obtain ⟨known, known'⟩ := (Flash.identified_iff _).1 read
        exact unread.elim known known'
      obtain ⟨cause, hand, eq⟩ := Part.restoreFlash_unidentified restoring open_ unformatted unknown
      exact ⟨_, runs (by rw [eq]; exact quiet), cause, hand, eq⟩
    · obtain ⟨cause, eq⟩ := Part.restoreFlash_unformatted restoring ((Flash.identified_iff _).2 ⟨known, known'⟩) none_
      exact ⟨_, runs (by rw [eq]; exact quiet), cause, eq⟩
  · intro s id stores f on h p restoring first open_ unformatted quiet known known' formatted empty
    have read : p.flash.identified = true := (Flash.identified_iff _).2 ⟨known, known'⟩
    have runs (same : p.Restored p.restoreFlash) :
        exec (.restore ⟨id, stores⟩) s = .next (s.withPart p.restoreFlash) := by
      rw [exec_restore on]
      exact next_congr (Part.restore_quiet (p := h) restoring first (same.quiet.trans quiet))
    cases valid : p.tbu.timeValid with
    | false =>
      obtain ⟨restored, restores, engine, cause, record⟩ :=
        Part.restoreFlash_awaits restoring open_ empty read formatted valid
      refine ⟨_, runs restored, restored.outside, restored.noneBakes, restored.lines, restored.header,
        restored.posted.1,
        restored.posted.2, fun _ => ⟨engine, cause, ?_⟩, nofun⟩
      intro found r plain
      refine ⟨fun i => ?_, restores.settings, restores.cells, restores.tempEdges, restores.rhEdges, restores.defn,
        restores.probe, restores.zones, restores.line, restores.override, _, record, rfl, rfl, rfl⟩
      rw [restores.slots, Option.map_map]
      rfl
    | true =>
      obtain ⟨restored, engine, settled⟩ := Part.restoreFlash_reconciles restoring open_ empty read formatted valid
      exact ⟨_, runs restored, restored.outside, restored.noneBakes, restored.lines, restored.header, restored.posted.1,
        restored.posted.2, nofun, fun _ => ⟨engine, settled⟩⟩
  · intro r sector read p applied q
    refine ⟨fun pl older => Replay.step_skips older, fun newer => ?_⟩
    have part (pl : Payload) (other : ∀ t h, pl ≠ .edgesImage t h) : ∃ j, q pl = { p.replayEntry pl with jnc := j } :=
      Replay.step_part newer other
    refine ⟨fun pl => Replay.step_fields newer, fun t => ?_, ?_, fun i unique => ?_, fun i id => ?_, fun z i => ?_,
      fun z i => ?_, fun n i => ?_, fun v => ?_, fun n c => ?_, fun v g => ?_, fun v => ?_, fun n v => ?_, fun v => ?_,
      fun lower upper temp rh second third later last => Replay.step_derating newer later last lower upper temp rh⟩
    · rw [show applied (.dropMark t) = _ from Replay.step_applies newer]
      exact ⟨rfl, rfl⟩
    · rw [show applied .resyncEnd = _ from Replay.step_applies newer]
      rfl
    · obtain ⟨j, eq⟩ := part (.containerImage i) nofun
      obtain ⟨own, others⟩ := Part.replayImage_spec (i := i) unique
      have marked : i.slot ∈ (applied (.containerImage i)).imagedAfter := by
        rw [show applied (.containerImage i) = _ from Replay.step_applies newer]
        exact mem_insertFin.2 (.inl rfl)
      rw [eq]
      have record := ContainerImage.record_spec (p.classDef i.cls) i
      have custody := ContainerImage.record_custody (p.classDef i.cls) i
      refine ⟨p.withMode (i.record (p.classDef i.cls)), own, ?_⟩
      rw [Part.withMode_eq]
      refine ⟨?_, ?_, ?_, ?_, ?_, ?_, ?_, ?_, ?_, ?_, ?_, ?_, ?_, custody, marked, others⟩
      all_goals rw [record]
    · obtain ⟨j, eq⟩ := part (.retireEntry i id) nofun
      rw [eq]
      exact Part.replayRetire_spec i id p
    · obtain ⟨j, eq⟩ := part (.zoneImage z i) nofun
      rw [eq]
      exact Part.replayZone_spec z i p
    · obtain ⟨j, eq⟩ := part (.zoneCondition z i) nofun
      have spec := Part.replayCondition_spec z i p
      have eq' : q (.zoneCondition z i) = { p.replayCondition z i with jnc := j } := eq
      obtain ⟨w, hw⟩ : ∃ w, w = p.replayCondition z i := ⟨_, rfl⟩
      rw [← hw] at spec eq'
      obtain ⟨⟨config, condition, time, held⟩, slots⟩ := spec
      rw [eq']
      exact ⟨config, condition, time, held, slots⟩
    · obtain ⟨j, eq⟩ := part (.classImage n i) nofun
      rw [eq]
      exact congrArg ClassRecord.defn (Part.cls_setCls_self ..)
    · obtain ⟨j, eq⟩ := part (.engineImage v) nofun
      rw [eq]
      rfl
    · obtain ⟨j, eq⟩ := part (.probeImage n c) nofun
      rw [eq]
      exact congrArg Probe.config (Part.probe_setProbe_self ..)
    · obtain ⟨j, eq⟩ := part (.groupsImage v) nofun
      intro o
      have groups := (Part.replayGroups_spec v p).1 g
      rw [show o = _ from congrArg (fun q => q.group g) eq]
      exact groups
    · obtain ⟨j, eq⟩ := part (.groupsImage v) nofun
      rw [eq]
      exact (Part.replayGroups_spec v p).2
    · obtain ⟨j, eq⟩ := part (.doorImage n v) nofun
      rw [eq]
      exact Part.line_setLine_self ..
    · obtain ⟨j, eq⟩ := part (.outputsImage v) nofun
      intro o
      rw [show o = _ from eq]
      exact Part.replayOutputs_spec v p

end Sys2Proof.Machine
